-- ==== Sys2Proof/Word.lean ====
section
/-!
DEFINITION. The word types of the model: bytes, 32-bit and 64-bit words, 128-bit command words.
-/
namespace Sys2Proof

/-- One byte. -/
abbrev Byte := BitVec 8
/-- A 32-bit register, tally, handle value or FP32 encoding. -/
abbrev W32 := BitVec 32
/-- A 64-bit paddock word or handle-table entry. -/
abbrev W64 := BitVec 64
/-- A 128-bit command word (06_pen_command_streams.md). -/
abbrev W128 := BitVec 128

end Sys2Proof
end

