-- ==== Sys2Proof/Syntax.lean ====
section
/-!
DEFINITION. The commands: one constructor of Instr per row of spec/opcode_table.json, with the row's
operands. Sites, folds, ports and functions are numbers; WellFormed.lean gives their ranges.
-/
namespace Sys2Proof

/-- The two queues of a pen (R118). -/
inductive Queue where
  | fwd | bwd
  deriving DecidableEq, Repr

/-- The five engines of a pen (06, Queues, engines and completion). -/
inductive Engine where
  | array | vector | mover | node | sync
  deriving DecidableEq, Repr

/-- The two directions of the drove (R92). -/
inductive Dir where
  | sunwise | widdershins
  deriving DecidableEq, Repr

/-- Outcome of an error-code check on a word or tile. -/
inductive Ecc where
  | ok | corrected | uncorrectable
  deriving DecidableEq, Repr

/-- Paths that the checks of R67 watch. -/
inductive CheckPath where
  | residue | adder | decode | rounding
  deriving DecidableEq, Repr

/-- What goes wrong in a read or a pass of an engine, if anything. -/
inductive ReadErr where
  | none
  /-- a failed check of a pass, with the cell where located (R66 to R69) -/
  | check (path : CheckPath) (cell : Option (Nat × Nat))
  /-- an error of one bit position, 2^k added or taken away, in a product of cell (row, col) in a pass: whether the
  check row and the check column see it is computed (R66) -/
  | product (pass row col k : Nat) (neg : Bool)
  /-- an accumulator word with a corrected or an uncorrectable error (R64) -/
  | acc (e : Ecc) (tile row : Nat)
  /-- a paddock word (byte offset) with a corrected or an uncorrectable error (R146, R147) -/
  | pad (e : Ecc) (addr : Nat)
  deriving DecidableEq, Repr

/-- Stop causes of a pen (table Stop causes; a drive stop is R208's; R205's pre-emption). -/
inductive StopCause where
  | preempt | governor | refclk | retire | substitution | drive
  deriving DecidableEq, Repr

/-- A bulk-ring write flit (08, Flit headers): source station and requester index, destination site and byte offset, 64
bytes as eight words with a valid mask and poison mask, arrival tally on the last flit. `origin` marks the poisoned words
that came from LPDDR5X, which R189 has their reader know and the header does not carry (log entry 16). -/
structure BulkFlit where
  src    : Nat
  req    : Nat
  site   : Nat
  off    : Nat
  words  : List W64
  mask   : List Bool
  poison : List Bool
  origin : List Bool
  fold   : Nat
  tally  : Nat
  inc    : Nat
  last   : Bool
  cut    : Bool
  deriving DecidableEq, Repr

/-- A read order (R244): the requesting site, the fold-relative source and destination addresses, the length, the arrival
tally and its increment. -/
structure ReadOrder where
  site  : Nat
  src   : Nat
  dst   : Nat
  len   : Nat
  fold  : Nat
  tally : Nat
  inc   : Nat
  deriving DecidableEq, Repr

/-- A feed flit (R247; 08, Flit headers): the site it is for, the quarter it comes from, the stream, the fold-relative
address of its first byte and its bytes, of one aligned 256-byte block (R246). -/
structure FeedFlit where
  site    : Nat
  quarter : Nat
  dir     : Dir
  stream  : Nat
  addr    : Nat
  len     : Nat
  deriving DecidableEq, Repr

/-- A control flit (table Control flit), by kind. -/
inductive CtlFlit where
  | tallyAdd (fold id inc : Nat)
  | tallySet (fold id value : Nat)
  | musterArrive (fold slot group pen : Nat)
  | musterRelease (fold slot group site pos : Nat)
  | setupAddr (crook rd : Bool) (off : Nat)
  | setupData (crook refused : Bool) (value : Nat)
  | rampReq (site : Nat) (up : Bool)
  | rampGrant (site : Nat) (up : Bool)
  | eventFrag (site value : Nat)
  deriving DecidableEq, Repr

/-- What a withdrawn grant's burst belonged to (table Transfers ended by a CUT). -/
inductive CutOwner where
  /-- the stream command at an address of a pen of the fold -/
  | command (site addr : Nat)
  /-- the ring descriptor of an SQ entry -/
  | descriptor (sq idx : Nat)
  /-- batch DMA k of the prepared or open step of a drive slot of a fold -/
  | batch (fold slot k : Nat)
  /-- the request at the head of memory shears u, or of the link shears for 4 -/
  | shear (u : Nat)
  /-- the collective in a plan slot -/
  | collective (slot : Nat)
  /-- the snapshot drain of a fold -/
  | drain (fold : Nat)
  /-- a recovery load -/
  | load
  /-- the shared-store export of a fold's snapshot -/
  | exporting (fold : Nat)
  /-- a studbook write of a drive slot of a fold -/
  | studbook (fold slot : Nat)
  /-- a foster copy -/
  | fosterCopy
  /-- the host's own access: a read, or a write -/
  | host (rd : Bool)
  /-- an operation of the crook -/
  | crook
  deriving DecidableEq, Repr

/-- A frame as received: kind, sequence number, slots in use and symbol errors (R314, R315). -/
structure Frame where
  kind  : Nat
  seq   : Nat
  count : Nat
  errs  : Nat
  deriving DecidableEq, Repr

/-- A link control slot (11, table Link control slot); the tag's check is `tagOk`. -/
structure CtlSlot where
  ack     : Option Nat
  replay  : Option Nat
  credits : List (Nat × Nat)
  inService : Bool
  refLoss : Bool
  failed  : Bool
  recovering : Bool
  zeroised : Bool
  rank    : Nat
  port    : Nat
  watch   : Nat
  tagOk   : Bool
  deriving DecidableEq, Repr

/-- Body of a flock-management packet (R330, R360, R381, R382): what the bellwether's crook tells a member. -/
inductive FlockMsg where
  /-- shape, leaves, bellwether and the member's recovery setup at formation -/
  | config (cfg recov : Nat)
  /-- one route -/
  | route (rank primary alternate : Nat) (valid : Bool)
  /-- the member's standby flag, its foster and its ward -/
  | assign (standby : Bool) (foster ward : Option Nat)
  /-- flock state: 0 unformed, 1 forming, 2 formed, 3 recovering, 4 failed -/
  | state (st reason : Nat)
  /-- admitted ranks -/
  | members (mask : Nat)
  /-- a multicast group's entry (ingress, egresses, local delivery, source rank, member mask), or its removal -/
  | group (g : Nat) (entry : Option (Nat × List Nat × Bool × Nat × Nat))
  /-- ranks with the runs of leaves they host: first leaf, count (R333, R382) -/
  | leaves (l : List (Nat × Nat × Nat))
  /-- recovery step 4: restore from a layer (1 foster, 2 cote, 3 shared store); the lost rank, 63 for none; k0;
  the rank that holds the lost device's copy -/
  | load (layer lost k0 src : Nat)
  /-- a request of a rank for pages of the extent of a rank at a step, all of them where none are named (R383, R384,
  R391) -/
  | pull (dest whose step : Nat) (pages : List Nat)
  /-- a member's loads are complete and its drive is resident (R385) -/
  | loaded (rank : Nat)
  /-- whether the foster of a ward holds a committed copy (R371, R372) -/
  | fosterState (ward : Nat) (ok : Bool)
  /-- the group, or none, that a plan written on a member names (R424) -/
  | planGroup (rank plan : Nat) (group : Option Nat)
  /-- a member's fold count, changed while it is admitted (R367, R382) -/
  | folds (rank count : Nat)
  /-- state of the bellwether's PF0 selective IDE stream (R459) -/
  | ide (keyed : Bool)
  deriving DecidableEq, Repr

/-- Causes of the table Device-visible failures. -/
inductive FailCause where
  | declared | silent | linkFailed | heartbeat | stopped (status : Nat) (leaf step : Nat) | watchSkew
  /-- a STUDBOOK_MISMATCH (R387) -/
  | mismatch (leaf step : Nat)
  /-- a recovery load that read poison or was ended by a CUT (R391) -/
  | loadFailed
  deriving DecidableEq, Repr

/-- Messages on VC0 (R330, R359, R360, R380, R381, R449). -/
inductive Vc0 where
  | heartbeat
  | done (step : Nat) (reading : Bool)
  | commit (step : Nat) (snap exp : Bool)
  | abort (k0 : Nat)
  /-- a report of a cause about a rank (R380) -/
  | failure (rank : Nat) (c : FailCause)
  | manage (m : FlockMsg)
  | nonce (draw : Nat)
  | key (round : Nat) (draw : Nat)
  deriving DecidableEq, Repr

/-- How a message on VC0 comes to this device: from itself, or in a packet of kind 11 on a port, whose tag check is
`tagOk` (R320, R323). -/
inductive Via where
  | own
  | port (k : Nat) (tagOk : Bool)
  deriving DecidableEq, Repr

/-- A packet (table Packet header slot) with its data slots, or with the message of a packet of kind 11; `tagOk` is the
ingress tag check. -/
structure Packet where
  dst    : Nat
  src    : Nat
  vc     : Nat
  cls    : Nat
  slot   : Nat
  kind   : Nat
  group  : Option Nat
  ctr    : Nat
  plan   : Nat
  leaf   : Nat
  node   : Nat
  addr   : Nat
  offset : Nat
  tally  : Nat
  inc    : Nat
  status : Nat
  data   : List Byte
  msg    : Option Vc0
  tagOk  : Bool
  deriving DecidableEq, Repr

/-- An access of the host to the window of a rank in BAR2, or a tunnel packet on a port (R347). -/
inductive Tunnel where
  | host (rank off width value : Nat)
  | packet (k : Nat) (p : Packet)
  deriving DecidableEq, Repr

/-- What a read of host memory returned (R425, R541). -/
inductive HostRead where
  | data (bytes : List Byte)
  | abort
  | timeout
  deriving DecidableEq, Repr

/-- The host reads that LAUNCH or STEP make for a step, in order (R418, R541): step block, start table,
and per hosted leaf its batch list, annotation and original record. -/
structure StepReads where
  block  : HostRead
  starts : HostRead
  lists  : List HostRead
  notes  : List HostRead
  originals : List HostRead
  deriving DecidableEq, Repr

/-- The structures with spare rows (table Spare rows). -/
inductive RowStore where
  | acc (site bank : Nat)
  | tally (site : Nat)
  | global
  | studbook
  deriving DecidableEq, Repr

/-- How a link's lane training ended: lanes that trained, and what the peer reported. -/
structure Training where
  lanes : Nat
  peerRank : Nat
  peerPort : Nat
  deriving DecidableEq, Repr

/-- What a device's attestation report says (R440, R441): whether it verifies under a certificate of Norbeku's device authority,
whether it carries the nonce sent; owner key hash, approved flag, measurement register 1. -/
structure Report where
  verified : Bool
  nonceOk  : Bool
  ownerHash : List Byte
  approved : Bool
  register1 : List Byte
  deriving DecidableEq, Repr

/-- What the bellwether's discovery learns of a rank (table Flock formation, steps 1 to 3; R331, R441). -/
structure MemberInfo where
  rank    : Nat
  idrev   : Nat
  stage   : Nat
  watchLocked : Bool
  watchFree : Bool
  folds   : Nat
  report  : Report
  keysOk  : Bool
  deriving DecidableEq, Repr

/-- A firmware image as read: its 512 header bytes and its body (R433). -/
structure Image where
  header : List Byte
  body   : List Byte
  deriving DecidableEq, Repr

/-- Causes of a module reset (RESET_CAUSE.last). -/
inductive ResetCause where
  | powerOn | modReset | resetCtrl | watchdog | coreLoss | thermal
  deriving DecidableEq, Repr

/-- Units of a unit reset (R493): a site, a memory quarter, a link port. -/
inductive UnitId where
  | site (n : Nat)
  | quarter (q : Nat)
  | link (k : Nat)
  deriving DecidableEq, Repr

/-- The commands of the block, one constructor per row of spec/opcode_table.json. `errs` is what a transfer's read
finds in paddock words, by fold-relative local address; a word it does not name reads without error (R146 to
R148). -/
inductive Instr where
  -- pen command streams (06)
  | nop (n : Nat)
  | endStream (n : Nat)
  | jump (n : Nat)
  | call (n : Nat)
  | ret (n : Nat)
  | mbsel (n : Nat) (q : Queue)
  | stepCmd (n : Nat) (q : Queue)
  | tallyAdd (n : Nat) (q : Queue)
  | tallySet (n : Nat) (q : Queue)
  | tallyWait (n : Nat) (q : Queue)
  | muster (n : Nat) (q : Queue)
  | watchWait (n : Nat) (q : Queue)
  | racePush (n : Nat) (q : Queue)
  | racePop (n : Nat) (q : Queue)
  | handleSet (n : Nat) (q : Queue)
  | clear (n : Nat) (q : Queue)
  | release (n : Nat) (q : Queue)
  | product (n : Nat) (q : Queue)
  | vop (n : Nat) (q : Queue) (err : ReadErr)
  | move (n : Nat) (q : Queue) (errs : List (Nat × Ecc))
  | feed (n : Nat) (q : Queue) (errs : List (Nat × Ecc))
  | lot (n : Nat) (q : Queue) (errs : List (Nat × Ecc))
  | land (n : Nat) (q : Queue)
  | shear (n : Nat) (q : Queue)
  | collect (n : Nat) (q : Queue)
  -- sequencer and pen
  | streamFetch (n : Nat) (errs : List (Nat × Ecc))
  | commandCompletion (n : Nat) (q : Queue) (e : Engine) (k : Nat)
  | tileStep (n : Nat) (err : ReadErr)
  | penRetire (n : Nat)
  | spareSubstitution (n : Nat)
  | penStopRequest (n : Nat) (c : StopCause)
  | preemption (n : Nat) (cycles : Nat)
  | idleRampDown (n : Nat)
  | rampEnd (n : Nat)
  | droveTileArrival (n : Nat) (dir : Dir) (e : Ecc)
  | droveResend (n : Nat) (dir : Dir)
  -- rings and arbitration (08)
  | bulkWriteFlit (f : BulkFlit)
  | remoteReadOrder (o : ReadOrder) (errs : List (Nat × Ecc))
  | feedFlit (f : FeedFlit)
  | controlTallyAdd (fold id inc : Nat)
  | controlTallySet (fold id value : Nat)
  | musterArrive (fold slot group pen cycle : Nat)
  | musterRelease (fold slot group site pos cycle : Nat)
  | setupAddress (crook rd : Bool) (off : Nat)
  | setupData (crook refused : Bool) (value : Nat)
  | rampRequest (n : Nat) (up : Bool)
  | rampGrant (n : Nat) (up : Bool) (cycle : Nat)
  | eventFragment (n value : Nat) (last : Bool)
  | arbiterDraw (a : Nat) (requesting : List (Nat × Nat))
  | cut (a beats : Nat) (owner : CutOwner)
  -- memory and paddocks (05, 10)
  | memoryRead (addr : Nat) (lo hi : Ecc)
  | memoryWrite (fold addr : Nat) (data : List Byte)
  | memPatrol (ch : Nat) (errs : List (Ecc × Ecc))
  | refresh (q : Nat) (hot : Bool × Bool)
  | rfm (q : Nat) (hot : Bool × Bool)
  | wck2dqCheck (q ch : Nat) (drifted : Bool)
  | channelPowerDown (ch : Nat)
  | selfRefreshEntry (q : Nat)
  | selfRefreshExit (q : Nat)
  | paddockScrub (n bank : Nat) (granted : Bool) (errs : List Ecc)
  | paddockClear (n : Nat)
  | rowSpare (st : RowStore) (row : Nat) (e : Ecc)
  | rowRemapDone (st : RowStore) (row : Nat)
  -- shears and collectives (07, 11)
  | memoryShearsUpdate (u : Nat)
  | linkShearsBlockUpdate (k plan j : Nat)
  | collectiveStart (errs : List (Nat × Ecc))
  -- host descriptors (13)
  | dma (sq idx : Nat) (errs : List (Nat × Ecc))
  | tallyAddDescriptor (sq idx : Nat)
  | wait (sq idx : Nat)
  | waitTimeout (sq idx : Nat)
  | launch (sq idx : Nat) (block : HostRead) (reads : StepReads)
  | stepDescriptor (sq idx : Nat)
  | stepPrepare (sq idx : Nat) (reads : StepReads)
  | stepOpen (fold slot : Nat)
  | stepClose (fold slot : Nat) (err : Option (Nat × Ecc))
  | run (sq idx : Nat)
  | endDescriptor (sq idx : Nat)
  | plan (sq idx : Nat)
  | groupOpen (sq idx : Nat)
  | groupClose (sq idx : Nat)
  | descriptorFetch (sq : Nat)
  | hostReadCompletion (tag : Nat) (data : HostRead)
  | sqDoorbell (fn n width value : Nat)
  | cqDoorbell (fn n width value : Nat)
  | ringEnable (fn n value : Nat)
  | ringDisable (fn n value : Nat)
  -- setup registers (17)
  | foldcfgCount (fn value : Nat)
  | foldHandover (fn f : Nat)
  | foldReady (f : Nat)
  | siteCtrlRetire (fn n : Nat)
  | siteCtrlClearCounts (fn n : Nat)
  | watchReload (fn : Nat)
  | watchLoRead (fn : Nat)
  | flockForm (fn : Nat) (members : List MemberInfo)
  | flockDissolve (fn : Nat) (resident : List Nat)
  | recovHandover (fn rank : Nat)
  | recovReadmit (fn rank : Nat) (info : MemberInfo)
  | exportDone (fn : Nat)
  | recovSignArm (fn value : Nat)
  | recovSnapatArm (fn value : Nat)
  | secCtrlZeroise (fn value : Nat)
  | resetCtrlModule (fn value : Nat)
  | traceEnable (fn value : Nat)
  | linkCtrlRetrain (fn k value : Nat)
  | apertureRead (fn off width : Nat) (errs : List (Nat × Ecc))
  | apertureWrite (fn off width value : Nat)
  | registerWrite (fn off width value : Nat)
  -- mailbox (14)
  | getCert (fn : Nat)
  | attest (fn : Nat)
  | extend (fn : Nat)
  | getNonce (fn : Nat)
  | ownerEnrol (fn : Nat)
  | setApproved (fn : Nat)
  | decommission (fn : Nat)
  | fwUpdate (fn : Nat) (image : Option Image)
  | recoveryLoad (fn : Nat) (image : Option Image)
  | recoveryWrite (fn : Nat)
  | zeroise (fn : Nat)
  -- SPDM (R441)
  | getVersion
  | getCapabilities
  | negotiateAlgorithms
  | getDigests
  | getCertificate (offset len : Nat)
  | challenge (nonce : List Byte)
  | getMeasurements (index : Nat)
  | keyExchange (requester : List Byte)
  | finish (session : Nat) (userCert : Option (List Byte × List Byte)) (macOk : Bool)
  | endSession (session : Nat)
  | ideKm (session : Nat) (fn : Nat) (selective : Bool)
  -- PMBus (R500)
  | operation (value : Option Nat)
  | clearFaults
  | statusWord
  | readVin (reading : Nat)
  | readIin (reading : Nat)
  | readTemperature1 (reading : Nat)
  | readTemperature2 (reading : Nat)
  | readPin (reading : Nat)
  -- SMBus (R515)
  | smbusIdrev
  | smbusSecStatus
  | smbusStage
  | smbusThermStatus
  | smbusPwrStatus
  | smbusResetCause
  | smbAlertRead
  | smbAlertClear (value : Nat)
  | alertResponseAddress
  -- TAP (R457, R518)
  | bypass
  | idcode
  | samplePreload (cells : List Bool)
  | extest
  | extestPulse
  | extestTrain
  | tapDieStateInstruction
  -- links (11)
  | frameReceive (k : Nat) (f : Frame)
  | replayRequest (k seq : Nat)
  | linkControlSlot (k : Nat) (c : CtlSlot)
  | linkControlSend (k : Nat)
  | linkSilent (k : Nat)
  | linkRetrain (k : Nat)
  | linkFailed (k : Nat)
  | linkTraining (k : Nat) (t : Training)
  | linkKeyAgreement (k : Nat) (ok : Bool)
  | packetForward (k : Nat) (p : Packet)
  | tunnelRead (a : Tunnel)
  | tunnelWrite (a : Tunnel)
  | tunnelCompletion (k : Nat) (p : Packet)
  | tunnelTimeout (tag : Nat)
  | interrupt (k : Nat) (p : Packet)
  | hostDmaRead (k : Nat) (p : Packet)
  | hostDmaWrite (k : Nat) (p : Packet)
  | reduceData (k : Nat) (p : Packet)
  | gatherData (k : Nat) (p : Packet)
  | multicastData (k : Nat) (p : Packet) (room : Bool)
  | foster (k : Nat) (p : Packet)
  | fosterEnd (k : Nat) (p : Packet)
  | fosterSend (fold : Nat)
  | repair (k : Nat) (p : Packet)
  | repairRequest (g : Nat)
  | laggardFail (g : Nat)
  | flockManagement (v : Via) (m : FlockMsg)
  | recoveryLoadPacket (k : Nat) (p : Packet)
  | heartbeat (v : Via) (rank : Nat)
  | done (v : Via) (rank step : Nat) (reading : Bool)
  | commit (v : Via) (step : Nat) (snap exp : Bool)
  | abort (v : Via) (k0 : Nat)
  | deviceFailure (v : Via) (rank : Nat) (cause : FailCause)
  | memberLost (rank : Nat)
  | recoveryAssignment (lost : Nat) (images : List (List Nat)) (exported : Nat)
  | recoveryReady
  | routeUpdate (rank port : Nat)
  | seal
  | coteDrain (f : Nat) (units : Nat)
  | journalAppend (f : Nat)
  -- hefts and watch (09)
  | comparatorFire (c : Nat)
  | watchWaitRetry (n : Nat) (q : Queue)
  | watchFrame (value check lowTicks : Nat)
  | watchLoss
  | watchSkew
  | refLoss
  | refRestored
  | refFail
  | heftSlew (h : Nat)
  | heftSlewEnd (h : Nat)
  | periodStretch (h : Nat)
  | queueRealign (h g : Nat)
  | heftClockStop (h : Nat)
  | heftWake (h : Nat)
  | crossingHandshake (h : Nat)
  | unitReset (u : UnitId)
  -- power, reset, bring-up (15)
  | powerMeasurement (watts fast slow : Nat)
  | governorStepDown
  | governorStepUp
  | excursionGuard
  | governorPause
  | leaveGuard
  | thermalStepDown (h reading : Nat)
  | thermalStepUp (h reading : Nat)
  | thermtrip (h reading : Nat)
  | vcoreChange (half millivolts : Nat)
  | powerOnReset
  | boot
  | powerUp
  | pgAsserted
  | powerDown (opOff : Bool)
  | inputVoltageFault (millivolts : Nat)
  | siteSramTest (n : Nat) (passed : Bool)
  | selfTests (failing : Option Nat)
  | memoryTraining (fast slow : Option Nat)
  | enterFullService
  | moduleReset (slotId : Nat)
  | watchdog
  | hostPortReset
  | functionLevelReset (fn : Nat)
  | tamperNFall
  | tamperResponse
  | drbgReseed
  | vauxLoss
  | perstNRise
  | formationTimeout
  | tamperNRise
  deriving DecidableEq, Repr

end Sys2Proof
end

