-- ==== Sys2Proof/Machine/Num.lean ====
section
/-!
DEFINITION. Element formats, decoding to the internal form, the cell dot product, FP32 arithmetic,
conversions and stochastic rounding (02_numbers_and_dot_products.md), and the vector unit's functions
(03_pens_and_cells.md R87 to R91).
-/
namespace Sys2Proof.Machine

/-- Bits [hi:lo] of a number. -/
def bits (v hi lo : Nat) : Nat := (v >>> lo) % 2 ^ (hi + 1 - lo)

/-- Bit i of a number. -/
def bit (v i : Nat) : Bool := v.testBit i

/-- Little-endian value of bytes (00_scope.md, Notation). -/
def leNat : List Byte → Nat
  | [] => 0
  | b :: bs => b.toNat + 256 * leNat bs

/-- The n little-endian bytes of a value. -/
def leBytes : Nat → Nat → List Byte
  | 0, _ => []
  | n + 1, v => BitVec.ofNat 8 v :: leBytes n (v / 256)

/-- The n big-endian bytes of a value. -/
def beBytes (n v : Nat) : List Byte := (leBytes n v).reverse

/-! ## Element formats (R28) -/

/-- The formats of the table Element formats, codes #0 to #8. -/
inductive Fmt where
  | e4m3 | e5m2 | e3m2 | e2m3 | e2m1 | int8 | bf16 | fp16 | fp32
  deriving DecidableEq, Repr

/-- The format a code names; codes #9 to #F are reserved (R28). -/
def Fmt.ofCode : Nat → Option Fmt
  | 0 => some .e4m3 | 1 => some .e5m2 | 2 => some .e3m2 | 3 => some .e2m3 | 4 => some .e2m1
  | 5 => some .int8 | 6 => some .bf16 | 7 => some .fp16 | 8 => some .fp32 | _ => none

/-- The code of a format. -/
def Fmt.code : Fmt → Nat
  | .e4m3 => 0 | .e5m2 => 1 | .e3m2 => 2 | .e2m3 => 3 | .e2m1 => 4
  | .int8 => 5 | .bf16 => 6 | .fp16 => 7 | .fp32 => 8

/-- Element width in bits. -/
def Fmt.width : Fmt → Nat
  | .e4m3 | .e5m2 | .int8 => 8
  | .e3m2 | .e2m3 => 6
  | .e2m1 => 4
  | .bf16 | .fp16 => 16
  | .fp32 => 32

/-- Fraction bits. -/
def Fmt.frac : Fmt → Nat
  | .e4m3 => 3 | .e5m2 => 2 | .e3m2 => 2 | .e2m3 => 3 | .e2m1 => 1
  | .int8 => 7 | .bf16 => 7 | .fp16 => 10 | .fp32 => 23

/-- Exponent bias. -/
def Fmt.bias : Fmt → Int
  | .e4m3 => 7 | .e5m2 => 15 | .e3m2 => 3 | .e2m3 => 1 | .e2m1 => 1
  | .int8 => 0 | .bf16 => 127 | .fp16 => 15 | .fp32 => 127

/-- Code (without sign) of the largest finite value. -/
def Fmt.maxFinite : Fmt → Nat
  | .e4m3 => 0x7E | .e5m2 => 0x7B | .e3m2 => 0x1F | .e2m3 => 0x1F | .e2m1 => 0x7
  | .int8 => 0x7F | .bf16 => 0x7F7F | .fp16 => 0x7BFF | .fp32 => 0x7F7FFFFF

/-- Whether the format has infinities. -/
def Fmt.hasInf : Fmt → Bool
  | .e5m2 | .bf16 | .fp16 | .fp32 => true
  | _ => false

/-- Whether operands of the format may carry block scales (R30). -/
def Fmt.scalable : Fmt → Bool
  | .bf16 | .fp16 | .fp32 => false
  | _ => true

/-- The canonical NaN of a format that has one (R38, R51). -/
def Fmt.nanCode : Fmt → Nat
  | .e4m3 => 0x7F | .e5m2 => 0x7E | .bf16 => 0x7FC0 | .fp16 => 0x7E00 | .fp32 => 0x7FC00000
  | _ => 0

/-! ## The internal form (R32) -/

/-- Class of an element. -/
inductive Cls where
  | zero | finite | inf | nan
  deriving DecidableEq, Repr

/-- The internal form: a finite value is (-1)^s * m * 2^q. -/
structure Dec where
  cls : Cls
  s   : Bool
  m   : Nat
  q   : Int
  deriving DecidableEq, Repr

/-- A NaN of the internal form. -/
def Dec.nanD : Dec := ⟨.nan, false, 0, 0⟩
/-- A zero of the internal form. -/
def Dec.zeroD (s : Bool) : Dec := ⟨.zero, s, 0, 0⟩

/-- Decode of one element before its block scale (R32, table Decode to the internal form). -/
def decodeElem (f : Fmt) (scaled : Bool) (raw : Nat) : Dec :=
  match f with
  | .int8 =>
    let v : Int := if raw % 256 < 128 then (raw % 256 : Nat) else (raw % 256 : Nat) - 256
    if v = 0 then .zeroD false else ⟨.finite, v < 0, v.natAbs, if scaled then -6 else 0⟩
  | _ =>
    let fr := f.frac
    let mant := raw % 2 ^ fr
    let s := raw.testBit (f.width - 1)
    let e := (raw >>> fr) % 2 ^ (f.width - 1 - fr)
    let top := 2 ^ (f.width - 1 - fr) - 1
    if f.hasInf && e == top then
      if mant = 0 then ⟨.inf, s, 0, 0⟩ else .nanD
    else if f = .e4m3 ∧ e = 15 ∧ mant = 7 then .nanD
    else if e = 0 then
      if mant = 0 then .zeroD s else ⟨.finite, s, mant, 1 - f.bias - fr⟩
    else ⟨.finite, s, 2 ^ fr + mant, (e : Int) - f.bias - fr⟩

/-- The element with its block scale code X, if its operand is scaled (R31, R32). -/
def decodeScaled (f : Fmt) (scale : Option Nat) (raw : Nat) : Dec :=
  match scale with
  | none => decodeElem f false raw
  | some 255 => .nanD
  | some x => let d := decodeElem f true raw; { d with q := if d.cls = .finite then d.q + (x : Int) - 127 else d.q }

/-- Decode of an FP32 encoding. -/
def f32 (w : W32) : Dec := decodeElem .fp32 false w.toNat

/-! ## Rounding -/

/-- Rounding mode of a conversion: nearest even, or stochastic with its 16-bit draw (R54). -/
inductive RMode where
  | nearest
  | stoch (r : Nat)
  deriving DecidableEq, Repr

/-- m / 2^k rounded (R36, R51, R54). -/
def roundShift (md : RMode) (m k : Nat) : Nat :=
  let fl := m >>> k
  let rem := m % 2 ^ k
  match md with
  | .nearest =>
    if 2 * rem > 2 ^ k ∨ (2 * rem = 2 ^ k ∧ fl % 2 = 1) then fl + 1 else fl
  | .stoch r => if (rem <<< 16) >>> k + r ≥ 65536 then fl + 1 else fl

/-- Magnitude code of m * 2^q rounded to a float format, past the largest finite code on overflow;
the code is (E - 1) * 2^f + significand, which serves subnormals and normals alike. -/
def roundCode (f : Fmt) (md : RMode) (m : Nat) (q : Int) : Nat :=
  if m = 0 then 0 else
  let e : Int := max ((Nat.log2 m : Int) + q) (1 - f.bias)
  let quantum : Int := e - f.frac
  let r := if quantum ≤ q then m <<< (q - quantum).toNat else roundShift md m (quantum - q).toNat
  (e + f.bias - 1).toNat * 2 ^ f.frac + r

/-- FP32 encoding from sign and magnitude code. -/
def f32OfCode (s : Bool) (c : Nat) : W32 := BitVec.ofNat 32 ((if s then 2 ^ 31 else 0) + min c 0x7F800000)

/-- (-1)^s * m * 2^q rounded once to FP32, nearest even (R36): infinity beyond the largest finite. -/
def roundF32 (s : Bool) (m : Nat) (q : Int) : W32 := f32OfCode s (roundCode .fp32 .nearest m q)

/-- The canonical NaN (R38). -/
def nan32 : W32 := 0x7FC00000#32
/-- An infinity. -/
def inf32 (s : Bool) : W32 := if s then 0xFF800000#32 else 0x7F800000#32
/-- A zero. -/
def zero32 (s : Bool) : W32 := if s then 0x80000000#32 else 0#32
/-- 1.0 -/
def one32 : W32 := 0x3F800000#32

/-- Signed integer of a finite value at exponent q0 (q0 at most its own exponent). -/
def Dec.at (d : Dec) (q0 : Int) : Int :=
  let v : Int := (d.m <<< (d.q - q0).toNat : Nat)
  if d.s then -v else v

/-- Exact sum of two finite or zero values as a signed integer with its exponent. -/
def exactSum (a b : Dec) : Int × Int :=
  let qa := if a.cls = .finite then a.q else b.q
  let qb := if b.cls = .finite then b.q else a.q
  let q0 := min qa qb
  ((if a.cls = .finite then a.at q0 else 0) + (if b.cls = .finite then b.at q0 else 0), q0)

/-- Sum of two decoded values rounded to FP32 (R40): -0 plus +0 is +0, opposing infinities give the
canonical NaN. -/
def addDec (a b : Dec) : W32 :=
  if a.cls = .nan ∨ b.cls = .nan then nan32
  else if a.cls = .inf then (if b.cls = .inf ∧ a.s ≠ b.s then nan32 else inf32 a.s)
  else if b.cls = .inf then inf32 b.s
  else if a.cls = .zero ∧ b.cls = .zero then zero32 (a.s && b.s)
  else
    let (v, q) := exactSum a b
    if v = 0 then zero32 false else roundF32 (v < 0) v.natAbs q

/-- FP32 addition, round to nearest even (R40). -/
def fadd (a b : W32) : W32 := addDec (f32 a) (f32 b)

/-- Sign flip of a decoded value. -/
def Dec.neg (d : Dec) : Dec := if d.cls = .nan then d else { d with s := !d.s }

/-- FP32 subtraction. -/
def fsub (a b : W32) : W32 := addDec (f32 a) (f32 b).neg

/-- Exact product of two decoded values. -/
def mulDec (a b : Dec) : Dec :=
  if a.cls = .nan ∨ b.cls = .nan then .nanD
  else if a.cls = .inf then (if b.cls = .zero then .nanD else ⟨.inf, a.s != b.s, 0, 0⟩)
  else if b.cls = .inf then (if a.cls = .zero then .nanD else ⟨.inf, a.s != b.s, 0, 0⟩)
  else if a.cls = .zero ∨ b.cls = .zero then .zeroD (a.s != b.s)
  else ⟨.finite, a.s != b.s, a.m * b.m, a.q + b.q⟩

/-- FP32 encoding of a decoded value, rounded once. -/
def Dec.toF32 (d : Dec) : W32 :=
  match d.cls with
  | .nan => nan32
  | .inf => inf32 d.s
  | .zero => zero32 d.s
  | .finite => roundF32 d.s d.m d.q

/-- FP32 multiplication (R87, R219). -/
def fmul (a b : W32) : W32 := (mulDec (f32 a) (f32 b)).toF32

/-- a * b + c with one rounding (R87, R219). -/
def ffma (a b c : W32) : W32 := addDec (mulDec (f32 a) (f32 b)) (f32 c)

/-- Whether an encoding is finite (zero included). -/
def isFinite32 (w : W32) : Bool := (f32 w).cls = .zero || (f32 w).cls = .finite
/-- Whether an encoding is a NaN. -/
def isNan32 (w : W32) : Bool := (f32 w).cls = .nan
/-- Whether an encoding is +0 or -0. -/
def isZero32 (w : W32) : Bool := (f32 w).cls = .zero

/-- Sign bit inverted; a NaN gives the canonical NaN (R87, R38). -/
def fneg (a : W32) : W32 := if isNan32 a then nan32 else a ^^^ 0x80000000#32
/-- Sign bit cleared (R87). -/
def fabs (a : W32) : W32 := if isNan32 a then nan32 else a &&& 0x7FFFFFFF#32
/-- copysign(a, b); a NaN b counts as positive (R87). -/
def fcopysign (a b : W32) : W32 :=
  if isNan32 a then nan32
  else if isNan32 b then a &&& 0x7FFFFFFF#32
  else (a &&& 0x7FFFFFFF#32) ||| (b &&& 0x80000000#32)

/-- Order of two non-NaN encodings with -0 below +0: a key that rises with the value (R88). -/
def ordKey (w : W32) : Int :=
  let c : Int := (w.toNat % 2 ^ 31 : Nat)
  if w.toNat ≥ 2 ^ 31 then -c - 1 else c

/-- minimum (R88). -/
def fmin (a b : W32) : W32 :=
  if isNan32 a || isNan32 b then nan32 else if ordKey a ≤ ordKey b then a else b
/-- maximum (R88). -/
def fmax (a b : W32) : W32 :=
  if isNan32 a || isNan32 b then nan32 else if ordKey b ≤ ordKey a then a else b

/-- IEEE equality: false for NaN, -0 equals +0. -/
def feq (a b : W32) : Bool := !isNan32 a && !isNan32 b && (a == b || (isZero32 a && isZero32 b))
/-- IEEE less-than. -/
def flt (a b : W32) : Bool := !isNan32 a && !isNan32 b && !(isZero32 a && isZero32 b) && ordKey a < ordKey b
/-- IEEE less-or-equal. -/
def fle (a b : W32) : Bool := feq a b || flt a b

/-- Integer square root by digits: fuel is half the number of bits. -/
def isqrtGo (n : Nat) : Nat → Nat → Nat
  | 0, r => r
  | k + 1, r => let c := r + 2 ^ k; isqrtGo n k (if c * c ≤ n then c else r)

/-- Floor of the square root. -/
def isqrt (n : Nat) : Nat := isqrtGo n (Nat.log2 n / 2 + 1) 0

/-- A truncated magnitude whose discarded rest is non-zero when sticky: one more bit carries the rest. -/
def roundSticky (s : Bool) (m : Nat) (sticky : Bool) (q : Int) : W32 :=
  roundF32 s (2 * m + if sticky then 1 else 0) (q - 1)

/-- FP32 division, correctly rounded (R219). -/
def fdiv (a b : W32) : W32 :=
  let x := f32 a; let y := f32 b
  if x.cls = .nan ∨ y.cls = .nan then nan32
  else if x.cls = .inf then (if y.cls = .inf then nan32 else inf32 (x.s != y.s))
  else if y.cls = .inf then zero32 (x.s != y.s)
  else if y.cls = .zero then (if x.cls = .zero then nan32 else inf32 (x.s != y.s))
  else if x.cls = .zero then zero32 (x.s != y.s)
  else
    let n := x.m <<< 64
    roundSticky (x.s != y.s) (n / y.m) (n % y.m ≠ 0) (x.q - y.q - 64)

/-- Reciprocal (R89). -/
def frecip (a : W32) : W32 := fdiv one32 a

/-- FP32 square root, correctly rounded (R89, R219). -/
def fsqrt (a : W32) : W32 :=
  let x := f32 a
  match x.cls with
  | .nan => nan32
  | .zero => zero32 x.s
  | .inf => if x.s then nan32 else inf32 false
  | .finite =>
    if x.s then nan32 else
    let odd := (x.q % 2 ≠ 0 : Bool)
    let n := x.m <<< (64 + if odd then 1 else 0)
    let q : Int := x.q - 64 - (if odd then 1 else 0)
    let r := isqrt n
    roundSticky false r (r * r ≠ n) (q / 2)

/-- FP32 reciprocal square root, correctly rounded (R89, R219). -/
def frsqrt (a : W32) : W32 :=
  let x := f32 a
  match x.cls with
  | .nan => nan32
  | .zero => inf32 x.s
  | .inf => if x.s then nan32 else zero32 false
  | .finite =>
    if x.s then nan32 else
    let odd := (x.q % 2 ≠ 0 : Bool)
    let m := x.m <<< (if odd then 1 else 0)
    let q : Int := x.q - (if odd then 1 else 0)
    let r := isqrt (2 ^ 160 / m)
    roundSticky false r (r * r * m ≠ 2 ^ 160) (-80 - q / 2)

/-! ## Transcendental functions (R89): fixed point with `fxBits` fraction bits, then one rounding -/

/-- Fraction bits of the fixed-point evaluation (DEDUCED, log entry 13). -/
def fxBits : Nat := 640

/-- Truncated product of fixed-point numbers. -/
def fxMul (a b : Int) : Int := (a * b) / (2 ^ fxBits : Nat)

/-- Sum of r^n / n! by its terms. -/
def expGo (r : Int) : Nat → Nat → Int → Int → Int
  | 0, _, _, acc => acc
  | k + 1, n, term, acc =>
    let t := fxMul term r / (n : Int)
    expGo r k (n + 1) t (acc + t)

/-- exp of a fixed-point number of magnitude below one. -/
def fxExpSmall (r : Int) : Int := expGo r 130 1 (2 ^ fxBits : Nat) (2 ^ fxBits : Nat)

/-- Sum of z^(2n+1) / (2n+1). -/
def atanhGo (z2 : Int) : Nat → Nat → Int → Int → Int
  | 0, _, _, acc => acc
  | k + 1, n, pw, acc =>
    let p := fxMul pw z2
    atanhGo z2 k (n + 2) p (acc + p / (n : Int))

/-- 2 atanh(num/den), for a quotient of at most one third. -/
def fxTwoAtanh (num den : Nat) : Int :=
  let z : Int := ((num <<< fxBits) / den : Nat)
  2 * atanhGo (fxMul z z) 210 3 z z

/-- ln 2 in fixed point. -/
def fxLn2 : Int := fxTwoAtanh 1 3

/-- A finite FP32 value in fixed point (exact: the smallest exponent is -149). -/
def fxOf (d : Dec) : Int := d.at (-(fxBits : Int))

/-- A positive or negative fixed-point result times 2^k, known to be inexact, rounded to FP32. -/
def fxRound (v : Int) (k : Int) : W32 := roundSticky (v < 0) v.natAbs true (k - fxBits)

/-- exp of a fixed-point number: fraction part and power of two. -/
def fxExp (x : Int) : Int × Int :=
  let k := x / fxLn2
  (fxExpSmall (x - k * fxLn2), k)

/-- exp (R89). -/
def fexp (a : W32) : W32 :=
  let x := f32 a
  match x.cls with
  | .nan => nan32
  | .zero => one32
  | .inf => if x.s then zero32 false else inf32 false
  | .finite =>
    if x.q + Nat.log2 x.m ≥ 9 then (if x.s then zero32 false else inf32 false)
    else let (v, k) := fxExp (fxOf x); fxRound v k

/-- exp2 (R89). -/
def fexp2 (a : W32) : W32 :=
  let x := f32 a
  match x.cls with
  | .nan => nan32
  | .zero => one32
  | .inf => if x.s then zero32 false else inf32 false
  | .finite =>
    if x.q + Nat.log2 x.m ≥ 9 then (if x.s then zero32 false else inf32 false)
    else
      let v := fxOf x
      let k := v / (2 ^ fxBits : Nat)
      let fr := v - k * (2 ^ fxBits : Nat)
      if fr = 0 then roundF32 false 1 k
      else fxRound (fxExpSmall (fxMul fr fxLn2)) k

/-- Natural logarithm of a positive finite value in fixed point, with the power of two taken out:
(ln of the significand in [1, 2), exponent). -/
def fxLog (x : Dec) : Int × Int :=
  let l := Nat.log2 x.m
  (fxTwoAtanh (x.m - 2 ^ l) (x.m + 2 ^ l), x.q + l)

/-- log (R89). -/
def flog (a : W32) : W32 :=
  let x := f32 a
  match x.cls with
  | .nan => nan32
  | .zero => inf32 true
  | .inf => if x.s then nan32 else inf32 false
  | .finite =>
    if x.s then nan32 else
    let (l, e) := fxLog x
    let v := l + e * fxLn2
    if v = 0 then zero32 false else fxRound v 0

/-- log2 (R89). -/
def flog2 (a : W32) : W32 :=
  let x := f32 a
  match x.cls with
  | .nan => nan32
  | .zero => inf32 true
  | .inf => if x.s then nan32 else inf32 false
  | .finite =>
    if x.s then nan32 else
    let (l, e) := fxLog x
    if l = 0 then (if e = 0 then zero32 false else roundF32 (e < 0) e.natAbs 0)
    else fxRound ((l * (2 ^ fxBits : Nat)) / fxLn2 + e * (2 ^ fxBits : Nat)) 0

/-- tanh (R89). -/
def ftanh (a : W32) : W32 :=
  let x := f32 a
  match x.cls with
  | .nan => nan32
  | .zero => zero32 x.s
  | .inf => if x.s then fneg one32 else one32
  | .finite =>
    if x.q + Nat.log2 x.m ≥ 6 then (if x.s then fneg one32 else one32)
    else
      let (v, k) := fxExp (2 * (fxOf { x with s := false }))
      let y : Int := v * (2 ^ k.toNat : Nat)
      let one : Int := (2 ^ fxBits : Nat)
      fxRound ((if x.s then -1 else 1) * (((y - one) * one) / (y + one))) 0

/-! ## The cell (R34 to R37) -/

/-- Window bound of the group sum: truncation of one product (R35). -/
def windowTerm (lsb : Int) (p : Dec) : Int :=
  let v : Int := if lsb ≤ p.q then (p.m <<< (p.q - lsb).toNat : Nat) else (p.m >>> (lsb - p.q).toNat : Nat)
  if p.s then -v else v

/-- The group result of element pairs, by the table Special values in a group and the pseudocode
The cell dot product (R35 to R37). -/
def cellDot (prs : List (Dec × Dec)) : W32 :=
  let ps := prs.map fun p => mulDec p.1 p.2
  if prs.any (fun p => p.1.cls = .nan || p.2.cls = .nan) then nan32
  else if ps.any (fun p => p.cls = .nan) then nan32
  else if ps.any (fun p => p.cls = .inf && p.s) && ps.any (fun p => p.cls = .inf && !p.s) then nan32
  else match ps.find? (fun p => p.cls = .inf) with
    | some p => inf32 p.s
    | none =>
      let nz := ps.filter fun p => p.cls = .finite && p.m ≠ 0
      match nz with
      | [] => zero32 false
      | p :: rest =>
        let lsb := rest.foldl (fun acc r => max acc r.q) p.q + 16 - 44
        let t := nz.foldl (fun acc r => acc + windowTerm lsb r) 0
        if t = 0 then zero32 false else roundF32 (t < 0) t.natAbs lsb

/-- Pieces of an element (R44), most significant first. -/
def pieces (f : Fmt) (d : Dec) : List Dec :=
  match f with
  | .fp16 => [{ d with m := d.m >>> 3, q := d.q + 3 }, { d with m := d.m % 8 }]
  | .fp32 => [{ d with m := d.m >>> 16, q := d.q + 16 }, { d with m := (d.m >>> 8) % 256, q := d.q + 8 },
              { d with m := d.m % 256 }]
  | _ => [d]

/-- Number of pieces of a format. -/
def nPieces : Fmt → Nat
  | .fp16 => 2 | .fp32 => 3 | _ => 1

/-- The pass order of a pair of formats (R45, R46). -/
def passOrder (fa fb : Fmt) (full : Bool) : List (Nat × Nat) :=
  let na := nPieces fa; let nb := nPieces fb
  (List.range (na + nb - 1)).flatMap fun sum =>
    (List.range na).filterMap fun i =>
      if i ≤ sum ∧ sum - i < nb ∧ (full ∨ sum ≤ max na nb - 1) then some (i, sum - i) else none

/-- The element pairs of pass (i, j): special elements take part in pass (0, 0) only (R47); a pair
with a special element is whole there and absent elsewhere. -/
def passPairs (fa fb : Fmt) (i j : Nat) (prs : List (Dec × Dec)) : List (Dec × Dec) :=
  prs.filterMap fun p =>
    if p.1.cls = .nan ∨ p.1.cls = .inf ∨ p.2.cls = .nan ∨ p.2.cls = .inf then
      if i = 0 ∧ j = 0 then some p else none
    else
      match (pieces fa p.1)[i]?, (pieces fb p.2)[j]? with
      | some a, some b => some (a, b)
      | _, _ => none

/-- An accumulator entry: one FP32 value, or a compensated (hi, lo) pair (R42). -/
structure AccE where
  hi : W32
  lo : W32
  deriving DecidableEq, Repr

/-- Addition of a group result into an entry (R40, R42). -/
def accAdd (comp : Bool) (e : AccE) (r : W32) : AccE :=
  let s := fadd e.hi r
  if comp then
    if isFinite32 s then
      let (v, q) := exactSum (f32 e.hi) (f32 r)
      let x := f32 s
      let q0 := if x.cls = .finite then min q x.q else q
      let d : Int := (if v < 0 then -1 else 1) * ((v.natAbs <<< (q - q0).toNat : Nat) : Int) -
        (if x.cls = .finite then x.at q0 else 0)
      let err := if d = 0 then zero32 false else roundF32 (d < 0) d.natAbs q0
      ⟨s, fadd e.lo err⟩
    else ⟨s, zero32 false⟩
  else ⟨s, e.lo⟩

/-- Value read out of a compensated pair (R43), in the internal form. -/
def readPair (e : AccE) : Dec :=
  let h := f32 e.hi; let l := f32 e.lo
  if h.cls = .nan ∨ h.cls = .inf then h
  else if l.cls = .nan ∨ l.cls = .inf then (addDec h l |> f32)
  else if h.cls = .zero ∧ l.cls = .zero then .zeroD (h.s && l.s)
  else
    let (v, q) := exactSum h l
    if v = 0 then .zeroD false else ⟨.finite, v < 0, v.natAbs, q⟩

/-- Rounding of a Gauss pre-sum to the significand of the operand format, unbounded exponent (R50). -/
def gaussSum (f : Fmt) (a b : Dec) : Dec :=
  if a.cls = .nan ∨ b.cls = .nan then .nanD
  else if a.cls = .inf then (if b.cls = .inf ∧ a.s ≠ b.s then .nanD else a)
  else if b.cls = .inf then b
  else if a.cls = .zero ∧ b.cls = .zero then .zeroD (a.s && b.s)
  else
    let (v, q) := exactSum a b
    if v = 0 then .zeroD false
    else
      let p := if f = .int8 then 8 else f.frac + 1
      let n := v.natAbs
      let b := Nat.log2 n + 1
      if b ≤ p then ⟨.finite, v < 0, n <<< (p - b), q - (p - b : Nat)⟩
      else
        let r := roundShift .nearest n (b - p)
        if r = 2 ^ p then ⟨.finite, v < 0, 2 ^ (p - 1), q + (b - p : Nat) + 1⟩
        else ⟨.finite, v < 0, r, q + (b - p : Nat)⟩

/-! ## Conversions out of FP32 (R51 to R54) -/

/-- Result of a conversion: the code and whether a NaN was lost. -/
structure Conv where
  code : Nat
  lost : Bool
  deriving DecidableEq, Repr

/-- Code with a sign bit. -/
def signCode (f : Fmt) (s : Bool) (c : Nat) : Nat := if s then c + 2 ^ (f.width - 1) else c

/-- Conversion of a value to an unscaled element (R51). -/
def convElem (f : Fmt) (md : RMode) (d : Dec) : Conv :=
  match f with
  | .int8 =>
    match d.cls with
    | .nan => ⟨0, true⟩
    | .inf => ⟨if d.s then 0x80 else 0x7F, false⟩
    | .zero => ⟨0, false⟩
    | .finite =>
      let n := if 0 ≤ d.q then d.m <<< d.q.toNat else roundShift md d.m (-d.q).toNat
      if d.s then ⟨(256 - min n 128) % 256, false⟩ else ⟨min n 127, false⟩
  | _ =>
    match d.cls with
    | .nan => ⟨f.nanCode, f = .e3m2 || f = .e2m3 || f = .e2m1⟩
    | .inf => ⟨signCode f d.s (if f.hasInf then f.maxFinite + 1 else f.maxFinite), false⟩
    | .zero => ⟨signCode f d.s 0, false⟩
    | .finite =>
      let c := roundCode f md d.m d.q
      ⟨signCode f d.s (if c ≤ f.maxFinite then c else if f.hasInf then f.maxFinite + 1 else f.maxFinite), false⟩

/-- Largest finite value of a scalable format as m * 2^q (MXINT8: 127 * 2^-6). -/
def Fmt.maxValue (f : Fmt) : Nat × Int :=
  match f with
  | .e4m3 => (7, 6) | .e5m2 => (7, 13) | .e3m2 => (7, 2) | .e2m3 => (15, -1) | .e2m1 => (3, 1)
  | .int8 => (127, -6) | _ => (1, 0)

/-- m * 2^q at most n * 2^k. -/
def leDyadic (m : Nat) (q : Int) (n : Nat) (k : Int) : Bool :=
  let q0 := min q k
  (m <<< (q - q0).toNat) ≤ (n <<< (k - q0).toNat)

/-- Search of the smallest X in -127 .. 127 whose range holds the magnitude (R52); 127 when none does. -/
def scaleGo (mv : Nat × Int) (m : Nat) (q : Int) : Nat → Int → Int
  | 0, x => x
  | k + 1, x => if leDyadic m q mv.1 (mv.2 + x) then x else scaleGo mv m q k (x + 1)

/-- The scale exponent of a block (R52): 0 for an all-zero block. -/
def blockScale (f : Fmt) (ds : List Dec) : Int :=
  let big := ds.foldl (fun acc d => if d.cls = .finite ∧ leDyadic acc.1 acc.2 d.m d.q then (d.m, d.q) else acc) ((0 : Nat), (0 : Int))
  if big.1 = 0 then 0 else scaleGo f.maxValue big.1 big.2 254 (-127)

/-- One element of a scaled block with exponent X (R52); MXINT8 elements are integers times 2^-6. -/
def convScaledElem (f : Fmt) (md : RMode) (x : Int) (d : Dec) : Nat :=
  match f with
  | .int8 =>
    let c := (convElem .int8 md { d with q := d.q - x + 6 }).code
    if c = 0x80 then 0x81 else c
  | _ => (convElem f md { d with q := d.q - x }).code

/-- A scaled block: scale code and element codes (R52, R53). -/
def convBlock (f : Fmt) (ds : List (Dec × RMode)) : Nat × List Nat :=
  if ds.any (fun d => d.1.cls = .nan || d.1.cls = .inf) then (255, ds.map fun _ => 0)
  else
    let x := blockScale f (ds.map (·.1))
    ((x + 127).toNat, ds.map fun d => convScaledElem f d.2 x d.1)

/-! ## Threefry-4x32-20 (R55) -/

/-- Rotation left of a 32-bit word. -/
def rotl32 (x : W32) (n : Nat) : W32 := x.rotateLeft n

/-- The state of the generator. -/
structure TF where
  x0 : W32
  x1 : W32
  x2 : W32
  x3 : W32
  deriving DecidableEq, Repr

/-- Rotation constants of round d mod 8. -/
def tfRot (d : Nat) : Nat × Nat :=
  match d % 8 with
  | 0 => (10, 26) | 1 => (11, 21) | 2 => (13, 27) | 3 => (23, 5)
  | 4 => (6, 20) | 5 => (17, 11) | 6 => (25, 10) | _ => (18, 20)

/-- One mixing round. -/
def tfRound (d : Nat) (s : TF) : TF :=
  let r := tfRot d
  if d % 2 = 0 then
    let a := s.x0 + s.x1; let c := s.x2 + s.x3
    ⟨a, rotl32 s.x1 r.1 ^^^ a, c, rotl32 s.x3 r.2 ^^^ c⟩
  else
    let a := s.x0 + s.x3; let c := s.x2 + s.x1
    ⟨a, rotl32 s.x1 r.2 ^^^ c, c, rotl32 s.x3 r.1 ^^^ a⟩

/-- Key word i of the schedule (i mod 5; the fifth is the parity word). -/
def tfKey (k : TF) (i : Nat) : W32 :=
  match i % 5 with
  | 0 => k.x0 | 1 => k.x1 | 2 => k.x2 | 3 => k.x3
  | _ => 0x1BD11BDA#32 ^^^ k.x0 ^^^ k.x1 ^^^ k.x2 ^^^ k.x3

/-- Injection of subkey i. -/
def tfInject (k : TF) (i : Nat) (s : TF) : TF :=
  ⟨s.x0 + tfKey k i, s.x1 + tfKey k (i + 1), s.x2 + tfKey k (i + 2), s.x3 + tfKey k (i + 3) + BitVec.ofNat 32 i⟩

/-- Threefry-4x32 with 20 rounds. -/
def threefry (k c : TF) : TF :=
  (List.range 20).foldl (fun s d => let t := tfRound d s
    if d % 4 = 3 then tfInject k ((d + 1) / 4) t else t) (tfInject k 0 c)

/-- Four little-endian words of a 128-bit value. -/
def tfOf (v : Nat) : TF :=
  ⟨BitVec.ofNat 32 v, BitVec.ofNat 32 (v >>> 32), BitVec.ofNat 32 (v >>> 64), BitVec.ofNat 32 (v >>> 96)⟩

/-- The 16-bit draw for logical index i (R55): key, counter base, counter offset. -/
def draw16 (key base off i : Nat) : Nat :=
  let o := threefry (tfOf key) (tfOf ((base + off) % 2 ^ 64 + 2 ^ 64 * ((i / 8) % 2 ^ 64)))
  let w := match (i % 8) / 2 with
    | 0 => o.x0 | 1 => o.x1 | 2 => o.x2 | _ => o.x3
  if i % 2 = 0 then w.toNat % 65536 else w.toNat / 65536

/-! ## Reductions (R90) -/

/-- One level of the pairwise tree. -/
def pairUp (f : W32 → W32 → W32) : List W32 → List W32
  | a :: b :: rest => f a b :: pairUp f rest
  | l => l

/-- The pairwise tree over 2^n values in n levels. -/
def treeFold (f : W32 → W32 → W32) : Nat → List W32 → W32
  | 0, l => l.headD 0#32
  | n + 1, l => treeFold f n (pairUp f l)

end Sys2Proof.Machine
end

