-- ==== Sys2Proof/Machine/Cmd.lean ====
section
/-!
DEFINITION. Stream commands: the common header, the bodies of the opcode map and their decoding from
128-bit words (06_pen_command_streams.md).
-/
namespace Sys2Proof.Machine

/-- A deadline or watch wait: signed offset in ticks, and whether it counts from the watch (R202). -/
structure Deadline where
  off  : Int
  rel  : Bool
  deriving DecidableEq, Repr

/-- PRODUCT (tables PRODUCT, word 0 and extension words). -/
structure Product where
  afmt : Nat
  bfmt : Nat
  ascl : Bool
  bscl : Bool
  full : Bool
  cplx : Nat
  comp : Bool
  src  : Nat
  dir  : Dir
  sr   : Nat
  atr  : Bool
  acc  : Nat
  acci : Nat
  st   : Nat
  mslab : Nat
  mask : Nat
  n    : Nat
  kc   : Nat
  ct   : Nat
  cn   : Nat
  abase : Nat
  astep : Nat
  ak   : Nat
  bbase : Nat
  bstep : Nat
  bi   : Nat
  asoff : Nat
  bsoff : Nat
  deriving DecidableEq, Repr

/-- VOP (tables VOP, word 0 and extension words). -/
structure Vop where
  op    : Nat
  akind : Nat
  bkind : Nat
  ckind : Nat
  sfmt  : Nat
  sscl  : Bool
  scomp : Bool
  dkind : Nat
  dfmt  : Nat
  dscl  : Nat
  sr    : Bool
  pop   : Bool
  race  : Nat
  sorient : Bool
  count : Nat
  aaddr : Nat
  baddr : Nat
  caddr : Nat
  daddr : Nat
  ssoff : Nat
  imm0  : W32
  imm1  : W32
  ctr   : Nat
  ibase : Nat
  itile : Nat
  irow  : Nat
  deriving DecidableEq, Repr

/-- MOVE. -/
structure Move where
  rows : Nat
  rowb : Nat
  src  : Nat
  dst  : Nat
  sstr : Nat
  dstr : Nat
  deriving DecidableEq, Repr

/-- FEED. -/
structure Feed where
  fmt  : Nat
  scl  : Bool
  dir  : Dir
  stream : Nat
  tr   : Bool
  fp4p : Bool
  cplx : Bool
  n    : Nat
  c0   : Nat
  c1   : Nat
  base : Nat
  s0   : Nat
  s1   : Nat
  s2   : Nat
  deriving DecidableEq, Repr

/-- LOT. -/
structure Lot where
  stream : Nat
  g    : Nat
  h    : Nat
  push : Bool
  race : Nat
  p    : Nat
  px   : Nat
  last : Bool
  deriving DecidableEq, Repr

/-- LAND. -/
structure Land where
  stream : Nat
  h0   : Nat
  c    : Nat
  race : Nat
  deriving DecidableEq, Repr

/-- SHEAR; `imms` are I0 to I7. -/
structure Shear where
  link : Bool
  rule : Nat
  snap : Bool
  layer : Nat
  rows : Nat
  cols : Nat
  count : Nat
  state : Nat
  grad : Nat
  plan : Nat
  factor : Nat
  imms : List W32
  deriving DecidableEq, Repr

/-- COLLECT. -/
structure Collect where
  op   : Nat
  plan : Nat
  buf  : Nat
  bytes : Nat
  deriving DecidableEq, Repr

/-- What a queued command does, by the opcode map. -/
inductive Body where
  | mbsel (slot : Nat)
  | step
  | tallyAdd (tally inc : Nat)
  | tallySet (tally value : Nat)
  | tallyWait (tally thr : Nat) (dl : Option Deadline)
  | muster (group mode : Nat) (dl : Option Deadline)
  | watchWait (dl : Deadline)
  | racePush (race handle : Nat)
  | racePop (race : Nat)
  | handleSet (index entry : Nat)
  | clear (first count stride : Nat)
  | release (first count stride : Nat)
  | product (p : Product)
  | vop (v : Vop)
  | move (m : Move)
  | feed (f : Feed)
  | lot (l : Lot)
  | land (l : Land)
  | shear (s : Shear)
  | collect (c : Collect)
  deriving DecidableEq, Repr

/-- A queued command with its header, its stream address and its length in words. -/
structure Cmd where
  addr  : Nat
  words : Nat
  rel   : Bool
  done  : Nat
  inc   : Nat
  drain : Bool
  body  : Body
  deriving DecidableEq, Repr

/-- What the fetch unit makes of one command word with its extension words (R162, R173). -/
inductive Fetched where
  | nop (words : Nat)
  | stop
  | jump (target : Nat)
  | call (target : Nat)
  | ret
  | queued (q : Queue) (c : Cmd)
  | bad
  deriving DecidableEq, Repr

/-- Extension words of an opcode: the smallest and largest value (table Opcode map). -/
def extRange (op : Nat) : Option (Nat × Nat) :=
  if op = 0x00 then some (0, 3)
  else if op ∈ [0x01, 0x02, 0x03, 0x04, 0x05, 0x06, 0x10, 0x11, 0x18, 0x19, 0x1A, 0x20, 0x21, 0x65, 0x66] then some (0, 0)
  else if op ∈ [0x12, 0x13] then some (0, 1)
  else if op ∈ [0x14, 0x71] then some (1, 1)
  else if op ∈ [0x40, 0x60, 0x64] then some (2, 2)
  else if op ∈ [0x50, 0x70] then some (3, 3)
  else none

/-- Words of a command: the word itself and its extension words, by its ext field. -/
def cmdWords (w : Nat) : Nat := 1 + bits w 9 8

/-- The queue bit. -/
def cmdQueue (w : Nat) : Queue := if bit w 10 then .bwd else .fwd

/-- A signed number of n bits. -/
def sext (n v : Nat) : Int := if v % 2 ^ n < 2 ^ (n - 1) then (v % 2 ^ n : Nat) else (v % 2 ^ n : Nat) - (2 ^ n : Nat)

/-- Deadline of an extension word. -/
def decDeadline (w : Nat) : Deadline := ⟨sext 64 (bits w 63 0), bit w 64⟩

/-- PRODUCT from its three words. -/
def decProduct (a b c : Nat) : Product where
  afmt := bits a 35 32
  bfmt := bits a 39 36
  ascl := bit a 40
  bscl := bit a 41
  full := bit a 42
  cplx := bits a 44 43
  comp := bit a 45
  src := bits a 47 46
  dir := if bit a 48 then .widdershins else .sunwise
  sr := bits a 52 49
  atr := bit a 53
  acc := bits a 63 55
  acci := bits a 72 64
  st := bits a 78 73
  mslab := bits a 84 79
  mask := bits a 127 96
  n := bits b 23 0
  kc := bits b 39 24
  ct := bits b 48 40
  cn := bits b 57 49
  abase := bits b 80 58
  astep := bits b 103 81
  ak := bits b 126 104
  bbase := bits c 22 0
  bstep := bits c 45 23
  bi := bits c 68 46
  asoff := bits c 92 69
  bsoff := bits c 116 93

/-- VOP from its four words. -/
def decVop (a b c d : Nat) : Vop where
  op := bits a 37 32
  akind := bits a 39 38
  bkind := bits a 41 40
  ckind := bits a 43 42
  sfmt := bits a 47 44
  sscl := bit a 48
  scomp := bit a 49
  dkind := bits a 50 50
  dfmt := bits a 54 51
  dscl := bits a 56 55
  sr := bit a 57
  pop := bit a 58
  race := bits a 61 59
  sorient := bit a 62
  count := bits a 71 64
  aaddr := bits b 22 0
  baddr := bits b 45 23
  caddr := bits b 68 46
  daddr := bits b 91 69
  ssoff := bits b 115 92
  imm0 := BitVec.ofNat 32 (bits c 31 0)
  imm1 := BitVec.ofNat 32 (bits c 63 32)
  ctr := bits c 127 64
  ibase := bits d 47 0
  itile := bits d 87 48
  irow := bits d 119 88

/-- SHEAR from its four words. -/
def decShear (a b c d : Nat) : Shear where
  link := bit a 32
  rule := bits a 36 33
  snap := bit a 37
  layer := bits a 53 38
  rows := bits a 69 54
  cols := bits a 85 70
  count := bits a 117 86
  state := bits b 37 0 * 256
  grad := bits b 75 38 * 256
  plan := bits b 45 38
  factor := bits b 113 76 * 256
  imms := [BitVec.ofNat 32 (bits c 31 0), BitVec.ofNat 32 (bits c 63 32), BitVec.ofNat 32 (bits c 95 64),
    BitVec.ofNat 32 (bits c 127 96), BitVec.ofNat 32 (bits d 31 0), BitVec.ofNat 32 (bits d 63 32),
    BitVec.ofNat 32 (bits d 95 64), BitVec.ofNat 32 (bits d 127 96)]

/-- Body of a queued command and its drain bit (the field tables of 06). A deadline word is used when the
dl bit is set and the word is there. -/
def decBody (op a b c d ext : Nat) : Option (Body × Bool) :=
  let dl : Bool → Option Deadline := fun on => if on ∧ ext = 1 then some (decDeadline b) else none
  if op = 0x05 then some (.mbsel (bits a 35 32), false)
  else if op = 0x06 then some (.step, false)
  else if op = 0x10 then some (.tallyAdd (bits a 48 32) (bits a 95 64), bit a 49)
  else if op = 0x11 then some (.tallySet (bits a 48 32) (bits a 95 64), bit a 49)
  else if op = 0x12 then some (.tallyWait (bits a 48 32) (bits a 95 64) (dl (bit a 50)), bit a 49)
  else if op = 0x13 then some (.muster (bits a 37 32) (bits a 39 38) (dl (bit a 40)), bit a 41)
  else if op = 0x14 then some (.watchWait (decDeadline b), false)
  else if op = 0x18 then some (.racePush (bits a 34 32) (bits a 95 64), bit a 35)
  else if op = 0x19 then some (.racePop (bits a 34 32), bit a 35)
  else if op = 0x1A then some (.handleSet (bits a 43 32) (bits a 127 64), bit a 44)
  else if op = 0x20 then some (.clear (bits a 40 32) (bits a 50 41) (bits a 59 51), false)
  else if op = 0x21 then some (.release (bits a 40 32) (bits a 50 41) (bits a 59 51), false)
  else if op = 0x40 then some (.product (decProduct a b c), false)
  else if op = 0x50 then some (.vop (decVop a b c d), false)
  else if op = 0x60 then some (.move ⟨bits a 47 32, bits a 67 48, bits b 45 0, bits b 91 46, bits c 39 0, bits c 79 40⟩, false)
  else if op = 0x64 then
    some (.feed ⟨bits a 35 32, bit a 36, if bit a 37 then .widdershins else .sunwise, bits a 41 38, bit a 42,
      bit a 43, bit a 44, bits a 68 45, bits a 84 69, bits a 100 85, bits b 45 0, bits b 86 46, bits b 127 87,
      bits c 40 0⟩, false)
  else if op = 0x65 then
    some (.lot ⟨bits a 35 32, bits a 59 36, bits a 71 60, bit a 72, bits a 75 73, bits a 83 76, bits a 91 84, bit a 92⟩, false)
  else if op = 0x66 then some (.land ⟨bits a 35 32, bits a 47 36, bits a 54 48, bits a 57 55⟩, false)
  else if op = 0x70 then some (.shear (decShear a b c d), false)
  else if op = 0x71 then some (.collect ⟨bits a 35 32, bits a 43 36, bits b 45 0, bits b 77 46⟩, false)
  else none

/-- Word i of a command, as a number. -/
def wordAt (ws : List W128) (i : Nat) : Nat := (ws.getD i 0#128).toNat

/-- Decoding of the command whose words begin the list and stand at `addr` (R162, R173). -/
def fetchOne (addr : Nat) (ws : List W128) : Fetched :=
  let a := wordAt ws 0
  let op := bits a 7 0
  let ext := bits a 9 8
  match extRange op with
  | none => .bad
  | some (lo, hi) =>
    if ext < lo ∨ hi < ext then .bad
    else if op = 0x00 then .nop (1 + ext)
    else if op = 0x01 then .stop
    else if op = 0x02 then .jump (bits a 77 32)
    else if op = 0x03 then .call (bits a 77 32)
    else if op = 0x04 then .ret
    else match decBody op a (wordAt ws 1) (wordAt ws 2) (wordAt ws 3) ext with
      | none => .bad
      | some (body, drain) =>
        .queued (cmdQueue a) ⟨addr, 1 + ext, bit a 11, bits a 28 12, bits a 31 29, drain, body⟩

/-- Engine of a body (06, Queues, engines and completion). -/
def Body.engine : Body → Engine
  | .product _ | .clear .. | .release .. => .array
  | .vop _ => .vector
  | .move _ => .mover
  | .feed _ | .lot _ | .land _ => .node
  | .mbsel _ | .step | .tallyAdd .. | .tallySet .. | .tallyWait .. | .muster .. | .watchWait _ | .racePush ..
  | .racePop _ | .handleSet .. | .shear _ | .collect _ => .sync

/-- Slots of an engine in each queue (R167). -/
def engineSlots : Engine → Nat
  | .array | .vector | .sync => 1
  | .mover | .node => 4

end Sys2Proof.Machine
end

