-- ==== Sys2Proof/Machine/PenState.lean ====
section
/-!
DEFINITION. State of a site: pen, sequencer, drove node, paddock (03 to 06). Sparse stores are lists of
(key, value) pairs with rising keys and no entry equal to the default (Machine/Mem.lean).
-/
namespace Sys2Proof.Machine

/-- Bytes by address: rising addresses, no entry equal to 0, which is what an unlisted address reads as
(R157; log entry 8). -/
abbrev Memory := List Host.Cell

/-- A sparse store of values by number. -/
abbrev Sparse (α : Type) := List (Nat × α)

/-- A ring tile with its tag (table Drove tag), side band and poisoned words; `home` (the pen a lot
comes from, or that ended a lot stream) and `lastPart` are the node's knowledge of R103 and R114, not tag
bits (log entry 16): `home` is a fold pen index, 63 for weight tiles. A poison entry is 2 * word + origin,
origin 1 for a word that came poisoned from LPDDR5X (R148, R189). -/
structure RingTile where
  fold   : Nat
  drive  : Nat
  stream : Nat
  kind   : Nat
  fmt    : Nat
  scaled : Bool
  seq    : Nat
  lot    : Nat
  part   : Nat
  elems  : List Byte
  scales : List Byte
  poison : List Nat
  home   : Nat
  lastPart : Bool
  deriving DecidableEq, Repr

/-- A holding register: its ring tiles, and whether the last use has entered the array (R104). -/
structure Held where
  ring : List RingTile
  used : Bool
  deriving DecidableEq, Repr

/-- Where a stream stands at a node: next sequence number expected, and the last lot landed or injected. -/
structure StreamPos where
  drive  : Nat
  stream : Nat
  next   : Nat
  lot    : Option Nat
  deriving DecidableEq, Repr

/-- One direction of a drove node (R95 to R106). -/
structure NodeDir where
  /-- ring tiles on the hop towards this node, oldest first -/
  hop    : List RingTile
  /-- input queue -/
  queue  : List RingTile
  /-- holding registers, at most two -/
  held   : List Held
  /-- positions of the streams passing -/
  pos    : List StreamPos
  /-- stream served last (R96) -/
  served : Nat
  /-- resends of the oldest tile on the hop, and whether one has been asked for (R98) -/
  resends : Nat
  asked  : Bool
  deriving DecidableEq, Repr

/-- A node direction with nothing in it; its first turn among the streams begins at stream 0 (DESIGN CHOICE, log
entry 20). -/
def NodeDir.empty : NodeDir := ⟨[], [], [], [], 15, 0, false⟩

/-- A drove node: its two directions, the entry queue of the entry pen (R102, R247) and the
resends counted (R98). -/
structure Node where
  sun    : NodeDir
  wid    : NodeDir
  entry  : List (Dir × RingTile)
  resendCount : Nat
  deriving DecidableEq, Repr

/-- State of a command in an engine slot. -/
inductive Phase where
  | waiting | running | finished
  deriving DecidableEq, Repr

/-- Where a FEED from LPDDR5X stands (R247): the next byte of its records whose feed flit is to be sent, and the first byte
that has not reached the entry pen, each as record, offset within it and number of the flit that begins there; numbers of
the later flits that have arrived. -/
structure Intake where
  sent : Nat × Nat × Nat
  due  : Nat × Nat × Nat
  got  : List Nat
  deriving DecidableEq, Repr

/-- Nothing sent. -/
def Intake.empty : Intake := ⟨(0, 0, 0), (0, 0, 0), []⟩

/-- A command in a slot of an engine: queue, engine, slot number, issue number, microbatch slot at issue,
phase, progress (item and stationary index, or tiles or lots done), first lot index of R183, watch value of
a deadline or watch wait and whether it holds a comparator, watch count at which a comparator was refused or last
asked for again (R203), parts still to send, next sequence number of a FEED's tiles, what the reads of its transfer
find. -/
structure Active where
  q     : Queue
  e     : Engine
  k     : Nat
  id    : Nat
  cmd   : Cmd
  slot  : Nat
  phase : Phase
  i     : Nat
  t     : Nat
  lot0  : Option Nat
  want  : Option Nat
  joined : Bool
  asked : Nat
  parts : List RingTile
  seq   : Nat
  errs  : List (Nat × Ecc)
  feed  : Intake
  deriving DecidableEq, Repr

/-- A pen's sequencer (R159 to R179): address of the next word to decode, words fetched beyond it, end of
the region it runs in, return stack, END reached, STEP fetched per queue, queues, slots, current microbatch
slots, issue numbers, last PRODUCT of each drove stream. -/
structure Seqr where
  pc     : Nat
  fetched : List W128
  limit  : Nat
  stack  : List Nat
  ended  : Bool
  stepF  : Bool
  stepB  : Bool
  fwd    : List Cmd
  bwd    : List Cmd
  act    : List Active
  microF : Nat
  microB : Nat
  nextId : Nat
  /-- stream address of the last PRODUCT that named a drove stream (R182), key: 16 * direction + stream -/
  named  : Sparse Nat
  deriving DecidableEq, Repr

/-- An empty sequencer. -/
def Seqr.empty : Seqr := ⟨0, [], 0, [], true, false, false, [], [], [], 0, 0, 0, []⟩

/-- A ramp under way: its direction (R74); `turn` is a ramp-up whose ramp-down is granted already and begins when it
ends. -/
inductive Ramp where
  | up | down | turn
  deriving DecidableEq, Repr

/-- What a pre-emption saves beside the accumulator tiles: the sequencer, races and microbatch state and
the node contents (R82, R120; log entry 17), live tiles with their owners. -/
structure Saved where
  seqr  : Seqr
  races : List (List W32)
  node  : Node
  live  : List Nat
  owner : Sparse Queue
  deriving DecidableEq, Repr

/-- A physical site. -/
structure Site where
  /-- SITE_STATE -/
  state   : Nat
  logical : Nat
  fold    : Nat
  /-- the hops into and out of the site run over the return lanes (R126, R127) -/
  detour  : Bool
  /-- SITE_CHECK -/
  window  : Nat
  limit   : Nat
  /-- SITE_MISMATCH, SITE_LOST_NAN -/
  mismatch : Nat
  lostNan : Nat
  /-- ticks (`Watch.age`) of mismatches for the sliding window, failures of the tile step that is due again, in a row (R70),
  and the issue number of its PRODUCT (R68) -/
  history : List Nat
  inRow   : Nat
  replay  : Option Nat
  /-- paddock contents, poisoned words, those of them that came poisoned from LPDDR5X (R189), clearing flag
  (R130, R147, R158) -/
  pad     : Memory
  poison  : List Nat
  poisonMem : List Nat
  clearing : Bool
  /-- byte ranges (start, end) that hold what the spec lays out no further, with the draw that their bytes are free values
  of (R82; log entry 17) -/
  veil    : List (Nat × Nat × Nat)
  /-- PAD_CE, PAD_UE, PAD_UE_ADDR -/
  padCE   : Nat
  padUE   : Nat
  ueValid : Bool
  ueKind  : Nat
  ueWord  : Nat
  /-- scrubber's next line of each bank (R150) -/
  scrub   : Sparse Nat
  /-- accumulator tiles that differ from all +0 (2,048 entries each), live tiles, owners (R61, R62, R119) -/
  acc     : Sparse (List W32)
  live    : List Nat
  owner   : Sparse Queue
  /-- spare rows used per accumulator bank and of the tally store; rows spared in the field; copies under
  way; correctable errors per row (R152 to R156); key of a row: structure * 2^20 + bank * 2^12 + row -/
  accSpared : Sparse Nat
  accField  : Nat
  tallySpared : Nat
  copying : List Nat
  spared  : List Nat
  rowErrs : Sparse Nat
  /-- rows that hold a word found uncorrectable, which reads as poison until it is written again (R155) -/
  badRows : List Nat
  /-- pen tallies (R197), handle table, races -/
  tally   : Sparse W32
  handle  : Sparse W64
  races   : List (List W32)
  /-- musters of drive slot s and group g (key s * 64 + g) at which the pen has arrived and that have not
  released (R201) -/
  arrived : List Nat
  seqr    : Seqr
  node    : Node
  /-- activity level, ramp under way, stop causes, whether the pen stands stopped at a boundary -/
  level   : Nat
  ramp    : Option Ramp
  stops   : List StopCause
  /-- what a pre-emption saved, per drive slot (R82) -/
  saved   : Sparse Saved
  /-- ARB_SITE_RD, ARB_SITE_WR -/
  arbRd   : Nat
  arbWr   : Nat
  deriving DecidableEq, Repr

/-- An empty node. -/
def Node.empty : Node := ⟨.empty, .empty, [], 0⟩

/-- A site right after reset. -/
def Site.reset : Site where
  state := 4
  logical := 0x3F
  fold := 0
  detour := false
  window := 97656
  limit := 4
  mismatch := 0
  lostNan := 0
  history := []
  inRow := 0
  replay := none
  pad := []
  poison := []
  poisonMem := []
  clearing := false
  veil := []
  padCE := 0
  padUE := 0
  ueValid := false
  ueKind := 0
  ueWord := 0
  scrub := []
  acc := []
  live := []
  owner := []
  accSpared := []
  accField := 0
  tallySpared := 0
  copying := []
  spared := []
  rowErrs := []
  badRows := []
  tally := []
  handle := []
  races := List.replicate 8 []
  arrived := []
  seqr := .empty
  node := .empty
  level := 0
  ramp := none
  stops := []
  saved := []
  arbRd := 0x20204080
  arbWr := 0x20404040

end Sys2Proof.Machine
end

