-- ==== Sys2Proof/Machine/HostState.lean ====
section
/-!
DEFINITION. State of the host side: rings, descriptors, drives and their steps (12, 13), folds (01, 17),
shears requests (07).
-/
namespace Sys2Proof.Machine

/-- A submission or completion ring (tables RING_BASE_LO to DB_CQ): `pos` is the SQ's head or the CQ's tail
as a position, `host` the tail or head last accepted from the host, `reserved` the CQ's reserved entries, `held` the
doorbells written while the owner's fold is being cleared, oldest first (R22). -/
structure Ring where
  baseLo : Nat
  baseHi : Nat
  owner  : Nat
  size   : Nat
  link   : Nat
  state  : Nat
  cause  : Nat
  pos    : Nat
  host   : Nat
  arm    : Bool
  reserved : Nat
  held   : List Nat
  deriving DecidableEq, Repr

/-- A ring right after reset. -/
def Ring.reset : Ring := ⟨0, 0, 8, 6, 0, 0, 0, 0, 0, false, 0, []⟩

/-- A descriptor in progress: its ring and entry, its 64 bytes, the order of its fetch, whether it has
started, the watch when it started (R414). -/
structure Desc where
  sq    : Nat
  idx   : Nat
  bytes : List Byte
  order : Nat
  started : Bool
  start : Nat
  deriving DecidableEq, Repr

/-- What a read of host memory is for: the fetch of an SQ's entry, a DMA of an SQ's entry, batch DMA k of a drive slot of a
fold, or, at the bellwether, a read of a member under the member's tag (R350, R402, R425). -/
inductive Job where
  | fetch (sq : Nat)
  | ring (sq idx : Nat)
  | batch (fold slot k : Nat)
  | member (rank tag : Nat)
  deriving DecidableEq, Repr

/-- A read of host memory: its source (0 PF0, f + 1 the VF of fold f, 16 + r tunnelled rank r), what it is for, the offset of
its bytes in that, host address and length. -/
structure HostReq where
  src  : Nat
  job  : Job
  off  : Nat
  addr : Nat
  len  : Nat
  deriving DecidableEq, Repr

/-- The reads of the host port (R402): those outstanding by tag, none for one whose data nothing awaits any more with its
source; those that wait, oldest first; the source served last; per DMA under way the bytes not returned and the bytes landed;
the Max Read Request Size. -/
structure HostPort where
  tags    : List (Nat × Nat × Option HostReq)
  waiting : List HostReq
  turn    : Nat
  moves   : List (Job × Nat × Nat)
  maxRead : Nat
  deriving DecidableEq, Repr

/-- No read outstanding; requests of at most 512 bytes (PRESUMED, log entry 128). -/
def HostPort.reset : HostPort := ⟨[], [], 0, [], 512⟩

/-- The fields of a DMA descriptor (table DMA, bytes 8 to 63). -/
structure DmaD where
  host   : Nat
  loc    : Nat
  len    : Nat
  tally  : Nat
  inc    : Nat
  toHost : Bool
  wt     : Bool
  wtally : Nat
  wthr   : Nat
  deriving DecidableEq, Repr

/-- One hosted leaf's part of a step: its step-block entry, batch digest and annotation (R352, R418); the
original record of a replay (R387). -/
structure LeafStep where
  leaf   : Nat
  sample : Nat
  key    : Nat
  ctr    : Nat
  digest : List Byte
  note   : List Byte
  original : Option (List Byte)
  deriving DecidableEq, Repr

/-- A SHEAR accepted during a step, for the schedule digest (R354): layer, control byte, immediates. -/
structure ShearNote where
  layer : Nat
  ctl   : Nat
  imms  : List W32
  deriving DecidableEq, Repr

/-- A step of a drive, prepared or open: `desc` the STEP descriptor that named it (none for the step of a
LAUNCH). -/
structure StepRec where
  number : Nat
  leaves : List LeafStep
  starts : Option (List Nat)
  restore : Bool
  snap   : Bool
  exp    : Bool
  shears : List ShearNote
  desc   : Option (Nat × Nat)
  deriving DecidableEq, Repr

/-- Why a drive stands stopped (R208, R420): source 0 command status, 1 ring status. -/
structure StopRec where
  source : Nat
  status : Nat
  pen    : Nat
  addr   : Nat
  watch  : Nat
  deriving DecidableEq, Repr

/-- A resident drive: launch block fields (table Launch block), streams (start and restore entry per pen),
watch base, stop, end, steps, last step opened or prepared, last step closed, chains (record digest per hosted
leaf), positions in the studbook region and the host area, usage. -/
structure Drive where
  first  : Nat
  pbase  : Nat
  psize  : Nat
  tfirst : Nat
  tcount : Nat
  gfirst : Nat
  gcount : Nat
  hfirst : Nat
  hcount : Nat
  pstride : Nat
  tstride : Nat
  snap   : Nat
  sbase  : Nat
  ssize  : Nat
  hbase  : Nat
  hsize  : Nat
  xbase  : Nat
  xsize  : Nat
  digest : List Byte
  pens   : Nat
  unlogged : Bool
  streams : List (Nat × Nat)
  watchBase : Nat
  /-- watch count at which a pre-emption stopped the drive (R205) -/
  paused : Option Nat
  stopped : Option StopRec
  ended  : Bool
  opened : Option StepRec
  prepared : Option StepRec
  last   : Nat
  closed : Option Nat
  /-- last step closed before a recovery abort: steps up to it are replayed (R387) -/
  high   : Option Nat
  chain  : List (Nat × List Byte)
  /-- the chains after each step closed, from before the first one on: what a rollback returns to (R381, R384) -/
  past   : List (Nat × List (Nat × List Byte))
  sbPos  : Nat
  hbPos  : Nat
  usage  : Nat
  /-- batch DMAs not yet ended: number (step * 2^21 + place in the step's lists) and fields -/
  dmas   : List (Nat × DmaD)
  /-- commits held: step k, whether k + 2 is a snapshot and an export step (R361, R364); due points passed and
  not yet served, snapshot trigger fired (R362, for a drive that takes its commits from its own device) -/
  commits : List (Nat × Bool × Bool)
  snapDue : Bool
  expDue : Bool
  trig   : Bool
  /-- the open step was abandoned without a completion (R156, R387) -/
  abandoned : Bool
  /-- pages of the persistent extent that SHEARs with their snap bit wrote, with the step (R370) -/
  written : List (Nat × Nat)
  deriving DecidableEq, Repr

/-- A muster group at the hub: pens that have arrived in the current round (R201). -/
abbrev Muster := List Nat

/-- Symbolic keys (14): the model keeps which key a key is, not its bits (log entry 18). -/
inductive Key where
  | none
  /-- n-th key drawn from the DRBG -/
  | drawn (n : Nat)
  /-- the cote key of fold f of F under cote generation g and epoch e (R446, R447) -/
  | cote (g F f e : Nat)
  deriving DecidableEq, Repr

/-- A fold (R15, R24; 17 fold block): state 0 absent, 1 clearing, 2 ready by FOLD_ARC.state; drives by slot; running slot; memory key; cote epoch; fault record; shears counters; commit;
musters; open drove streams;
handover under way. -/
structure Fold where
  state  : Nat
  drives : Sparse Drive
  running : Option Nat
  /-- slot of the drive whose state the pens hold; slot of the drive that a RUN is switching to (R82, R421) -/
  occ    : Option Nat
  incoming : Option Nat
  key    : Key
  epoch  : Nat
  fValid : Bool
  fSource : Nat
  fSlot  : Nat
  fPen   : Nat
  fStatus : Nat
  fAddr  : Nat
  fWatch : Nat
  fbCount : Nat
  fbValid : Bool
  fbFactor : Nat
  fbLayer : Nat
  damp   : Nat
  commit : Nat
  musters : Sparse Muster
  /-- open drove streams: drive slot, direction, stream (R96) -/
  streams : List (Nat × Dir × Nat)
  handover : Bool
  deriving DecidableEq, Repr

/-- A fold right after reset. -/
def Fold.reset : Fold where
  state := 0
  drives := []
  running := none
  occ := none
  incoming := none
  key := .none
  epoch := 0
  fValid := false
  fSource := 0
  fSlot := 0
  fPen := 0
  fStatus := 0
  fAddr := 0
  fWatch := 0
  fbCount := 0
  fbValid := false
  fbFactor := 0
  fbLayer := 0
  damp := 0
  commit := 0
  musters := []
  streams := []
  handover := false

/-- An accepted SHEAR (R217, R218): its drive, the leaf that issues it (R222, R369), the pen, queue and stream address of the
command, done tally and increment, the command, snapshot offset when the second write applies (R233), generator key and counter
base of the step (R215), step number, blocks written (class 1: by number under the plan). -/
structure ShearReq where
  fold : Nat
  slot : Nat
  leaf : Nat
  pen  : Nat
  q    : Queue
  addr : Nat
  done : Nat
  inc  : Nat
  cmd  : Shear
  snap : Option Nat
  key  : Nat
  ctr  : Nat
  step : Nat
  blocks : List Nat
  deriving DecidableEq, Repr

end Sys2Proof.Machine
end

