-- ==== Sys2Proof/Machine/NetState.lean ====
section
/-!
DEFINITION. State of the rings and arbiters (08), the memory quarters (10), the shears' queues (07), the
links, the flock and the collective engine (11), recovery and the cote (12).
-/
namespace Sys2Proof.Machine

/-! ## Rings and arbiters (08) -/

/-- An arbiter (R249 to R253): 16 tickets, generator, zero-ticket requester granted last, requester and beats of the burst
that holds the grant, none when idle. -/
structure Arbiter where
  tickets : List Nat
  gen     : W32
  last    : Nat
  holder  : Option (Nat × Nat)
  deriving DecidableEq, Repr

/-- Reset tickets of the table Shared-port requesters. -/
def resetTickets : List Nat := [32, 32, 32, 32, 32, 32, 32, 32, 64, 64, 16, 8, 16, 0, 0, 0]

/-- Arbiter a after a module reset (R251); its first turn without tickets starts at requester 0 (log entry 20). -/
def Arbiter.reset (a : Nat) : Arbiter := ⟨resetTickets, BitVec.ofNat 32 (0x5EED0000 + a + 1), 15, none⟩

/-- A flit of a ring, from the time it is issued until it takes effect: source and destination stop (position and port),
lane, whether it has been injected, fortieths of a cycle for which it has waited for that, the stop that has marked it
(R242, R243), and the transfer or the place in its stream that it belongs to. -/
structure Flight (α : Type) where
  flit   : α
  src    : Nat × Nat
  dst    : Nat × Nat
  lane   : Nat
  on     : Bool
  waited : Nat
  mark   : Option Nat
  part   : Nat
  deriving DecidableEq, Repr

/-- What a bulk ring carries between pens: writes and read orders (R244). -/
inductive RingFlit where
  | write (f : BulkFlit)
  | order (o : ReadOrder)
  deriving DecidableEq, Repr

/-- A transfer over the bulk rings (R142): the MOVE it carries out, as site, drive slot and issue number, while its drive
is resident; arrival tally and increment; lines and orders to come; whether a CUT has ended it. -/
structure Xfer where
  fold  : Nat
  owner : Option (Nat × Nat × Nat)
  tally : Nat
  inc   : Nat
  left  : Nat
  cut   : Bool
  deriving DecidableEq, Repr

/-- The on-die rings: flits of the control ring, of the bulk rings and of the gate ring's memory feed, oldest first;
transfers under way by number, and the next number; ramp requests waiting at the ramp arbiter in order, cycles of the grants in its window, staggered pens of a
muster release that have yet to begin, with the arbiter cycle of each, and the cycle before which no ramp is granted
(R79); shared arbiters; bank arbiters
that have drawn (their tickets are the site's); ARB_HOLD, ARB_CUT, ARB_CUT_COUNT; event fragments at the crook (R245). -/
structure Fabric where
  ctl      : List (Flight CtlFlit)
  bulk     : List (Flight RingFlit)
  feed     : List (Flight FeedFlit)
  xfers    : Sparse Xfer
  nextXfer : Nat
  rampReq  : List (Nat × Bool)
  rampLog  : List Nat
  stagger  : List (Nat × Nat)
  holdTo   : Nat
  arbs     : List Arbiter
  banks    : Sparse Arbiter
  hold     : Nat
  cutValid : Bool
  cutArb   : Nat
  cutReq   : Nat
  cutBeats : Nat
  cutCount : Nat
  frags    : List (Nat × Nat)
  setup    : Option (Bool × Bool × Nat)
  deriving DecidableEq, Repr

/-- The rings right after a module reset. -/
def Fabric.reset : Fabric where
  ctl := []
  bulk := []
  feed := []
  xfers := []
  nextXfer := 1
  rampReq := []
  rampLog := []
  stagger := []
  holdTo := 0
  arbs := (List.range 18).map Arbiter.reset
  banks := []
  hold := 0x40
  cutValid := false
  cutArb := 0
  cutReq := 0
  cutBeats := 0
  cutCount := 0
  frags := []
  setup := none

/-! ## Memory quarters (10) -/

/-- A memory quarter: MEM_CE, MEM_UE, MEM_UE_LO, MEM_UE_HI; cached check lines, by chunk, and whether each is dirty (R295);
whether the MR4 of each of its two packages asks for the hot rate, and the tick (`Watch.age`) of the last MEM_HOT (R306); self
refresh and the tick of the last request (R308). -/
structure Quarter where
  ce      : Nat
  ue      : Nat
  ueValid : Bool
  ueKind  : Nat
  ueHalf  : Bool
  ueAddr  : Nat
  cache   : List (Nat × Bool)
  hot     : Bool × Bool
  lastHot : Option Nat
  selfRef : Bool
  used    : Nat
  deriving DecidableEq, Repr

/-- A quarter after a module reset (R311; log entry 9). -/
def Quarter.reset : Quarter := ⟨0, 0, false, 0, false, 0, [], (false, false), none, false, 0⟩

/-- LPDDR5X: bytes written, by device data address (contents under the key of `lineKey`); key under which
each line was written; poisoned halves (2 * line + half); per channel patrol position and power-down; quarters;
MEM_CFG, MEM_STATUS, MEM_SCRUB. -/
structure Mem where
  bytes   : Memory
  lineKey : Sparse Key
  poison  : List Nat
  patrol  : List Nat
  down    : List Bool
  quarters : List Quarter
  forceLow : Bool
  idleSr  : Bool
  state   : Nat
  low     : Bool
  badCh   : Nat
  scrub   : Nat
  deriving DecidableEq, Repr

/-- LPDDR5X after a module reset: contents are not kept (R309). -/
def Mem.reset : Mem where
  bytes := []
  lineKey := []
  poison := []
  patrol := List.replicate 32 0
  down := List.replicate 32 false
  quarters := List.replicate 4 .reset
  forceLow := false
  idleSr := false
  state := 0
  low := false
  badCh := 0x3F
  scrub := 0x80010000

/-! ## Shears (07) -/

/-- The queues of the four memory shears and of the link shears (R218). -/
structure Shears where
  mem  : List (List ShearReq)
  link : List ShearReq
  deriving DecidableEq, Repr

/-- Empty shears. -/
def Shears.reset : Shears := ⟨List.replicate 4 [], []⟩

/-! ## Collective engine (11) -/

/-- A plan entry (table Plan entry). -/
structure PlanE where
  op    : Nat
  fmt   : Nat
  shears : Bool
  foster : Bool
  group : Option Nat
  root  : Nat
  size  : Nat
  out   : Nat
  tally : Nat
  inc   : Nat
  deriving DecidableEq, Repr

/-- An accepted COLLECT (R340): its drive, the pen, queue and stream address of the command, done tally,
plan number, buffer. -/
structure Coll where
  fold : Nat
  slot : Nat
  pen  : Nat
  q    : Queue
  addr : Nat
  done : Nat
  inc  : Nat
  plan : Nat
  op   : Nat
  buf  : Nat
  bytes : Nat
  deriving DecidableEq, Repr

/-- A partial of a canonical-tree node for one shard (R334, R335): lo, n, offset of its data in the leaf
buffer, data. -/
structure Partial where
  lo   : Nat
  n    : Nat
  off  : Nat
  data : List Byte
  deriving DecidableEq, Repr

/-- A plan run in a VC3 slot: the COLLECT, partials held, shards (or the broadcast) still to be written here,
bytes of each own shard reduced so far, blocks handed to the link shears and waiting for a request, by number
on this device, the shards counted already (0 for a broadcast), and the credits withheld, by port and pool (R224). -/
structure RunC where
  coll     : Coll
  partials : List Partial
  due      : Nat
  got      : Sparse Nat
  blocks   : List (Nat × List Byte)
  counted  : List Nat
  held     : List (Nat × Nat × Nat)
  deriving DecidableEq, Repr

/-- A multicast group's entry on this device (R341, R342): ingress port (6 at the source), egress ports, local
delivery, source rank, member mask. -/
structure GroupE where
  ingress : Nat
  egress  : List Nat
  deliver  : Bool
  src     : Nat
  mask    : Nat
  deriving DecidableEq, Repr

/-- Laggard state of a group (R344): plan, and the packet at which local delivery held the stream back, on the port it came
by, with its stream offset; whether the member has detached and when, whether it has asked for the missing range. -/
structure Lag where
  group : Nat
  plan  : Nat
  off   : Nat
  k     : Nat
  held  : Packet
  det   : Bool
  since : Nat
  asked : Bool
  deriving DecidableEq, Repr

/-- The collective engine: plans, runs of each plan that have ended here, accepted COLLECTs, the four slots, groups' entries
on this device, groups live on the bellwether with their members, and the groups that members' plans name there, by rank and
plan (R424); laggards. -/
structure CollEng where
  plans  : Sparse PlanE
  ended  : Sparse Nat
  queue  : List Coll
  slots  : Sparse RunC
  groups : Sparse GroupE
  live   : Sparse (List Nat)
  named  : List (Nat × Nat × Nat)
  lags   : List Lag
  deriving DecidableEq, Repr

/-- An empty collective engine. -/
def CollEng.reset : CollEng := ⟨[], [], [], [], [], [], [], []⟩

/-! ## Links and the flock (11) -/

/-- What a frame of kind 1 or 2 carries: the i-th frame of a packet, or a link control slot (R314). -/
inductive TxFrame where
  | packet (p : Packet) (i : Nat)
  | control (c : CtlSlot)
  deriving DecidableEq, Repr

/-- A link port (R312 to R323). -/
structure Link where
  state   : Nat
  miswired : Bool
  peerRank : Nat
  peerPort : Nat
  keyed   : Bool
  lanes   : Nat
  retrains : Nat
  enable  : Bool
  fecCE   : Nat
  replays : Nat
  fecUE   : Nat
  authFail : Nat
  /-- next seq to send; the replay buffer, oldest first; next seq expected, frames accepted since the last
  acknowledgement; replay requests naming the same seq in a row -/
  nextSeq : Nat
  sent    : List (Nat × TxFrame)
  expect  : Nat
  taken   : Nat
  lastReq : Option Nat
  reqRow  : Nat
  /-- a replay is asked for and the frame it names has not arrived (R316) -/
  asked   : Bool
  /-- credits held of the 13 pools (R318) -/
  credits : List Nat
  /-- key epoch, packet counter, send key -/
  epoch   : Nat
  ctr     : Nat
  /-- what the peer's last control slot said: flags, watch -/
  peerFlags : Nat
  peerWatch : Nat
  /-- slots of received packets per pool, to be returned as credits (R318) -/
  owed    : List Nat
  /-- tick (`Watch.age`) of the last frame decoded, and that when the link was taken down to retrain (R317, R319) -/
  heard   : Nat
  since   : Nat
  /-- packets that wait for credits or for the link, oldest first (R318, R327) -/
  waiting : List Packet
  deriving DecidableEq, Repr

/-- Credits of the table Credit pools. -/
def poolCredits : List Nat := [64, 256, 256, 256, 256, 512, 512, 512, 512, 512, 512, 512, 512]

/-- A port after a module reset. -/
def Link.reset : Link where
  state := 0
  miswired := false
  peerRank := 0
  peerPort := 0
  keyed := false
  lanes := 0
  retrains := 0
  enable := true
  fecCE := 0
  replays := 0
  fecUE := 0
  authFail := 0
  nextSeq := 0
  sent := []
  expect := 0
  taken := 0
  lastReq := none
  reqRow := 0
  asked := false
  credits := poolCredits
  epoch := 0
  ctr := 0
  peerFlags := 0
  peerWatch := 0
  owed := List.replicate 13 0
  heard := 0
  since := 0
  waiting := []

/-- A routing table entry (table ROUTE). -/
structure Route where
  valid : Bool
  prim  : Nat
  alt   : Nat
  deriving DecidableEq, Repr

/-- A tunnelled read outstanding, with the tick (`Watch.age`) when it left; what it is to answer, where that waits for the reads
of its rank before it (R347 to R349). -/
structure TunRead where
  tag  : Nat
  rank : Nat
  off  : Nat
  width : Nat
  since : Nat
  ready : Option (List Byte)
  deriving DecidableEq, Repr

/-- The flock as this device knows it (R324 to R351), and on the bellwether what it has collected: members
refused or admitted with their fold counts, reports and heartbeats; tunnelled reads outstanding. -/
structure Flock where
  cfg     : Nat
  standbyLo : Nat
  standbyHi : Nat
  state   : Nat
  rank    : Nat
  isBell  : Bool
  standby : Bool
  leafCount : Nat
  firstLeaf : Nat
  reason  : Nat
  members : Nat
  laggard : Nat
  groupsLive : Nat
  routes  : Sparse Route
  folds   : Sparse Nat
  /-- active ranks in order with their first leaf and leaf count -/
  leaves  : List (Nat × Nat × Nat)
  foster  : Option Nat
  /-- the rank whose foster this device is (R367) -/
  ward    : Option Nat
  heard   : Sparse Nat
  tunnels : List TunRead
  nextTag : Nat
  /-- ranks that have failed, ranks whose heartbeat still arrives are not in it -/
  failed  : List Nat
  silent  : List Nat
  bellIde : Bool
  /-- this device has been zeroised, or has declared itself failed, since it last joined (R318, R379) -/
  zeroised : Bool
  declared : Bool
  /-- links reported failed, by rank and port (R326); tick (`Watch.age`) when forming began (R330) -/
  badLinks : List (Nat × Nat)
  since   : Nat
  deriving DecidableEq, Repr

/-- The flock after a module reset with rank r. -/
def Flock.reset (r : Nat) : Flock where
  cfg := 0x10 * 64
  standbyLo := 0
  standbyHi := 0
  state := 0
  rank := r
  isBell := false
  standby := false
  leafCount := 0
  firstLeaf := 0
  reason := 0
  members := 0
  laggard := 0x1900
  groupsLive := 0
  routes := []
  folds := []
  leaves := []
  foster := none
  ward := none
  heard := []
  tunnels := []
  nextTag := 0
  failed := []
  silent := []
  bellIde := false
  zeroised := false
  declared := false
  badLinks := []
  since := 0

/-! ## Recovery and the cote (12) -/

/-- The ward's copy of a foster (R371): ward rank, extent base and size, committed step, its leaves, record
digests, whether seeded; pages received in the current foster step (page numbers), its step, and the foster
end once held. -/
structure Ward where
  rank   : Nat
  base   : Nat
  size   : Nat
  step   : Option Nat
  leaves : List Nat
  digests : List (List Byte)
  current : List Nat
  pages  : List Nat
  endStep : Option (Nat × Nat × List (List Byte))
  fostering : Bool
  deriving DecidableEq, Repr

/-- Recovery state and registers (R359 to R394). -/
structure Recov where
  cfg     : Nat
  state   : Nat
  layer   : Nat
  restarts : Nat
  fosterOk : Bool
  exportReady : Bool
  lost    : Nat
  signRefused : Bool
  snapRefused : Bool
  commit  : Nat
  commits : List (Nat × Bool × Bool)
  imageValid : Bool
  imageStep : Nat
  fosterRegion : Nat
  signLo  : Nat
  signHi  : Nat
  snapLo  : Nat
  snapHi  : Nat
  /-- snapshot trigger fired, or a due point passed, and waiting to be marked (R362); export likewise -/
  snapDue : Bool
  expDue  : Bool
  /-- the snapshot comparator has fired (R362); the record digests a foster sent for a load (R380) -/
  trig    : Bool
  heads   : List (Nat × List Byte)
  /-- drains or exports reading the snapshot region, per fold -/
  draining : List Nat
  exporting : List Nat
  k0      : Nat
  /-- DONE messages held: rank, step, reading; ranks being awaited -/
  dones   : List (Nat × Nat × Bool)
  /-- repeated failures: (leaf, step, status) -/
  seen    : List (Nat × Nat × Nat)
  dirty   : List Nat
  seeding : Bool
  ward    : Option Ward
  /-- pages still to be loaded; the part of a load's header that has arrived; what the foster header of the load said: extent base and size, leaves
  (R383); on the bellwether: ranks whose loads are awaited, wards without a committed copy; a pending handover;
  drives whose seal is due (fold, slot) -/
  loading : List Nat
  hdrPart : List Byte
  hdr     : Option (Nat × Nat × List Nat)
  awaited : List Nat
  noCopy  : List Nat
  handover : Option Nat
  sealDue : List (Nat × Nat)
  fosterSent : List Nat
  /-- step of the last foster end sent -/
  fosterEnded : Option Nat
  /-- the ward's packets of a later step, by port, that wait for the COMMIT of the step whose end is held (R371) -/
  waitPages : List (Nat × Packet)
  /-- a signing point fell due during recovery (R388) -/
  signLate : Bool
  deriving DecidableEq, Repr

/-- Recovery state after a module reset. -/
def Recov.reset : Recov where
  cfg := 0x400 * 2 ^ 20 + 0x040 * 256 + 1
  state := 0
  layer := 0
  restarts := 0
  fosterOk := false
  exportReady := false
  lost := 0x3F
  signRefused := false
  snapRefused := false
  commit := 0
  commits := []
  imageValid := false
  imageStep := 0
  fosterRegion := 0
  signLo := 0
  signHi := 0
  snapLo := 0
  snapHi := 0
  snapDue := false
  expDue := false
  trig := false
  heads := []
  draining := []
  exporting := []
  k0 := 0
  dones := []
  seen := []
  dirty := []
  seeding := false
  ward := none
  loading := []
  hdrPart := []
  hdr := none
  awaited := []
  noCopy := []
  handover := none
  sealDue := []
  fosterSent := []
  fosterEnded := none
  waitPages := []
  signLate := false

/-- A cote image (R375) of a fold: key, step, rank, leaves, extent, digest, record digests, contents; valid
once its header is written. -/
structure CoteImage where
  key    : Key
  step   : Nat
  rank   : Nat
  first  : Nat
  count  : Nat
  base   : Nat
  size   : Nat
  digest : List Byte
  records : List (List Byte)
  bytes  : Memory
  deriving DecidableEq, Repr

/-- The cote (R375 to R378, R447): per fold the two image slots and the slot being written with its
progress in 4 KiB units the address it reads and its image so far; journal entries with the key under which each was written, oldest first; appends waiting. -/
structure Cote where
  slots   : Sparse CoteImage
  drain   : Sparse (Nat × Nat × Nat × CoteImage)
  journal : List (Key × List Byte)
  waiting : List (Nat × List Byte)
  deriving DecidableEq, Repr

/-- An empty cote. -/
def Cote.reset : Cote := ⟨[], [], [], []⟩

end Sys2Proof.Machine
end

