-- ==== Sys2Proof/Machine/Lanes.lean ====
section
/-!
DEFINITION. Ring geometry and lanes (08): stations, directions, stiles and gate stops, and what every lane of every ring
does with its flits: injection against credits, arrival in order, the mark of a stop that has waited (R240 to R243, R246 to
R248, R257).
-/
namespace Sys2Proof.Machine

/-! ## Stations and stops -/

/-- Station of a site (R240). -/
def stationOf (n : Nat) : Nat := if n ≤ 20 then n else if n = 41 then 0 else n - 1
/-- Hops between stations (R240). -/
def hops (a b : Nat) : Nat := let x := if a ≤ b then b - a else a - b; min x (40 - x)
/-- Port of a site at its station: 1 for the higher-numbered of two sites that share it (R245). -/
def dportOf (n : Nat) : Nat := if n = 21 ∨ n = 41 then 1 else 0
/-- Stop of a site on the bulk and control rings. -/
def stopOf (n : Nat) : Nat × Nat := (stationOf n, dportOf n)
/-- The hub's stop on the control ring (R245). -/
def hubStop : Nat × Nat := (0, 2)
/-- Whether flits from station a to station b go sunwise: the shorter direction, sunwise on a tie (R241, R246). -/
def sunward (a b : Nat) : Bool := decide ((b + 40 - a) % 40 ≤ 20)
/-- Whether a flit from a to b passes station x on its way. -/
def onWay (sun : Bool) (a b x : Nat) : Bool :=
  let k (y : Nat) : Nat := if sun then (y + 40 - a) % 40 else (a + 40 - y) % 40
  decide (0 < k x) && decide (k x < k b)

/-- Positions of the seventeen stops of the gate ring, G00 to G16 (R246). -/
def gateStops : List Nat := [0, 0, 2, 5, 5, 8, 12, 15, 15, 18, 25, 25, 28, 32, 35, 35, 38]
/-- Gate ring stop of stile k (R246). -/
def stileGate (k : Nat) : Nat := [3, 7, 10, 14].getD k 0
/-- Gate ring stop of memory quarter q (R246). -/
def quarterGate (q : Nat) : Nat := [4, 8, 11, 15].getD q 0
/-- Position of a gate ring stop. -/
def gateAt (g : Nat) : Nat := gateStops.getD g 0
/-- Station of stile k, and position of the memory quarter beside it (R246, R248). -/
def stileAt (k : Nat) : Nat := gateAt (stileGate k)
/-- The stile by which a gate stop reaches a site: the nearest, the lower-numbered on a tie (R248). -/
def stileOf (n : Nat) : Nat :=
  [1, 2, 3].foldl (fun b k => if hops (stileAt k) (stationOf n) < hops (stileAt b) (stationOf n) then k else b) 0

/-- Lane of a control flit: its direction (R245). -/
def ctlLane (src dst : Nat × Nat) : Nat := if sunward src.1 dst.1 then 0 else 1
/-- Lane of a bulk flit for an address: its ring by bits [7:6], and its direction (R241). -/
def bulkLane (src dst : Nat × Nat) (a : Nat) : Nat := 2 * (a / 64 % 4) + (if sunward src.1 dst.1 then 0 else 1)
/-- Whether a gate flit from one stop to another goes sunwise: the shorter way, sunwise on a tie; between two stops of one
position toward the higher stop number (R246). -/
def gateSunward (a b : Nat) : Bool := if gateAt a = gateAt b then decide (a < b) else sunward (gateAt a) (gateAt b)
/-- Lane of a gate flit between two stops, by bit [8] of its target address (R246). -/
def gateLane (a b x : Nat) : Nat := 2 * (x / 256 % 2) + (if gateSunward a b then 0 else 1)
/-- The gate flits of an access: its bytes within each aligned block of 256 (R246). -/
def gateBlocks (a n : Nat) : List (Nat × Nat) :=
  (List.range ((a % 256 + n + 255) / 256)).map fun i =>
    let b := a / 256 * 256 + 256 * i
    (max a b, min (a + n) (b + 256) - max a b)
/-- What a stile makes of a gate flit: bulk flits of 64 bytes, one on each ring (R248). -/
def stileSplit (b : Nat × Nat) : List (Nat × Nat) :=
  (List.range ((b.1 % 64 + b.2 + 63) / 64)).map fun i =>
    let l := b.1 / 64 * 64 + 64 * i
    (max b.1 l, min (b.1 + b.2) (l + 64) - max b.1 l)
/-- Lane of feed flit k of a stream: the two lanes of its direction in turn (R246, R247). -/
def feedLane (src dst : Nat × Nat) (k : Nat) : Nat := 2 * (k % 2) + (if sunward src.1 dst.1 then 0 else 1)

/-! ## Credits (R242, R266)

The ejection buffer of a stop is the crossing queue of the table Crossing queues through which its flits leave the ring
(DEDUCED, log entry 125). -/

/-- Entries toward a site or a stile from a bulk ring. -/
def bulkRoom (dst : Nat × Nat) : Nat := if dst.2 = 1 then 16 else 8
/-- Entries toward a site or the hub from the control ring. -/
def ctlRoom (_ : Nat × Nat) : Nat := 4
/-- Entries toward a feed drop from the gate ring. -/
def feedRoom (_ : Nat × Nat) : Nat := 16

/-! ## Lanes -/

/-- Stop of a place, in which the two sites of a station are one. -/
def stopKey (p : Nat × Nat) : Nat × Bool := (p.1, p.2 = 2)
/-- Whether two flits go from one stop to one stop on one lane (R257). -/
def Flight.same {α : Type} (x y : Flight α) : Bool :=
  decide (stopKey x.src = stopKey y.src) && decide (stopKey x.dst = stopKey y.dst) && decide (x.lane = y.lane)

/-- Injection of the waiting flits that `may` names, first come first served at their stop and lane: each with a credit of
its destination's ejection buffer (R242). -/
def injectGo {α : Type} (room : Nat × Nat → Nat) (may : Flight α → Bool) : List (Flight α) → List (Flight α) → List (Flight α)
  | done, [] => done
  | done, x :: r =>
    let used := ((done ++ r).filter fun y => y.on && decide (y.dst = x.dst) && decide (y.lane = x.lane)).length
    let behind := done.any fun y => !y.on && decide (stopKey y.src = stopKey x.src) && decide (y.lane = x.lane)
    injectGo room may (done ++ [if !x.on && may x && !behind && decide (used < room x.dst) then { x with on := true } else x]) r
/-- Injection of every flit that holds a credit. -/
def injectAll {α : Type} (room : Nat × Nat → Nat) (l : List (Flight α)) : List (Flight α) := injectGo room (fun _ => true) [] l

/-- The first flit that p names and that may arrive: it has been injected, and none before it goes the same way (R257);
with the flits that stay. -/
def arriveGo {α : Type} (p : α → Bool) : List (Flight α) → List (Flight α) → Option (Flight α × List (Flight α))
  | _, [] => none
  | done, x :: r => if p x.flit && x.on && !done.any x.same then some (x, done ++ r) else arriveGo p (done ++ [x]) r

/-- The flits that stay, once one has arrived: its slot, if a stop has marked it, is that stop's (R243); then every flit with
a credit is injected. -/
def refill {α : Type} (room : Nat × Nat → Nat) (x : Flight α) (l : List (Flight α)) : List (Flight α) :=
  injectAll room (match x.mark with
    | some s => injectGo room (fun y => decide (y.src.1 = s) && decide (y.lane = x.lane)) [] l
    | none => l)

/-- A stop marks the next flit that passes it on a lane (R243). -/
def markGo {α : Type} (s lane : Nat) : List (Flight α) → List (Flight α)
  | [] => []
  | y :: r =>
    if y.on && y.lane = lane && y.mark.isNone && onWay (lane % 2 = 0) y.src.1 y.dst.1 s then { y with mark := some s } :: r
    else y :: markGo s lane r

/-- A tick on a ring: the waiting flits wait on, and a stop that has waited 32 of its cycles marks a flit, one at a time
(R243). `rate` is the fortieths of a cycle that the heft of a stop counts in a tick. -/
def waitTick {α : Type} (rate : Nat → Nat) (l : List (Flight α)) : List (Flight α) :=
  let l := l.map fun x => if x.on then x else { x with waited := x.waited + rate x.src.1 }
  (l.filter fun x => !x.on && decide (1280 ≤ x.waited)).foldl (fun l x =>
    if l.any fun y => decide (y.mark = some x.src.1) && decide (y.lane = x.lane) then l else markGo x.src.1 x.lane l) l

end Sys2Proof.Machine
end

