-- ==== Sys2Proof/Machine/Mem.lean ====
section
/-!
DEFINITION. Sparse stores in their one canonical form (rising keys, no entry equal to the default), and
memories of bytes over them: little-endian words, ranges.
-/
namespace Sys2Proof.Machine

/-! ## Sparse stores -/

/-- Value at a key; `d` is what an unlisted key reads as. -/
def sget {α : Type} (d : α) : Sparse α → Nat → α
  | [], _ => d
  | (j, w) :: r, k => if k = j then w else sget d r k

/-- Listing of an entry at a key. -/
def sput {α : Type} : Sparse α → Nat → α → Sparse α
  | [], k, v => [(k, v)]
  | (j, w) :: r, k, v =>
    if k < j then (k, v) :: (j, w) :: r
    else if k = j then (k, v) :: r
    else (j, w) :: sput r k v

/-- Removal of the entry at a key. -/
def sdel {α : Type} (m : Sparse α) (k : Nat) : Sparse α := m.filter fun e => e.1 ≠ k

/-- Store of a value at a key, in canonical form: the default is not listed. -/
def sset {α : Type} [DecidableEq α] (d : α) (m : Sparse α) (k : Nat) (v : α) : Sparse α :=
  if v = d then sdel m k else sput m k v

/-- Whether keys rise from above `lo` and no entry is the default. -/
def sokFrom {α : Type} [DecidableEq α] (d : α) : Nat → Sparse α → Bool
  | _, [] => true
  | lo, (j, w) :: r => decide (lo ≤ j) && !decide (w = d) && sokFrom d (j + 1) r

/-- The canonical form. -/
def sok {α : Type} [DecidableEq α] (d : α) (m : Sparse α) : Bool := sokFrom d 0 m

/-- The entry at a key, if listed. -/
def slook {α : Type} : Sparse α → Nat → Option α
  | [], _ => none
  | (j, w) :: r, k => if k = j then some w else slook r k

/-! ## Sets of numbers: rising lists -/

/-- Insertion into a rising list. -/
def nins : List Nat → Nat → List Nat
  | [], k => [k]
  | j :: r, k => if k < j then k :: j :: r else if k = j then j :: r else j :: nins r k

/-- Removal. -/
def ndel (m : List Nat) (k : Nat) : List Nat := m.filter (· ≠ k)

/-! ## Memories -/

/-- The byte at an address: 0 where nothing is listed (R157; log entry 8). -/
def Memory.read (m : Memory) (a : Nat) : Byte := sget 0#8 m a

/-- One byte written. -/
def Memory.write (m : Memory) (a : Nat) (b : Byte) : Memory := sset 0#8 m a b

/-- The canonical form of a memory. -/
abbrev Memory.wf (m : Memory) : Bool := sok 0#8 m

/-- n bytes from an address: only the cells of the range are looked at. -/
def Memory.bytes (m : Memory) (a n : Nat) : List Byte :=
  let r := m.filter fun c => decide (a ≤ c.1) && decide (c.1 < a + n)
  (List.range n).map fun i => sget 0#8 r (a + i)

/-- Cells of bytes from an address up: none for a byte of 0. -/
def cellsOf : Nat → List Byte → Memory
  | _, [] => []
  | a, b :: bs => if b = 0#8 then cellsOf (a + 1) bs else (a, b) :: cellsOf (a + 1) bs

/-- Bytes written from an address up, in place of the cells of their range. -/
def Memory.store (m : Memory) (a : Nat) (bs : List Byte) : Memory :=
  (m.filter fun c => decide (c.1 < a)) ++ cellsOf a bs ++ m.filter fun c => decide (a + bs.length ≤ c.1)

/-- Little-endian word of n bytes. -/
def Memory.word (m : Memory) (a n : Nat) : Nat := leNat (m.bytes a n)

/-- Removal of a range of bytes: it reads as zero afterwards. -/
def Memory.erase (m : Memory) (a n : Nat) : Memory := m.filter fun c => c.1 < a ∨ a + n ≤ c.1

end Sys2Proof.Machine
end

