-- ==== Sys2Proof/Config.lean ====
section
/-!
DEFINITION. What one module fixes (log entries 1 and 2) and the free values of the model: opaque
constants with no body, so that no proof can see a value the spec does not state.
-/
namespace Sys2Proof

/-- IDREV.grade of the module modelled: 0 = WB40 (DESIGN CHOICE, log entry 1). -/
def Config.grade : Nat := 0
/-- IDREV.memory of the module modelled: 1 = L512 (DESIGN CHOICE, log entry 1). -/
def Config.memory : Nat := 1
/-- IDREV.minor of the module modelled (DESIGN CHOICE, log entry 1). -/
def Config.minor : Nat := 1
/-- Serial fuse of the module modelled (DESIGN CHOICE, log entry 1). -/
def Config.serial : Nat := 0

/-- Whether the board wires link port k: all six (DESIGN CHOICE, log entry 1). -/
def Config.wired (k : Nat) : Bool := decide (k < 6)

/-- Byte read from an LPDDR5X line that has not been written under the current key (R299), by key
serial number and device data address: FREE VALUE, log entry 11. -/
opaque Config.noise (key addr : Nat) : Byte

/-- Bytes the crook's DRBG or a signature, certificate or protocol body supplies (R442, R440, R365):
n-th draw, byte i. FREE VALUE, log entry 11. -/
opaque Config.random (draw i : Nat) : Byte

/-- Whether a signature, certificate or key check over given bytes passes (R433, R441, R471): the
cryptographic predicate itself, by a number naming the check. FREE VALUE, log entry 15. -/
opaque Config.verify (check : Nat) (key : List Byte) (msg : List Byte) (sig : List Byte) : Bool

/-- Byte of what a pre-emption saves in the last 1 MiB of a save area, whose layout R82 does not give: n-th draw, byte i.
FREE VALUE, log entry 17. -/
opaque Config.savedByte (draw i : Nat) : Byte

/-- Contents of a DMA's local range after its host read failed (R425), per draw and byte. FREE VALUE,
log entry 11. -/
opaque Config.undefinedByte (draw i : Nat) : Byte

/-- VCORE that a heft of a half needs at a step, above 620 mV and modulo the range of the table Logic-side rails; R476 gives no
voltage per step: FREE VALUE, log entry 134. -/
opaque Config.vcoreOver (step : Nat) : Nat

/-- Index of the check line a quarter's cache evicts (R295 names no policy): FREE VALUE, log entry 11. -/
opaque Config.evict (draw : Nat) : Nat

/-- Body of the boot ROM, measured into register 0 (14 table Measurement registers); the spec gives no
bytes: FREE VALUE, log entry 11. -/
opaque Config.romDigest (i : Nat) : Byte

/-- Bytes of the identity certificate and its chain (table Security fuses), and their number: FREE VALUES, log
entry 11. -/
opaque Config.certificate (i : Nat) : Byte
/-- Bytes of the certificate chain: FREE VALUE, log entry 11. -/
opaque Config.certLength : Nat
/-- SHA-512 of the boot ROM's firmware public keys: FREE VALUE, log entry 11. -/
opaque Config.romKeyDigest (slot i : Nat) : Byte
/-- Bodies of SPDM answers, whose layout DSP0274 gives and the spec does not: FREE VALUE, log entry 11. -/
opaque Config.spdmBody (request draw i : Nat) : Byte

/-- The 64-byte value with which a measurement register is extended for what its table names (14, Measurement
registers), by register and content: the spec names the content and no encoding. FREE VALUE, log entry 11. -/
opaque Config.measured (reg : Nat) (content : List Nat) (i : Nat) : Byte

/-- Which of the leaves that a device hosts a VOP works for, by its place among them, modulo their number: each leaf is a
pass of its own, and the spec gives no state that says which leaf's pass runs (R55). By step, fold pen and issue number
of the command: FREE VALUE, log entry 11. -/
opaque Config.passLeaf (step pen id : Nat) : Nat

/-- Stream address recorded by a DROVE_COUNT stop on a stream that no PRODUCT has named (R182 states none):
FREE VALUE, log entry 11. -/
opaque Config.unnamed (draw : Nat) : Nat

end Sys2Proof
end

