-- ==== Sys2Proof/Machine/Sha.lean ====
section
/-!
DEFINITION. SHA-512 and SHA-256 (FIPS 180-4), which the spec names for digests, measurements and
certificates (R352, R354, R439, R365, 14 table Approved algorithms). PRESUMED from FIPS 180-4, log entry 14.
-/
namespace Sys2Proof.Machine

/-- The 80 round constants of SHA-512; SHA-256 uses the upper halves of the first 64. -/
def shaK : List Nat :=
  [0x428a2f98d728ae22, 0x7137449123ef65cd, 0xb5c0fbcfec4d3b2f, 0xe9b5dba58189dbbc, 0x3956c25bf348b538, 0x59f111f1b605d019, 0x923f82a4af194f9b, 0xab1c5ed5da6d8118] ++
  [0xd807aa98a3030242, 0x12835b0145706fbe, 0x243185be4ee4b28c, 0x550c7dc3d5ffb4e2, 0x72be5d74f27b896f, 0x80deb1fe3b1696b1, 0x9bdc06a725c71235, 0xc19bf174cf692694] ++
  [0xe49b69c19ef14ad2, 0xefbe4786384f25e3, 0x0fc19dc68b8cd5b5, 0x240ca1cc77ac9c65, 0x2de92c6f592b0275, 0x4a7484aa6ea6e483, 0x5cb0a9dcbd41fbd4, 0x76f988da831153b5] ++
  [0x983e5152ee66dfab, 0xa831c66d2db43210, 0xb00327c898fb213f, 0xbf597fc7beef0ee4, 0xc6e00bf33da88fc2, 0xd5a79147930aa725, 0x06ca6351e003826f, 0x142929670a0e6e70] ++
  [0x27b70a8546d22ffc, 0x2e1b21385c26c926, 0x4d2c6dfc5ac42aed, 0x53380d139d95b3df, 0x650a73548baf63de, 0x766a0abb3c77b2a8, 0x81c2c92e47edaee6, 0x92722c851482353b] ++
  [0xa2bfe8a14cf10364, 0xa81a664bbc423001, 0xc24b8b70d0f89791, 0xc76c51a30654be30, 0xd192e819d6ef5218, 0xd69906245565a910, 0xf40e35855771202a, 0x106aa07032bbd1b8] ++
  [0x19a4c116b8d2d0c8, 0x1e376c085141ab53, 0x2748774cdf8eeb99, 0x34b0bcb5e19b48a8, 0x391c0cb3c5c95a63, 0x4ed8aa4ae3418acb, 0x5b9cca4f7763e373, 0x682e6ff3d6b2b8a3] ++
  [0x748f82ee5defb2fc, 0x78a5636f43172f60, 0x84c87814a1f0ab72, 0x8cc702081a6439ec, 0x90befffa23631e28, 0xa4506cebde82bde9, 0xbef9a3f7b2c67915, 0xc67178f2e372532b] ++
  [0xca273eceea26619c, 0xd186b8c721c0c207, 0xeada7dd6cde0eb1e, 0xf57d4f7fee6ed178, 0x06f067aa72176fba, 0x0a637dc5a2c898a6, 0x113f9804bef90dae, 0x1b710b35131c471b] ++
  [0x28db77f523047d84, 0x32caab7b40c72493, 0x3c9ebe0a15c9bebc, 0x431d67c49c100d4c, 0x4cc5d4becb3e42b6, 0x597f299cfc657e2a, 0x5fcb6fab3ad6faec, 0x6c44198c4a475817]

/-- The initial hash value of SHA-512; SHA-256 uses the upper halves. -/
def shaH : List Nat :=
  [0x6a09e667f3bcc908, 0xbb67ae8584caa73b, 0x3c6ef372fe94f82b, 0xa54ff53a5f1d36f1, 0x510e527fade682d1, 0x9b05688c2b3e6c1f, 0x1f83d9abfb41bd6b, 0x5be0cd19137e2179]

/-- What differs between SHA-512 and SHA-256: word width, rounds and rotation amounts. -/
structure ShaP where
  w : Nat
  rounds : Nat
  S0 : Nat × Nat × Nat
  S1 : Nat × Nat × Nat
  s0 : Nat × Nat × Nat
  s1 : Nat × Nat × Nat

/-- Parameters of SHA-512. -/
def sha512P : ShaP := ⟨64, 80, (28, 34, 39), (14, 18, 41), (1, 8, 7), (19, 61, 6)⟩
/-- Parameters of SHA-256. -/
def sha256P : ShaP := ⟨32, 64, (2, 13, 22), (6, 11, 25), (7, 18, 3), (17, 19, 10)⟩

/-- Rotation right of a w-bit word. -/
def rotr (w x n : Nat) : Nat := (x >>> n) ||| ((x <<< (w - n)) % 2 ^ w)
/-- The capital sigma functions. -/
def shaBig (p : ShaP) (r : Nat × Nat × Nat) (x : Nat) : Nat := rotr p.w x r.1 ^^^ rotr p.w x r.2.1 ^^^ rotr p.w x r.2.2
/-- The small sigma functions. -/
def shaSmall (p : ShaP) (r : Nat × Nat × Nat) (x : Nat) : Nat := rotr p.w x r.1 ^^^ rotr p.w x r.2.1 ^^^ (x >>> r.2.2)

/-- The message schedule: `last` holds the latest 16 words, oldest first. -/
def shaSched (p : ShaP) : Nat → List Nat → List Nat
  | 0, _ => []
  | k + 1, last =>
    let w := (shaSmall p p.s1 (last.getD 14 0) + last.getD 9 0 + shaSmall p p.s0 (last.getD 1 0) + last.getD 0 0) % 2 ^ p.w
    w :: shaSched p k (last.drop 1 ++ [w])

/-- One round on the eight working variables. -/
def shaRound (p : ShaP) (v : List Nat) (kw : Nat × Nat) : List Nat :=
  match v with
  | [a, b, c, d, e, f, g, h] =>
    let t1 := h + shaBig p p.S1 e + ((e &&& f) ^^^ ((e ^^^ (2 ^ p.w - 1)) &&& g)) + kw.1 + kw.2
    let t2 := shaBig p p.S0 a + ((a &&& b) ^^^ (a &&& c) ^^^ (b &&& c))
    [(t1 + t2) % 2 ^ p.w, a, b, c, (d + t1) % 2 ^ p.w, e, f, g]
  | _ => v

/-- Big-endian value of bytes. -/
def beNat (bs : List Byte) : Nat := bs.foldl (fun a b => a * 256 + b.toNat) 0

/-- Compression of one block given as 16 words. -/
def shaBlock (p : ShaP) (h : List Nat) (ws : List Nat) : List Nat :=
  let sched := ws ++ shaSched p (p.rounds - 16) ws
  let ks := shaK.map fun k => k >>> (64 - p.w)
  let v := (ks.zip sched).foldl (shaRound p) h
  List.zipWith (fun x y => (x + y) % 2 ^ p.w) h v

/-- Cuts a list into pieces of n, at most as many as the fuel. -/
def chunks {α : Type} (n : Nat) : Nat → List α → List (List α)
  | 0, _ => []
  | _, [] => []
  | k + 1, l => l.take n :: chunks n k (l.drop n)

/-- The padded message. -/
def shaPad (p : ShaP) (m : List Byte) : List Byte :=
  let blk := 2 * p.w
  let lenB := p.w / 4
  let z := (blk - (m.length + 1 + lenB) % blk) % blk
  m ++ [0x80#8] ++ List.replicate z 0#8 ++ beBytes lenB (8 * m.length)

/-- The hash of a message as big-endian bytes. -/
def shaHash (p : ShaP) (m : List Byte) : List Byte :=
  let pm := shaPad p m
  let blocks := chunks (2 * p.w) (pm.length / (2 * p.w)) pm
  let h0 := shaH.map fun x => x >>> (64 - p.w)
  let h := blocks.foldl (fun h b => shaBlock p h ((chunks (p.w / 8) 16 b).map beNat)) h0
  h.flatMap (beBytes (p.w / 8))

/-- SHA-512. -/
def sha512 (m : List Byte) : List Byte := shaHash sha512P m
/-- SHA-256. -/
def sha256 (m : List Byte) : List Byte := shaHash sha256P m

/-! ## The identity certificate (14, table Security fuses) -/

/-- The certificate chain: the identity certificate and its issuing chain. -/
def certChain : List Byte := (List.range Config.certLength).map Config.certificate

/-- Bytes of the DER element at the head of a string: its tag, its length in short form or in one or two bytes, its content
(PRESUMED from X.690, log entry 14). -/
def derLength (bs : List Byte) : Nat :=
  match bs with
  | _ :: n :: rest =>
    if n = 0x81#8 then 3 + beNat (rest.take 1) else if n = 0x82#8 then 4 + beNat (rest.take 2) else 2 + n.toNat
  | _ => bs.length

/-- SHA-256 of the identity certificate (tables Seal, Attestation report). -/
def certHash : List Byte := sha256 (certChain.take (derLength certChain))

end Sys2Proof.Machine
end

