-- ==== Sys2Proof/Machine/TimeState.lean ====
section
/-!
DEFINITION. State of the hefts, the REFCLK monitor, the watch and its comparators (09).
-/
namespace Sys2Proof.Machine

/-- A heft: HEFT_CTRL, HEFT_STATE, counters; the governor's limit and the monitor's choice; temperature
reading; the hefts with which its crossings are aligned (R267, R268) and whether a handshake is due (R269). -/
structure Heft where
  ceiling  : Nat
  gateEn   : Bool
  step     : Nat
  slewing  : Bool
  stopped  : Bool
  holdover : Bool
  governor : Nat
  monitor  : Nat
  /-- stage S3 fixes a pen heft at 425 MHz (R481); a paddock clear keeps it from running slower (R157) -/
  fixed    : Bool
  clear    : Bool
  stretch  : Nat
  drops    : Nat
  aligned  : List Nat
  handshake : Bool
  temp     : Nat
  /-- by the ticks of `Watch.age`: since when the sensor has read 95 °C or more, or below 90 °C, a step since then counted
  anew (R488) -/
  hotAt    : Option Nat
  coolAt   : Option Nat
  /-- the local watch copy, stale, of a heft whose clock stands still (R272, R284) -/
  copy     : Nat
  deriving DecidableEq, Repr

/-- Heft h after a module reset: before PG only the management heft, 48, runs, at 212.5 MHz (R477). -/
def Heft.reset (h : Nat) : Heft where
  ceiling := 0
  gateEn := h < 46
  step := if h = 48 then 4 else 0
  slewing := false
  stopped := false
  holdover := false
  governor := 0
  monitor := 0
  fixed := false
  clear := false
  stretch := 0
  drops := 0
  aligned := []
  handshake := false
  temp := 0
  hotAt := none
  coolAt := none
  copy := 0

/-- Uses of a comparator (WATCH_CMP_USE.class). -/
inductive CmpUser where
  /-- a wait in a slot of a pen: site, queue bit, issue number -/
  | wait (site : Nat) (bwd : Bool) (id : Nat)
  | snapshot
  | sign
  | laggard (group : Nat)
  deriving DecidableEq, Repr

/-- A comparator in use (R202, R285): V, class and fold of the first request, requests joined. -/
structure Comparator where
  v     : Nat
  cls   : Nat
  fold  : Nat
  users : List CmpUser
  deriving DecidableEq, Repr

/-- The watch block (R279 to R289). `ahead` is the expected count less the count while slewing; `phase`
counts ticks of the slew's 16; `last` is the last valid frame's value with the count at its marker; `row` bad
or missing frames in a row; `grown` the growth of the skew bound in holdover, in 1/500,000 of a tick (R287); `age` the
ticks since the power-on or module reset, by which lengths of time are measured, whatever the count jumps to, `core` what it was
at the start of core power (R289), `fresh` the ticks since the last reload (R283). -/
structure Watch where
  count   : Nat
  hiLatch : Nat
  state   : Nat
  flag    : Bool
  delay   : Nat
  free    : Bool
  skewLimit : Nat
  bad     : Nat
  slips   : Nat
  behind  : Int
  phase   : Nat
  last    : Option (Nat × Nat)
  row     : Nat
  grown   : Nat
  skewed  : Bool
  age     : Nat
  core    : Nat
  fresh   : Option Nat
  cmps    : List (Option Comparator)
  deriving DecidableEq, Repr

/-- The watch at reset. -/
def Watch.reset : Watch where
  count := 0
  hiLatch := 0
  state := 0
  flag := false
  delay := 0
  free := false
  skewLimit := 0x64
  bad := 0
  slips := 0
  behind := 0
  phase := 0
  last := none
  row := 0
  grown := 0
  skewed := false
  age := 0
  core := 0
  fresh := none
  cmps := List.replicate 16 none

/-- The REFCLK monitor (R274 to R278): REF_STATUS, REF_HOLD, the tick (`Watch.age`) of the loss, whether REF_FAIL has come since. -/
structure Ref where
  state  : Nat
  losses : Nat
  hold   : Nat
  lostAt : Nat
  failed : Bool
  deriving DecidableEq, Repr

/-- The REFCLK monitor at reset. -/
def Ref.reset : Ref := ⟨0, 0, 0, 0, false⟩

end Sys2Proof.Machine
end

