-- ==== Sys2Proof/Machine/State.lean ====
section
/-!
DEFINITION. The state of a Brodelle module, what a command may answer beside a next state, and the state
right after power-on (00_scope.md to 17_setup_registers.md). Every field of every field table of the spec is
held here or computed from what is held (NOTES.md names the computed ones).
-/
namespace Sys2Proof.Machine

/-! ## Records of outputs (log entry 10) -/

/-- Names of event records. -/
inductive EventName where
  | residueMismatch | penRetired | penSubstituted | rowSpared | spareExhausted | cut | ringHalted | droveResend
  | droveSequence | accUncorrectable | padUncorrectable | watchNoneFree | shearFallback | linkDegraded
  | linkSilent | linkAuthFail | linkMiswired | linkKeyFail | flockFormed | flockRefused | laggard | laggardFail
  | tunnelAbsent | tunnelTimeout | fosterTooSmall | snapshotDeferred | snapshotLost | exportReady
  | recoveryReady | studbookMismatch | recoveryExhausted | refLoss | refRestored | refFail | watchJump
  | watchLoss | watchSkew | memHot | memRetrain | selftestFail | secRecordLost | tamper | traceStopped
  | heftDroop
  deriving DecidableEq, Repr

/-- An event record: its name, what it carries, and the watch count. -/
structure Event where
  name  : EventName
  data  : List Nat
  watch : Nat
  deriving DecidableEq, Repr

/-- Where the block answers a reader. -/
inductive Port where
  | host (fn : Nat) | smbus | pmbus | tap | spdm
  deriving DecidableEq, Repr

/-- What leaves the module (log entry 10). -/
inductive Output where
  /-- data returned to a reader -/
  | reply (p : Port) (bytes : List Byte)
  /-- a NACK, or a Completer Abort -/
  | nack (p : Port)
  /-- an MSI-X message of a function's vector -/
  | msix (fn vec : Nat)
  /-- a host read issued on the host port under a tag -/
  | hostRead (tag addr len : Nat)
  /-- a packet on a link port -/
  | packet (k : Nat) (p : Packet)
  /-- a link control slot in a frame of kind 2 -/
  | control (k : Nat) (c : CtlSlot)
  /-- a replay request naming a seq -/
  | replay (k seq : Nat)
  /-- frames sent again from the replay buffer, with their seqs -/
  | again (k : Nat) (fs : List (Nat × TxFrame))
  /-- an idle frame, sent because the replay buffer is full -/
  | idle (k : Nat)
  /-- a message of VC0 to this device itself -/
  | vc0 (m : Vc0)
  /-- boundary cells driven (EXTEST) -/
  | cells (bits : List Bool)
  deriving DecidableEq, Repr

/-! ## Pins, power and bring-up (15, 16) -/

/-- Pins of J1 and J3 (R494, R505). TAMPER_N and MOD_RESET_N high are true. -/
structure Pins where
  vaux    : Bool
  pwrEn   : Bool
  perst   : Bool
  modReset : Bool
  tamper  : Bool
  slotId  : Nat
  inputOk : Bool
  pg      : Bool
  thermtrip : Bool
  fault   : Bool
  deriving DecidableEq, Repr

/-- Power stage and governor (R472 to R476, R485 to R489, R500); PWR_STATUS.governor is `step`. -/
structure Power where
  operation : Bool
  converters : Bool
  rails   : Bool
  uv      : Bool
  ov      : Bool
  cml     : Bool
  vcoreA  : Nat
  vcoreB  : Nat
  limit   : Nat
  /-- the last measurement, the fast and the slow average -/
  last    : Nat
  fast    : Nat
  slow    : Nat
  step    : Nat
  guard   : Bool
  /-- by the ticks of `Watch.age`: since when the slow average has exceeded the limit, has stayed below 95 % of it, the fast
  average has exceeded it, has stayed below 90 % of it; the last step down, the last step up, the entry into guard -/
  slowOver : Option Nat
  slowLow : Option Nat
  fastOver : Option Nat
  fastLow : Option Nat
  downAt  : Nat
  upAt    : Nat
  guardAt : Nat
  /-- SMB_ALERT bits, and per bit the tick (`Watch.age`) at which it was cleared (R516) -/
  alert   : Nat
  cleared : Sparse Nat
  deriving DecidableEq, Repr

/-- Bring-up (R477 to R484) and resets. -/
structure Bring where
  stage   : Nat
  sram    : Bool
  kat     : Bool
  memory  : Bool
  links   : Bool
  hold    : Bool
  fail    : Nat
  tested  : List Nat
  passed  : List Nat
  bypass  : Bool
  good    : Nat
  resets  : Nat
  cause   : Nat
  portUp  : Bool
  deriving DecidableEq, Repr

/-- The persistent fault record (R72, R153, R489), with the crook's operations that a CUT has ended as arbiter, beats and
watch count (R255), and the repair fuses (R153, R479). -/
structure Persist where
  retired : List Nat
  spared  : List (Nat × Nat)
  trips   : Nat
  testBad : List Nat
  testSpared : List (Nat × Nat)
  cuts    : List (Nat × Nat × Nat)
  deriving DecidableEq, Repr

/-! ## Security (14) -/

/-- Security fuses that can change in service (R432). -/
structure Fuses where
  fwRevoked : Nat
  ownerHash : List Byte
  owner   : Bool
  floor   : Nat
  coteGen : Nat
  tamperCount : Nat
  decommissioned : Bool
  deriving DecidableEq, Repr

/-- The security record of R454 as stored: the cote generation of the KEK that wraps it, cote root (a draw),
epochs of the folds, approved-mode setting. -/
structure SecRecord where
  gen    : Nat
  root   : Nat
  epochs : List Nat
  approved : Bool
  deriving DecidableEq, Repr

/-- An SPDM session (R441): number, keys established, requester authenticated as User. -/
structure Session where
  id     : Nat
  ready  : Bool
  user   : Bool
  deriving DecidableEq, Repr

/-- The crook and its security state. -/
structure Sec where
  fuses   : Fuses
  state   : Nat
  approved : Bool
  source  : Bool
  bootFail : Nat
  drbg    : Bool
  kek     : Bool
  root    : Option Nat
  record  : Option SecRecord
  /-- both stored copies failed to unwrap: later reports carry no approved flag (R454) -/
  lost    : Bool
  image   : Option (List Byte)
  nor     : Option Image
  ram     : Option Image
  measure : List (List Byte)
  nonce   : Option Nat
  /-- ticks for which TAMPER_N has been low; whether the response has come (R463) -/
  tamperLow : Option Nat
  tamperDone : Bool
  /-- whether the security record has been read since the start (R454) -/
  recordRead : Bool
  spdmUp  : Nat
  sessions : List Session
  nextSession : Nat
  linkIde : Bool
  deriving DecidableEq, Repr

/-- TAP instructions (R457, R518). -/
inductive TapInstr where
  | bypass | idcode | sample | extest | extestPulse | extestTrain | die
  deriving DecidableEq, Repr

/-! ## Functions, trace, studbook buffer -/

/-- Registers of one function: WRSTAT, WRSTAT_OFFSET, aperture base, mailbox with the opcode in progress, keyed selective IDE stream in
an authenticated User session. -/
structure FnRegs where
  valid  : Bool
  status : Nat
  count  : Nat
  kind   : Bool
  offset : Nat
  apLo   : Nat
  apHi   : Nat
  mbStatus : Nat
  mbLength : Nat
  mbReq  : Nat
  mbBusy : Bool
  buffer : Memory
  ide    : Bool
  deriving DecidableEq, Repr

/-- A function's registers at reset. -/
def FnRegs.reset : FnRegs := ⟨false, 0, 0, false, 0, 0, 0, 0, 0, 0, false, [], false⟩

/-- The trace (R535 to R538): TRACE_CTRL, TRACE_FILTER, TRACE_STATUS, entries as (watch, flit). -/
structure Trace where
  enable : Bool
  kinds  : Nat
  folds  : Nat
  wrapped : Bool
  lost   : Nat
  next   : Nat
  buf    : Sparse (Nat × Nat)
  deriving DecidableEq, Repr

/-- Sparing of the global tally store and the studbook buffer (R152 to R156). -/
structure GateRows where
  tallySpared : Nat
  bookSpared  : Nat
  copying : List Nat
  spared  : List Nat
  rowErrs : Sparse Nat
  badRows : List Nat
  deriving DecidableEq, Repr

/-- The device: everything but the queue of waiting commands. -/
structure Device where
  /-- SLOT_ID-independent identity: IDREV and the serial fuse -/
  idrev   : W32
  serial  : W64
  pins    : Pins
  power   : Power
  bring   : Bring
  persist : Persist
  sec     : Sec
  tap     : TapInstr
  cells   : List Bool
  hefts   : List Heft
  watch   : Watch
  ref     : Ref
  sites   : List Site
  foldCount : Nat
  folds   : List Fold
  gtally  : Sparse W32
  gateRows : GateRows
  fabric  : Fabric
  mem     : Mem
  /-- PAD_SCRUB, PAD_SCRUB_STATUS, SPARE_CTRL -/
  padScrub : Nat
  deferred : Nat
  hardLimit : Nat
  shears  : Shears
  coll    : CollEng
  links   : List Link
  flock   : Flock
  recov   : Recov
  cote    : Cote
  rings   : Sparse Ring
  descs   : List Desc
  fetchOrder : Nat
  hport   : HostPort
  fns     : List FnRegs
  trace   : Trace
  /-- host memory as the device has written it (log entry 10) -/
  host    : Memory
  events  : List Event
  out     : List Output
  /-- the model's own counter for free values (log entry 11) -/
  free    : Nat
  deriving DecidableEq, Repr

/-- The state: the device and the commands that wait, first in, first out. -/
structure State where
  dev     : Device
  pending : List Instr
  deriving DecidableEq, Repr

/-- Faults. No command of the table faults: every command the spec gives has an effect, if only to change
nothing. -/
inductive Fault where
  /-- raised by nobody: a step of this model never faults (safe) -/
  | impossible
  deriving DecidableEq, Repr

/-- Refusals. -/
inductive Refusal where
  /-- raised by an arm of exec whose command has no meaning yet (safe); no arm does -/
  | notModelled (mnemonic : String)
  deriving DecidableEq, Repr

/-! ## Right after power-on -/

/-- IDREV of the module modelled (table IDREV; log entry 1): part, grade, memory, major 1, minor. -/
def resetIdrev : W32 :=
  BitVec.ofNat 32 (0x57B4 * 2 ^ 16 + Config.grade * 2 ^ 12 + Config.memory * 2 ^ 8 + 1 * 2 ^ 4 + Config.minor)

/-- The device right after power-on (R477, stage S1): every register at the reset value of its field table,
and what the tables leave open as the log entries 1 to 9 say. -/
def Device.reset : Device where
  idrev := resetIdrev
  serial := BitVec.ofNat 64 Config.serial
  pins := ⟨true, false, false, true, true, 0, true, false, false, false⟩
  power :=
    { operation := true, converters := false, rails := false, uv := false, ov := false, cml := false, vcoreA := 750, vcoreB := 750, limit := 0x640, last := 0, fast := 0, slow := 0, step := 0,
      guard := false, slowOver := none, slowLow := none, fastOver := none, fastLow := none, downAt := 0, upAt := 0, guardAt := 0
      alert := 0, cleared := [] }
  bring :=
    { stage := 1, sram := false, kat := false, memory := false, links := false, hold := false, fail := 0,
      tested := [], passed := [], bypass := false, good := 0, resets := 0, cause := 0, portUp := false }
  persist := ⟨[], [], 0, [], [], []⟩
  sec :=
    { fuses := ⟨0, [], false, 0, 0, 0, false⟩, state := 0, approved := false, source := false, bootFail := 0,
      drbg := false, kek := false, root := none, record := none, lost := false, image := none, nor := none, ram := none,
      measure := List.replicate 8 (List.replicate 64 0), nonce := none, tamperLow := none, tamperDone := false, recordRead := false, spdmUp := 0,
      sessions := [], nextSession := 1, linkIde := false }
  tap := .idcode
  cells := []
  hefts := (List.range 49).map Heft.reset
  watch := .reset
  ref := .reset
  sites := List.replicate 42 .reset
  foldCount := 1
  folds := List.replicate 8 .reset
  gtally := []
  gateRows := ⟨0, 0, [], [], [], []⟩
  fabric := .reset
  mem := .reset
  padScrub := 0x80003200
  deferred := 0
  hardLimit := 2
  shears := .reset
  coll := .reset
  links := List.replicate 6 .reset
  flock := .reset 0
  recov := .reset
  cote := .reset
  rings := []
  descs := []
  fetchOrder := 0
  hport := .reset
  fns := List.replicate 9 .reset
  trace := ⟨false, 0x03FE, 0xFF, false, 0, 0, []⟩
  host := []
  events := []
  out := []
  free := 0

/-- The state right after power-on: the device at reset, no command waiting. -/
def State.reset : State := ⟨Device.reset, []⟩

end Sys2Proof.Machine
end

