-- ==== Sys2Proof/Machine/Parts.lean ====
section
/-!
DEFINITION. The parts of a device and how one of them changes; records of events and outputs; the counter of free values;
counts that saturate.
-/
namespace Sys2Proof.Machine

/-! ## Parts -/

/-- Physical site n. -/
def Device.site (d : Device) (n : Nat) : Site := d.sites.getD n .reset
/-- Change of site n. -/
def Device.onSite (d : Device) (n : Nat) (g : Site → Site) : Device := { d with sites := d.sites.modify n g }
/-- Change of every site of a list. -/
def Device.onSites (d : Device) (ns : List Nat) (g : Site → Site) : Device := ns.foldl (fun d n => d.onSite n g) d
/-- Fold f. -/
def Device.fold (d : Device) (f : Nat) : Fold := d.folds.getD f .reset
/-- Change of fold f. -/
def Device.onFold (d : Device) (f : Nat) (g : Fold → Fold) : Device := { d with folds := d.folds.modify f g }
/-- Heft h. -/
def Device.heft (d : Device) (h : Nat) : Heft := d.hefts.getD h (.reset h)
/-- Change of heft h. -/
def Device.onHeft (d : Device) (h : Nat) (g : Heft → Heft) : Device := { d with hefts := d.hefts.modify h g }
/-- Link port k. -/
def Device.link (d : Device) (k : Nat) : Link := d.links.getD k .reset
/-- Change of link port k. -/
def Device.onLink (d : Device) (k : Nat) (g : Link → Link) : Device := { d with links := d.links.modify k g }
/-- Registers of function fn (0 = PF0, f + 1 = VF of fold f). -/
def Device.fn (d : Device) (n : Nat) : FnRegs := d.fns.getD n .reset
/-- Change of a function's registers. -/
def Device.onFn (d : Device) (n : Nat) (g : FnRegs → FnRegs) : Device := { d with fns := d.fns.modify n g }
/-- Memory quarter q. -/
def Device.quarter (d : Device) (q : Nat) : Quarter := d.mem.quarters.getD q .reset
/-- Change of memory quarter q. -/
def Device.onQuarter (d : Device) (q : Nat) (g : Quarter → Quarter) : Device :=
  { d with mem := { d.mem with quarters := d.mem.quarters.modify q g } }
/-- Ring n: SQ n below 512, CQ n - 512 above. -/
def Device.ring (d : Device) (n : Nat) : Ring := sget .reset d.rings n
/-- Store of ring n. -/
def Device.setRing (d : Device) (n : Nat) (r : Ring) : Device := { d with rings := sset .reset d.rings n r }
/-- Drive of a fold's slot. -/
def Device.drive (d : Device) (f s : Nat) : Option Drive := slook (d.fold f).drives s
/-- Change of a resident drive. -/
def Device.onDrive (d : Device) (f s : Nat) (g : Drive → Drive) : Device :=
  match d.drive f s with
  | some v => d.onFold f fun o => { o with drives := sput o.drives s (g v) }
  | none => d

/-! ## Events, outputs, free values, saturating counts -/

/-- The watch count. -/
abbrev Device.now (d : Device) : Nat := d.watch.count
/-- Record of an event with the watch count (R258, R284; log entry 10). -/
def Device.event (d : Device) (n : EventName) (data : List Nat) : Device :=
  { d with events := d.events ++ [⟨n, data, d.now⟩] }
/-- An output. -/
def Device.emit (d : Device) (o : Output) : Device := { d with out := d.out ++ [o] }
/-- Advance of the model's counter of free values (log entry 11). -/
def Device.draw (d : Device) : Device := { d with free := d.free + 1 }
/-- A count that saturates at the largest value of w bits. -/
def satAdd (w n k : Nat) : Nat := min (n + k) (2 ^ w - 1)
/-- Random bytes of draw n (R442; log entry 11). -/
def randomBytes (n len : Nat) : List Byte := (List.range len).map (Config.random n)

/-! ## Host requests in approved mode (R459; log entry 133) -/

/-- Whether a host request to a function arrives outside its IDE stream: in approved mode, while the function has no selective
stream keyed (R459). -/
def Device.outside (d : Device) (fn : Nat) : Bool := d.sec.approved && !(d.fn fn).ide

/-- A host request to a function is served, or discarded where it arrives outside the function's stream (R459). -/
def Device.fromHost (d : Device) (fn : Nat) (g : Device → Device) : Device := if d.outside fn then d else g d

/-- Whether a register write through a function has no effect, whatever the register: it arrives outside the function's stream
(R459), or the device is in the recovery function (R466, R524) or in the error state (log entry 106). -/
def Device.shut (d : Device) (fn : Nat) : Bool := d.outside fn || decide (2 ≤ d.sec.state)

/-- A row that writes a register is carried out, or ignored. -/
def Device.fromRegs (d : Device) (fn : Nat) (g : Device → Device) : Device := if d.shut fn then d else g d

end Sys2Proof.Machine
end

