-- ==== Sys2Proof/Machine/Packets.lean ====
section
/-!
DEFINITION. Sending packets: the torus, routes and dateline classes, credits and the replay window, packet
headers (11, R318 to R328).
-/
namespace Sys2Proof.Machine

/-! ## The torus (R324 to R328) -/

/-- Size of dimension i of the flock: FLOCK_CFG codes 0, 1, 2 mean 1, 2, 4. -/
def Device.dim (d : Device) (i : Nat) : Nat := 2 ^ (bits d.flock.cfg (2 * i + 1) (2 * i))
/-- Coordinate i of a rank (R324). -/
def Device.coord (d : Device) (r i : Nat) : Nat :=
  if i = 0 then r % d.dim 0 else if i = 1 then r / d.dim 0 % d.dim 1 else r / (d.dim 0 * d.dim 1)
/-- Rank with coordinate i replaced. -/
def Device.withCoord (d : Device) (r i c : Nat) : Nat :=
  let w := if i = 0 then 1 else if i = 1 then d.dim 0 else d.dim 0 * d.dim 1
  r - d.coord r i * w + c * w
/-- Neighbour through a port (table Ports and torus directions): even ports go up, odd ones down. -/
def Device.neighbour (d : Device) (r port : Nat) : Nat :=
  let i := port / 2
  let n := d.dim i
  d.withCoord r i ((d.coord r i + (if port % 2 = 0 then 1 else n - 1)) % n)
/-- Port of the neighbour that a port is wired to. -/
def peerOf (port : Nat) : Nat := if port % 2 = 0 then port + 1 else port - 1
/-- Whether the shape is known to this device: it is forming, formed or recovering (R325). -/
def Device.shaped (d : Device) : Bool := d.flock.state = 1 || d.flock.state = 2 || d.flock.state = 3
/-- A port whose peer reports another port than the table Ports and torus directions gives, or another rank than
the known shape gives, is miswired and carries no traffic (R325). -/
def Device.checkWiring (d : Device) (k : Nat) : Device :=
  let l := d.link k
  if l.lanes = 0 then d else
  let bad := decide (l.peerPort ≠ peerOf k) || (d.shaped && decide (l.peerRank ≠ d.neighbour d.flock.rank k))
  let d := d.onLink k fun l => { l with miswired := bad }
  if bad then d.event .linkMiswired [k] else d
/-- Every port's wiring held against the shape. -/
def Device.checkAll (d : Device) : Device := (List.range 6).foldl (fun d k => d.checkWiring k) d
/-- Whether a port of a rank is on the wrapping link of its dimension (R328). -/
def Device.wraps (d : Device) (r port : Nat) : Bool :=
  let i := port / 2
  if port % 2 = 0 then d.coord r i + 1 = d.dim i else d.coord r i = 0
/-- Dateline class in which a packet leaves by a port: 1 across the wrapping link, kept within a dimension, 0
on turning into another (R328). `fromPort` is the ingress of a transit packet. -/
def Device.classOut (d : Device) (fromPort : Option Nat) (cls port : Nat) : Nat :=
  if d.wraps d.flock.rank port then 1
  else match fromPort with
    | some q => if q / 2 = port / 2 then cls else 0
    | none => 0

/-- First hop of the dimension-ordered route: the shorter direction in each
dimension in order, the positive one on a tie (R326). -/
def Device.hopTo (d : Device) (fromR toR : Nat) : Option Nat :=
  [0, 1, 2].findSome? fun i =>
    let n := d.dim i
    let up := (d.coord toR i + n - d.coord fromR i) % n
    if up = 0 then none else some (2 * i + (if up ≤ n - up then 0 else 1))

/-- Port by which a packet to a rank leaves: the primary, or the alternate once the primary has failed (R327). -/
def Device.portTo (d : Device) (r : Nat) : Option Nat :=
  match slook d.flock.routes r with
  | some t => if !t.valid then none else if (d.link t.prim).state = 4 then some t.alt else some t.prim
  | none => none

/-! ## Credits and the replay window (R316, R318, R320) -/

end Sys2Proof.Machine

namespace Sys2Proof
/-- Slots of a packet: header, data, tag. A message of kind 11 takes the 16 data slots it may have at most (R320; log entry
129). -/
def Packet.slots (p : Packet) : Nat := 2 + (if p.msg.isSome then 16 else (p.data.length + 63) / 64)
/-- Credit pool (table Credit pools). -/
def Packet.pool (p : Packet) : Nat :=
  if p.vc = 0 then 0 else if p.vc = 1 then 1 + p.cls else if p.vc = 2 then 3 + p.cls else 5 + 2 * p.slot + p.cls
/-- Frames a packet takes: ten slots each (R314). -/
def Packet.frames (p : Packet) : Nat := (p.slots + 9) / 10
end Sys2Proof

namespace Sys2Proof.Machine

/-- Frames in the replay buffer. -/
def Link.unacked (l : Link) : Nat := l.sent.length

/-- Whether a port may send a packet now: the link is up, keyed unless the packet is on VC0, and has the credits and the room
in its replay buffer (R316, R318, R325, R449, R451). -/
def Link.maySend (l : Link) (p : Packet) : Bool :=
  (l.state = 2 || l.state = 3) && (l.keyed || p.vc = 0) && !l.miswired && decide (p.slots ≤ l.credits.getD p.pool 0) &&
    decide (l.unacked + p.frames ≤ 512)

/-- A packet leaves: credits are spent, its counter advances, and its frames go into the replay buffer (R316, R318, R321). -/
def Device.transmit (d : Device) (k : Nat) (p : Packet) : Device :=
  let l := d.link k
  let q : Packet := { p with ctr := l.ctr }
  (d.onLink k fun l => { l with
    credits := l.credits.modify p.pool (· - p.slots), ctr := l.ctr + 1, nextSeq := (l.nextSeq + p.frames) % 1024
    sent := l.sent ++ (List.range p.frames).map fun i => ((l.nextSeq + i) % 1024, .packet q i) }).emit (.packet k q)

/-- A packet handed to a port: sent, or kept in order behind the packets of its pool that wait (R318, R327). -/
def Device.sendOn (d : Device) (k : Nat) (p : Packet) : Device :=
  let l := d.link k
  if l.state = 4 then d
  else if l.maySend p ∧ !l.waiting.any (fun w => w.pool = p.pool) then d.transmit k p
  else d.onLink k fun l => { l with waiting := l.waiting ++ [p] }

/-- Waiting packets of a port that can now go: VC0 first, in order within each pool (R318, R329). -/
def Device.drainPort (d : Device) (k : Nat) : Device :=
  let ws := (d.link k).waiting
  let ws := ws.filter (·.vc = 0) ++ ws.filter (·.vc ≠ 0)
  let d := d.onLink k fun l => { l with waiting := [] }
  ws.foldl (fun d p => d.sendOn k p) d

/-- A packet header with its defaults. -/
def Device.packetTo (d : Device) (dst vc kind : Nat) : Packet where
  dst := dst
  src := d.flock.rank
  vc := vc
  cls := 0
  slot := 0
  kind := kind
  group := none
  ctr := 0
  plan := 0
  leaf := 0
  node := 0
  addr := dst * 2 ^ 46
  offset := 0
  tally := 0
  inc := 0
  status := 0
  data := []
  msg := none
  tagOk := true

/-- A packet sent to its destination by the routing table; nothing where no route leads there. -/
def Device.sendTo (d : Device) (p : Packet) : Device :=
  match d.portTo p.dst with
  | some k => d.sendOn k { p with cls := d.classOut none 0 k }
  | none => d

/-- Data cut into packets of at most 64 slots, with offsets from `base`; `last` marks the final one. -/
def Device.sendData (d : Device) (p : Packet) (base : Nat) (bs : List Byte) (last : Packet → Packet) : Device :=
  let parts := chunks 4096 ((bs.length + 4095) / 4096) bs
  (parts.zipIdx).foldl (fun d x =>
    let q := { p with data := x.1, offset := base + 4096 * x.2 }
    d.sendTo (if x.2 + 1 = parts.length then last q else q)) d

/-! ## Messages on VC0 and the way to the bellwether (R320, R350, R380, R429) -/

/-- Whether this device's rings are tunnelled: a member of a formed flock other than its bellwether (R429). -/
def Device.tunnelled (d : Device) : Bool := (d.flock.state = 2 || d.flock.state = 3) && !d.flock.isBell

/-- Rank of the bellwether, FLOCK_CFG.bellwether. -/
def Device.bellRank (d : Device) : Nat := bits d.flock.cfg 18 13

/-- A message to a rank: a packet of kind 11 on VC0, or a word to itself (R320). -/
def Device.tell (d : Device) (rank : Nat) (m : Vc0) : Device :=
  if rank = d.flock.rank then d.emit (.vc0 m) else d.sendTo { d.packetTo rank 0 11 with msg := some m }

/-- A message to the bellwether, while the flock is formed or recovering. -/
def Device.tellBell (d : Device) (m : Vc0) : Device :=
  if d.flock.state = 2 ∨ d.flock.state = 3 then d.tell d.bellRank m else d

/-- This device declares itself failed: to the bellwether, and in the flags byte of its control slots (R318, R379). -/
def Device.declareFailed (d : Device) : Device :=
  let d := d.tellBell (.failure d.flock.rank .declared)
  if d.flock.state = 2 ∨ d.flock.state = 3 then { d with flock := { d.flock with declared := true } } else d

/-! ## Arrival of a packet (R318, R322, R323) -/

/-- A packet that fails its tag takes its link down until keys are agreed afresh (R323). -/
def Device.tagFailed (d : Device) (k : Nat) : Device :=
  ((d.onLink k fun l => { l with
    authFail := satAdd 8 l.authFail 1, state := 0, keyed := false, lanes := 0, lastReq := none, reqRow := 0, asked := false, since := d.watch.age }).event
    .linkAuthFail [k]).tellBell (.failure (d.link k).peerRank .linkFailed)

/-- Whether a port takes frames of packets: it is up, and no replay that it has asked for is to come (R316). -/
def Link.takes (l : Link) : Bool := (l.state = 2 || l.state = 3) && !l.miswired && !l.asked
/-- Whether a port takes packets of VC1 to VC3. -/
def Link.receives (l : Link) : Bool := l.takes && l.keyed

/-- The slots of a packet taken in are owed back to the sender as credits (R318). -/
def Device.owe (d : Device) (k : Nat) (p : Packet) : Device :=
  d.onLink k fun l => { l with owed := l.owed.modify p.pool (· + p.slots) }

/-- A packet for this device on port k: `g` is done with it unless its tag fails, or it comes marked for
discard. -/
def Device.deliver (d : Device) (k : Nat) (p : Packet) (g : Device → Device) : Device :=
  if !(d.link k).receives ∨ p.dst ≠ d.flock.rank then d
  else if bit p.status 7 then d.owe k p
  else if !p.tagOk then d.tagFailed k
  else g (d.owe k p)

/-- A message of VC0 takes effect: one of this device's own, or the content of a packet of kind 11, in clear on a link without
keys (R323, R449). -/
def Device.hear (d : Device) (v : Via) (g : Device → Device) : Device :=
  match v with
  | .own => g d
  | .port k tagOk =>
    if !(d.link k).takes then d
    else if (d.link k).keyed ∧ !tagOk then d.tagFailed k
    else g (d.onLink k fun l => { l with owed := l.owed.modify 0 (· + 18) })

end Sys2Proof.Machine
end

