-- ==== Sys2Proof/Machine/Ops.lean ====
section
/-!
DEFINITION. The named operations over a device: places of local
addresses, paddock and LPDDR5X access, tallies, control flits, comparators, heft steps, completion of
descriptors, stopping a drive.
-/
namespace Sys2Proof.Machine

/-! ## Folds, pens and addresses -/

/-- Whether a site carries a logical pen: in service, or retired and awaiting its substitution, which is when the
number passes to the spare (R126; table Spare substitution, step 5). -/
def Site.seated (s : Site) : Bool := (s.state = 0 || s.state = 2) && s.logical < 40
/-- Logical pen count: sites that carry a logical number (PENMAP.logical). -/
def Device.pens (d : Device) : Nat := (d.sites.filter (·.seated)).length
/-- The site that carries a logical pen. -/
def Device.siteOf (d : Device) (l : Nat) : Option Nat :=
  d.sites.findIdx? fun s => s.seated && s.logical = l
/-- Sites of a fold in ascending logical order (R101): fold pen q is the q-th. -/
def Device.foldSites (d : Device) (f : Nat) : List Nat :=
  ((List.range 40).filterMap d.siteOf).filter fun n => (d.site n).fold = f
/-- Fold pen index of a site (R137). -/
def Device.penOf (d : Device) (n : Nat) : Nat := (d.foldSites (d.site n).fold).idxOf n
/-- Whether the site carries a pen of a fold that is in service. -/
def Device.inFold (d : Device) (n : Nat) : Bool := (d.site n).state = 0 && (d.site n).logical < 40
/-- Usable LPDDR5X in bytes: 480 GiB on L512, 240 GiB on L256 (R17). -/
def Device.usable (d : Device) : Nat := if (d.idrev.toNat >>> 8) % 16 = 1 then 480 * 2 ^ 30 else 240 * 2 ^ 30
/-- A fold's share S (R17, R297). -/
def Device.share (d : Device) : Nat := d.usable / d.foldCount
/-- Whether the device is in full service (stage S4). -/
def Device.full (d : Device) : Bool := d.bring.stage = 4
/-- Start of the paddock windows (R137). -/
def padBase : Nat := 0x200000000000
/-- Bytes of a paddock. -/
def padSize : Nat := 0x4000000

/-- What a local address names: an LPDDR5X byte by device data address, or a paddock byte. -/
inductive Place where
  | lp (a : Nat)
  | pad (n off : Nat)
  deriving DecidableEq, Repr

/-- Whether a local address lies in a paddock window of R137. -/
def inWindow (x : Nat) : Bool := padBase ≤ x && x < padBase + 40 * padSize

/-- The place a fold-relative local address names; none outside the fold, and for LPDDR5X before full
service (R137, R138, R292, R297). -/
def Device.place (d : Device) (f x : Nat) : Option Place :=
  if x < d.share then (if d.full then some (.lp (f * d.share + x)) else none)
  else if inWindow x then
    (d.foldSites f)[x % padBase / padSize]?.map fun n => .pad n (x % padSize)
  else none

/-- Whether a range of local addresses lies in one region of the fold: its share, or the paddocks of its
pens (a range may run on into the next pen's window). -/
def Device.owns (d : Device) (f x len : Nat) : Bool :=
  (d.place f x).isSome && (len = 0 || (d.place f (x + len - 1)).isSome) &&
    (decide (x < d.share) == decide (x + len - 1 < d.share) || len = 0)

/-! ## Paddocks (05) -/

/-- Words of a byte range: addresses divided by 8. -/
def wordsOf (a len : Nat) : List Nat := (List.range ((a % 8 + len + 7) / 8)).map (a / 8 + ·)

/-- Veils outside the range of n bytes from a. -/
def cutVeils (vs : List (Nat × Nat × Nat)) (a n : Nat) : List (Nat × Nat × Nat) :=
  vs.flatMap fun v => [(v.1, min v.2.1 a, v.2.2), (max v.1 (a + n), v.2.1, v.2.2)].filter fun w => decide (w.1 < w.2.1)

/-- n bytes of a paddock; zero while it is being cleared (R158); free values where a pre-emption has saved what no layout
is given for (R82). -/
def Site.padBytes (s : Site) (a n : Nat) : List Byte :=
  if s.clearing then List.replicate n 0#8
  else if s.veil = [] then s.pad.bytes a n
  else (s.pad.bytes a n).zipIdx.map fun x =>
    match s.veil.find? fun v => decide (v.1 ≤ a + x.2) && decide (a + x.2 < v.2.1) with
    | some v => Config.savedByte v.2.2 (a + x.2)
    | none => x.1

/-- Poisoned words of a range, with their origin: 1 for a word that came poisoned from LPDDR5X (R189). -/
def Site.padBad (s : Site) (a n : Nat) : List (Nat × Nat) :=
  if s.clearing then [] else
    (wordsOf a n).filterMap fun w =>
      if s.poison.contains w then some (w, if s.poisonMem.contains w then 1 else 0) else none

/-- Write into a paddock: discarded while it is being cleared (R158); a written word is no longer poisoned
(R147), or is written as poison (R148) when named in `bad` (word numbers with their origin). -/
def Site.padWrite (s : Site) (a : Nat) (bs : List Byte) (bad : List (Nat × Nat)) : Site :=
  if s.clearing then s else
  let ws := wordsOf a bs.length
  { s with
    pad := s.pad.store a bs
    veil := cutVeils s.veil a bs.length
    poison := (bad.map (·.1)).foldl nins (s.poison.filter fun w => !ws.contains w)
    poisonMem := ((bad.filter (·.2 = 1)).map (·.1)).foldl nins (s.poisonMem.filter fun w => !ws.contains w) }

/-- A clear of a paddock and its accumulator buffer: zeros, no poison, PAD_CE and PAD_UE cleared (R149,
R157). -/
def Site.cleared (s : Site) : Site :=
  { s with pad := [], poison := [], poisonMem := [], veil := [], padCE := 0, padUE := 0, acc := [], live := [], owner := []
           badRows := s.badRows.filter (2 ^ 20 ≤ ·) }

/-! ## LPDDR5X (10) -/

/-- Byte of a line not written under the key: noise (R299). -/
def noiseByte (k : Key) (a : Nat) : Byte :=
  match k with
  | .drawn n => Config.noise (n + 1) a
  | _ => Config.noise 0 a

/-- Whether a line stored under one key reads as what was written under another: the same key, and one that has not been
destroyed (R298, R299). The tweak of R298, the line's local address, is the same at every access to a line between two
changes of its fold's key (log entry 18). -/
def Key.opens (k line : Key) : Bool := decide (line = k) && decide (k ≠ .none)

/-- The byte at a device data address under a key (R298, R299). -/
def Mem.byte (m : Mem) (k : Key) (a : Nat) : Byte :=
  if k.opens (sget .none m.lineKey (a / 64)) then m.bytes.read a else noiseByte k a

/-- n bytes under a key: only the cells and lines of the range are looked at. -/
def Mem.read (m : Mem) (k : Key) (a n : Nat) : List Byte :=
  let r := m.bytes.filter fun c => decide (a ≤ c.1) && decide (c.1 < a + n)
  let ks := m.lineKey.filter fun c => decide (a / 64 ≤ c.1) && decide (c.1 ≤ (a + n) / 64)
  (List.range n).map fun i => if k.opens (sget .none ks ((a + i) / 64)) then sget 0#8 r (a + i) else noiseByte k (a + i)

/-- Whether a half that the range touches is poisoned: halves are numbered by address div 32 (R304). -/
def Mem.poisoned (m : Mem) (a n : Nat) : Bool :=
  ((List.range ((a % 32 + n + 31) / 32)).map (a / 32 + ·)).any (m.poison.contains ·)

/-- Part of one line written under a key: a partial line is merged with what the line reads as (R300); a
half wholly covered loses its poison, a half partly covered keeps it (R304). Under a destroyed key nothing readable is left
(R299). -/
def Mem.writeLine (m : Mem) (k : Key) (a : Nat) (bs : List Byte) : Mem :=
  let line := a / 64 * 64
  let merged : List Byte := (Mem.read m k line (a - line)) ++ bs ++ Mem.read m k (a + bs.length) (line + 64 - (a + bs.length))
  { m with
    bytes := if k = .none then m.bytes.erase line 64 else m.bytes.store line merged
    lineKey := sset .none m.lineKey (a / 64) k
    poison := m.poison.filter fun h => !(decide (a ≤ 32 * h) && decide (32 * h + 32 ≤ a + bs.length)) }

/-- A write of any length under a key, line by line; fuel is the number of lines. -/
def Mem.writeGo (k : Key) : Nat → Mem → Nat → List Byte → Mem
  | 0, m, _, _ => m
  | _, m, _, [] => m
  | n + 1, m, a, bs =>
    let here := 64 - a % 64
    Mem.writeGo k n (m.writeLine k a (bs.take here)) (a + here) (bs.drop here)

/-- A write of any length. -/
def Mem.write (m : Mem) (k : Key) (a : Nat) (bs : List Byte) : Mem :=
  Mem.writeGo k (bs.length / 64 + 2) m a bs

/-- Poison set on the halves a range touches (R304). -/
def Mem.addPoison (m : Mem) (a n : Nat) : Mem :=
  { m with poison := ((List.range ((a % 32 + n + 31) / 32)).map (a / 32 + ·)).foldl nins m.poison }

/-- Quarter of a device data address (R296). -/
def quarterOf (a : Nat) : Nat := (a / 64 / 15) % 4
/-- Global channel of a device data address (R290, R296). -/
def channelOf (a : Nat) : Nat := let c := a / 64 / 15; 8 * (c % 4) + (c / 4) % 8
/-- Channel address of a device data address (R296). -/
def channelAddr (a : Nat) : Nat := (a / 64 / 15) / 32 * 1024 + (a / 64 % 15) * 64 + a % 64
/-- Channel address of its check field (R293, R296). -/
def checkAddr (a : Nat) : Nat := (a / 64 / 15) / 32 * 1024 + 960 + 4 * (a / 64 % 15)
/-- Package M0 to M7 of a global channel (R290). -/
def packageOf (ch : Nat) : Nat := ch / 4
/-- Column of a channel address (R296). -/
def columnOf (a : Nat) : Nat := bits a 10 0
/-- Bank group and bank of a channel address (R296). -/
def bankOf (a : Nat) : Nat × Nat := (bits a 12 11, bits a 14 13)
/-- Row of a channel address, L512 or L256 (R296). -/
def rowOf (l512 : Bool) (a : Nat) : Nat := bits a (if l512 then 32 else 31) 15
/-- Rank of a channel address (R296). -/
def rankOf (l512 : Bool) (a : Nat) : Nat := let b := if l512 then 33 else 32; bits a b b

/-- The 10 check bits over a half of a stored line and the line's channel address bits [33:6], the line stored as the
ciphertext of its bytes under a key: R293 names the code and no matrix. FREE VALUE, log entry 16. -/
opaque Config.secded (k : Key) (half : List Byte) (address : Nat) : Nat
/-- The check field of a data line (table Check field of one data line): its check bits, over the line as it
is stored, and 3 for a poisoned half (R293, R294). -/
def Mem.checkField (m : Mem) (line : Nat) : Nat :=
  let half (h : Nat) : Nat :=
    Config.secded (sget .none m.lineKey line) (m.bytes.bytes (64 * line + 32 * h) 32) (channelAddr (64 * line) / 64) % 2 ^ 10 +
      (if m.poison.contains (2 * line + h) then 3 * 2 ^ 10 else 0)
  half 0 + 2 ^ 16 * half 1
/-- The 64 bytes of a chunk's check line: a field for each of its 15 data lines, and four bytes of zero (R293). -/
def Mem.checkLine (m : Mem) (chunk : Nat) : List Byte :=
  (List.range 15).flatMap (fun j => leBytes 4 (m.checkField (15 * chunk + j))) ++ List.replicate 4 0#8

/-! ## What an access does in its quarter (R295, R303, R304, R308, R311) -/

/-- Lines of a quarter's cache of check lines: 256 KiB (R295). -/
def cacheLines : Nat := 4096

/-- Use of the check line of a chunk: one not cached is fetched, evicting another from a full cache, which is written back
if it is dirty (R295); which one the spec does not say (free value, log entry 11). A write leaves the line dirty. -/
def Device.useCheck (d : Device) (chunk : Nat) (wr : Bool) : Device :=
  let q := chunk % 4
  let c := (d.quarter q).cache
  match c.find? (·.1 = chunk) with
  | some _ =>
    if wr then d.onQuarter q fun x => { x with cache := x.cache.map fun e => if e.1 = chunk then (chunk, true) else e } else d
  | none =>
    if c.length < cacheLines then d.onQuarter q fun x => { x with cache := x.cache ++ [(chunk, wr)] }
    else (d.onQuarter q fun x => { x with cache := x.cache.eraseIdx (Config.evict d.free % cacheLines) ++ [(chunk, wr)] }).draw

/-- MEM_UE_LO and MEM_UE_HI describe a half of a line (R311). -/
def Quarter.describe (x : Quarter) (addr half kind : Nat) : Quarter :=
  { x with ueValid := true, ueKind := kind, ueHalf := half = 1, ueAddr := addr / 64 * 64 }

/-- Check of one half of a line: a poisoned half is a poison read, not counted; a single-bit error is corrected
and counted; an uncorrectable one is counted and poisons the half (R303, R304). -/
def Device.checkHalf (d : Device) (addr half kind : Nat) (e : Ecc) : Device :=
  let q := quarterOf addr
  let h := addr / 64 * 2 + half
  if d.mem.poison.contains h then d.onQuarter q (·.describe addr half 2)
  else match e with
    | .ok => d
    | .corrected => d.onQuarter q fun x => { x with ce := satAdd 32 x.ce 1 }
    | .uncorrectable =>
      let d := d.onQuarter q fun x => { x.describe addr half kind with ue := satAdd 16 x.ue 1 }
      { d with mem := { d.mem with poison := nins d.mem.poison h } }

/-- A request to a chunk: its channel leaves power-down, its quarter leaves self refresh and its heft wakes, and its check
line is used (R272, R295, R308). -/
def Device.touchChunk (d : Device) (chunk : Nat) (wr : Bool) : Device :=
  let q := chunk % 4
  let d := { d with mem := { d.mem with down := d.mem.down.set (8 * q + chunk / 4 % 8) false } }
  let d := if (d.quarter q).selfRef then d.onHeft (42 + q) fun h => { h with stopped := false } else d
  (d.onQuarter q fun x => { x with selfRef := false, used := d.watch.age }).useCheck chunk wr

/-- A request to a range of device data addresses. -/
def Device.touchMem (d : Device) (a n : Nat) (wr : Bool) : Device :=
  if n = 0 then d else
  ((List.range ((a % 960 + n + 959) / 960)).map (a / 960 + ·)).foldl (fun d c => d.touchChunk c wr) d

/-- Halves of lines that a range of device data addresses touches. -/
def halvesOf (a n : Nat) : List Nat := (List.range ((a % 32 + n + 31) / 32)).map (a / 32 + ·)

/-- The worst of the errors named within a half. -/
def halfErr (errs : List (Nat × Ecc)) (h : Nat) : Ecc :=
  let es := errs.filter fun e => e.1 / 32 = h
  if es.any (·.2 = .uncorrectable) then .uncorrectable else if es.any (·.2 = .corrected) then .corrected else .ok

/-- What a read of a range of device data addresses does to its quarters, `errs` by device data address (R303, R304,
R311). -/
def Device.memRead (d : Device) (a n : Nat) (errs : List (Nat × Ecc)) : Device :=
  let d := d.touchMem a n false
  if d.mem.poison = [] ∧ errs = [] then d
  else (halvesOf a n).foldl (fun d h => d.checkHalf (h * 32) (h % 2) 0 (halfErr errs h)) d

/-- A write of a range of device data addresses under a key; the merge of a line that is not wholly covered reads it, and
with it the poison of a half that stays (R300, R304). `bad` names the words that are written as poison. -/
def Device.memWrite (d : Device) (k : Key) (a : Nat) (bs : List Byte) (bad : List (Nat × Nat)) : Device :=
  let d := d.touchMem a bs.length true
  let d := if d.mem.poison = [] then d else
    (halvesOf (a / 64 * 64) ((a + bs.length + 63) / 64 * 64 - a / 64 * 64)).foldl (fun d h =>
      if d.mem.poison.contains h && !(decide (a ≤ 32 * h) && decide (32 * h + 32 ≤ a + bs.length)) then
        d.checkHalf (h * 32) (h % 2) 0 .ok
      else d) d
  { d with mem := bad.foldl (fun m w => m.addPoison (a + 8 * w.1) 8) (d.mem.write k a bs) }

/-! ## Local addresses -/

/-- The fold that a place belongs to: by address, or the site's fold. -/
def Device.keyAt (d : Device) (a : Nat) : Key := (d.fold (a / d.share)).key

/-- n bytes at a local address of a fold, byte by byte over the places it names; 0 where it names none. -/
def Device.readLocal (d : Device) (f x n : Nat) : List Byte :=
  match d.place f x with
  | some (.lp a) => d.mem.read (d.fold f).key a n
  | some (.pad s off) =>
    if off + n ≤ padSize then (d.site s).padBytes off n
    else (List.range n).map fun i =>
      match d.place f (x + i) with
      | some (.pad s off) => ((d.site s).padBytes off 1).headD 0#8
      | _ => 0#8
  | none => List.replicate n 0#8

/-- Poisoned words of a range of local addresses: index within the range, and origin. A read that touches a
poisoned half of a line delivers every word it takes from the line as poison (R304). -/
def Device.poisonWords (d : Device) (f x n : Nat) : List (Nat × Nat) :=
  match d.place f x with
  | some (.lp a) =>
    if d.mem.poison = [] then [] else
    (List.range ((n + 7) / 8)).filterMap fun i =>
      let line := (a + 8 * i) / 64 * 64
      let lo := max a line
      if d.mem.poisoned lo (min (a + n) (line + 64) - lo) then some (i, 1) else none
  | some (.pad s off) => ((d.site s).padBad off n).map fun w => (w.1 - off / 8, w.2)
  | none => []

/-! ## Errors of paddock words (R146 to R149) -/

/-- A paddock word found uncorrectable: poisoned, counted, described (R147, R149). -/
def Site.padBroken (t : Site) (word kind : Nat) : Site :=
  { t with poison := nins t.poison word, poisonMem := ndel t.poisonMem word, padUE := satAdd 16 t.padUE 1
           ueValid := true, ueKind := kind, ueWord := word }
/-- A poisoned word read (R148, R149). -/
def Site.padPoisoned (t : Site) (word : Nat) : Site := { t with ueValid := true, ueKind := 2, ueWord := word }

/-- One paddock word read by a transfer: a poisoned word is a poison read, a corrected error is counted, an
uncorrectable one poisons its word (R146, R148). -/
def Site.transferWord (t : Site) (word : Nat) (e : Ecc) : Site :=
  if t.poison.contains word then t.padPoisoned word
  else match e with
    | .ok => t
    | .corrected => { t with padCE := satAdd 32 t.padCE 1 }
    | .uncorrectable => t.padBroken word 0

/-- The words of a byte range read by a transfer; errors by word number. -/
def Site.transferRead (t : Site) (a n : Nat) (errs : List (Nat × Ecc)) : Site :=
  if t.clearing ∨ (t.poison = [] ∧ errs = []) then t
  else (wordsOf a n).foldl (fun t w => t.transferWord w (((errs.find? (·.1 = w)).map (·.2)).getD .ok)) t

/-- Pieces of a range of local addresses, cut at the ends of paddock windows. -/
def windowsGo : Nat → Nat → Nat → List (Nat × Nat)
  | 0, _, _ => []
  | k + 1, x, n =>
    if n = 0 then [] else
    let m := if inWindow x then min n (padSize - x % padSize) else n
    (x, m) :: windowsGo k (x + m) (n - m)
/-- Pieces of a range. -/
def windowsOf (x n : Nat) : List (Nat × Nat) := windowsGo (n / padSize + 2) x n

/-- What a transfer's read of a range of local addresses does to the paddock words and the lines in it; `errs` by
fold-relative local address. -/
def Device.transferRead (d : Device) (f x n : Nat) (errs : List (Nat × Ecc)) : Device :=
  (windowsOf x n).foldl (fun d p =>
    let here := errs.filter fun e => decide (p.1 / 8 ≤ e.1 / 8) && decide (e.1 < p.1 + p.2)
    match d.place f p.1 with
    | some (.pad s off) => d.onSite s (·.transferRead off p.2 (here.map fun e => (off / 8 + (e.1 / 8 - p.1 / 8), e.2)))
    | some (.lp a) => d.memRead a p.2 (here.map fun e => (a / 8 * 8 + (e.1 / 8 - p.1 / 8) * 8, e.2))
    | none => d) d

/-- Whether a word of a range of local addresses is poisoned. -/
def Device.poisonLocal (d : Device) (f x n : Nat) : Bool := d.poisonWords f x n ≠ []

/-- Bytes written at a local address of a fold; nothing where the address is none of the fold's. `bad` names
the words (by index within the range, with origin) that travel as poison. -/
def Device.writeLocal (d : Device) (f x : Nat) (bs : List Byte) (bad : List (Nat × Nat)) : Device :=
  match d.place f x with
  | some (.lp a) => d.memWrite (d.fold f).key a bs bad
  | some (.pad s off) =>
    if off + bs.length ≤ padSize then
      d.onSite s fun t => t.padWrite off bs (bad.map fun w => (w.1 + off / 8, w.2))
    else
      (List.range bs.length).foldl (fun d i =>
        match d.place f (x + i) with
        | some (.pad s off) => d.onSite s fun t => t.padWrite off [bs.getD i 0#8] []
        | _ => d) d
  | none => d

/-! ## The host port (R350, R402, R429; log entries 10 and 128) -/

/-- Bytes written to host memory: on this device's port, or by packets of kind 5 on the bellwether's, each with its address
and as many bytes as fit behind it. -/
def Device.hostWrite (d : Device) (a : Nat) (bs : List Byte) : Device :=
  if d.tunnelled then
    (chunks 4088 ((bs.length + 4087) / 4088) bs).zipIdx.foldl (fun d x =>
      d.sendTo { d.packetTo d.bellRank 1 5 with data := leBytes 8 (a + 4088 * x.2) ++ x.1 }) d
  else { d with host := d.host.store a bs }

/-- The request part of a read of host memory leaves under its tag: on this device's port, or as a packet of kind 4. -/
def Device.readOut (d : Device) (tag : Nat) (r : HostReq) : Device :=
  if d.tunnelled then d.sendTo { d.packetTo d.bellRank 1 4 with tally := tag, data := leBytes 8 r.addr ++ leBytes 8 r.len }
  else d.emit (.hostRead tag r.addr r.len)

/-- Reads of a source outstanding. -/
def HostPort.heldBy (p : HostPort) (src : Nat) : Nat := (p.tags.filter fun e => e.2.1 = src).length

/-- Whether a source may have one more read outstanding (R402). -/
def HostPort.may (p : HostPort) (src : Nat) : Bool := decide (p.tags.length < 4096) && decide (p.heldBy src < 1024)

/-- The smallest tag not in use. -/
def HostPort.freeTag (p : HostPort) : Nat := ((List.range 4096).find? fun t => !p.tags.any (·.1 = t)).getD 0

/-- The source whose turn it is among those with a waiting read that may go: the next above the one served last, else the
lowest (R402). -/
def HostPort.nextSource (p : HostPort) : Option Nat :=
  let cs := (p.waiting.map (·.src)).filter p.may
  match (cs.filter (p.turn < ·)).min? with
  | some s => some s
  | none => cs.min?

/-- The oldest waiting read of a source, as far as one request goes, and those that wait after it. -/
def takeWaiting (max src : Nat) : List HostReq → Option (HostReq × List HostReq)
  | [] => none
  | r :: l =>
    if r.src = src then
      if r.len ≤ max then some (r, l)
      else some ({ r with len := max }, { r with off := r.off + max, addr := r.addr + max, len := r.len - max } :: l)
    else (takeWaiting max src l).map fun x => (x.1, r :: x.2)

/-- Waiting reads leave, one source at a time, in turn, while there are tags for them (R402). Fuel is a number of requests. -/
def Device.serveReads : Nat → Device → Device
  | 0, d => d
  | n + 1, d =>
    match d.hport.nextSource with
    | none => d
    | some src =>
      match takeWaiting d.hport.maxRead src d.hport.waiting with
      | none => d
      | some (r, l) =>
        let tag := d.hport.freeTag
        let d : Device := { d with hport := { d.hport with tags := d.hport.tags ++ [(tag, src, some r)], waiting := l, turn := src } }
        Device.serveReads n (d.readOut tag r)

/-- A read of host memory asked for; it waits for a tag where none may be had (R402). -/
def Device.askRead (d : Device) (src : Nat) (job : Job) (addr len : Nat) : Device :=
  Device.serveReads 4096 { d with hport := { d.hport with waiting := d.hport.waiting ++ [⟨src, job, 0, addr, len⟩] } }

/-- Nothing awaits the reads of some jobs any more: what waits is dropped, and the data of what is outstanding. -/
def HostPort.drop (p : HostPort) (g : Job → Bool) : HostPort :=
  { p with
    waiting := p.waiting.filter fun r => !g r.job
    moves := p.moves.filter fun e => !g e.1
    tags := p.tags.map fun e => (e.1, e.2.1, e.2.2.bind fun r => if g r.job then none else some r) }
/-- Nothing awaits the reads of some jobs any more. -/
def Device.dropJobs (d : Device) (g : Job → Bool) : Device := { d with hport := d.hport.drop g }

/-- Whether an SQ's fetch is under way. -/
def HostPort.fetching (p : HostPort) (sq : Nat) : Bool :=
  p.waiting.any (fun r => r.job = .fetch sq) ||
    p.tags.any fun e => match e.2.2 with | some r => decide (r.job = .fetch sq) | none => false

/-- A DMA's reads begin: what is still to come of it is kept with its job. -/
def Device.askDma (d : Device) (src : Nat) (job : Job) (addr len : Nat) : Device :=
  ({ d with hport := { d.hport with moves := d.hport.moves ++ [(job, len, 0)] } } : Device).askRead src job addr len

/-! ## Tallies (R197) -/

/-- Where a tally is held: a site's number and pen tally, or a global tally of the device. -/
inductive TallyAt where
  | pen (n t : Nat)
  | global (g : Nat)
  deriving DecidableEq, Repr

/-- First identifier of the global tallies. -/
def globalBase : Nat := 122880
/-- Global tallies of each fold. -/
def Device.globals (d : Device) : Nat := 8192 / d.foldCount

/-- The tally a fold-relative identifier names (table Tally identifiers). -/
def Device.tallyAt (d : Device) (f id : Nat) : Option TallyAt :=
  if id < globalBase then (d.foldSites f)[id / 3072]?.map fun n => .pen n (id % 3072)
  else if id < globalBase + d.globals then some (.global (f * d.globals + (id - globalBase)))
  else none

/-- A tally's value. -/
def Device.tallyGet (d : Device) : TallyAt → W32
  | .pen n t => sget 0#32 (d.site n).tally t
  | .global g => sget 0#32 d.gtally g

/-- A tally set. -/
def Device.tallyPut (d : Device) (p : TallyAt) (v : W32) : Device :=
  match p with
  | .pen n t => d.onSite n fun s => { s with tally := sset 0#32 s.tally t v }
  | .global g => { d with gtally := sset 0#32 d.gtally g v }

/-- Whether a tally has reached a threshold: (value - v) mod 2^32 below 2^31 (R198). -/
def reached (value thr : W32) : Bool := (value - thr).toNat < 2 ^ 31

/-- Whether the tally of an identifier has reached a threshold. -/
def Device.tallyReached (d : Device) (f id thr : Nat) : Bool :=
  match d.tallyAt f id with
  | some p => reached (d.tallyGet p) (BitVec.ofNat 32 thr)
  | none => false

/-! ## Control flits (R245) and the trace (R536) -/

/-- Kind of a control flit (table Control flit). -/
def flitKind : CtlFlit → Nat
  | .tallyAdd .. => 1 | .tallySet .. => 2 | .musterArrive .. => 3 | .musterRelease .. => 4
  | .setupAddr .. => 5 | .setupData .. => 6 | .rampReq .. => 7 | .rampGrant .. => 8 | .eventFrag .. => 9

/-- Fold of a flit of kinds 1 to 4. -/
def flitFold : CtlFlit → Option Nat
  | .tallyAdd f .. | .tallySet f .. | .musterArrive f .. | .musterRelease f .. => some f
  | _ => none

/-- Station and port of a pen or of the hub, for a tally. -/
def Device.dstOf (d : Device) (f id : Nat) : Nat × Nat :=
  match d.tallyAt f id with
  | some (.pen n _) => (stationOf n, dportOf n)
  | _ => (0, 2)

/-- The 64 bits of a flit (table Control flit). -/
def Device.flitWord (d : Device) (c : CtlFlit) : Nat :=
  let w (dst : Nat × Nat) (fold id value : Nat) : Nat :=
    flitKind c * 2 ^ 60 + dst.1 * 2 ^ 54 + dst.2 * 2 ^ 52 + fold * 2 ^ 49 + id * 2 ^ 32 + value % 2 ^ 32
  match c with
  | .tallyAdd f id inc => w (d.dstOf f id) f id inc
  | .tallySet f id v => w (d.dstOf f id) f id v
  | .musterArrive f slot group _ => w (0, 2) f (group * 2 ^ 11 + slot * 2 ^ 9) 0
  | .musterRelease f slot group n pos => w (stationOf n, dportOf n) f (group * 2 ^ 11 + slot * 2 ^ 9 + pos * 8) 0
  | .setupAddr _ rd off => w (0, 2) 0 (if rd then 2 ^ 16 else 0) off
  | .setupData _ refused v => w (0, 2) 0 (if refused then 1 else 0) v
  | .rampReq _ up => w (0, 2) 0 (if up then 0 else 2 ^ 16) 0
  | .rampGrant n _ => w (stationOf n, dportOf n) 0 0 0
  | .eventFrag _ v => w (0, 2) 0 0 v

/-- Whether a flit was issued by the crook as a setup access (R537). -/
def flitCrook : CtlFlit → Bool
  | .setupAddr c _ _ | .setupData c _ _ => c
  | _ => false

/-- Whether TRACE_FILTER matches a flit (table TRACE_FILTER, R537). -/
def Trace.matches (t : Trace) (c : CtlFlit) : Bool :=
  t.enable && t.kinds.testBit (flitKind c) && !flitCrook c &&
    match flitFold c with
    | some f => t.folds.testBit f
    | none => true

/-- Capture of a flit as it is injected (R536). -/
def Device.capture (d : Device) (c : CtlFlit) : Device :=
  if d.trace.matches c then
    let t := d.trace
    { d with trace := { t with
        buf := sput t.buf t.next (d.now, d.flitWord c)
        next := (t.next + 1) % 65536
        wrapped := t.wrapped || t.next = 65535 } }
  else d

/-- Destination stop of a control flit (R245). -/
def Device.ctlStop (d : Device) (c : CtlFlit) : Nat × Nat :=
  match c with
  | .tallyAdd f id _ | .tallySet f id _ => d.dstOf f id
  | .musterRelease _ _ _ n _ | .rampGrant n _ => stopOf n
  | _ => hubStop

/-- The site at a stop of the bulk and control rings. -/
def siteAt (p : Nat × Nat) : Nat := if p.2 = 1 then (if p.1 = 0 then 41 else 21) else if p.1 ≤ 20 then p.1 else p.1 + 1

/-- Credits toward a stop: none while the handshake after a reset of its heft is due (R242, R269). -/
def Device.room (d : Device) (base : Nat × Nat → Nat) (p : Nat × Nat) : Nat :=
  if p.2 < 2 ∧ (d.heft (siteAt p)).handshake then 0 else base p

/-- A control flit issued at a stop: captured as it is injected, and on the ring, or waiting there for a credit (R242,
R536). -/
def Device.inject (d : Device) (src : Nat × Nat) (c : CtlFlit) : Device :=
  let d := d.capture c
  let dst := d.ctlStop c
  { d with fabric := { d.fabric with
    ctl := injectAll (d.room ctlRoom) (d.fabric.ctl ++ [⟨c, src, dst, ctlLane src dst, false, 0, none, 0⟩]) } }

/-- The local watch copy of a heft: the device's count, which R284 lets it differ from by a tick at most, or the count at
which its clock stopped. -/
def Device.copyOf (d : Device) (h : Nat) : Nat := if (d.heft h).stopped then (d.heft h).copy else d.now

/-- A stopped heft wakes, its watch copy refreshed (R272). -/
def Device.wake (d : Device) (h : Nat) : Device := d.onHeft h fun x => { x with stopped := false }

/-- Arrival of a control flit with its effect `g`: taken off the ring, in the order of its lane (R257); nothing arrives while
another goes before it. One not on the ring is injected with its arrival (log entry 23). A write into a crossing queue wakes
the heft behind it (R272). -/
def Device.onArrive (d : Device) (c : CtlFlit) (g : Device → Device) : Device :=
  let woken (d : Device) : Device := match c with
    | .musterRelease _ _ _ n _ | .rampGrant n _ => d.wake n
    | .tallyAdd f id _ | .tallySet f id _ => match d.tallyAt f id with | some (.pen n _) => d.wake n | _ => d
    | _ => d
  match arriveGo (fun x => decide (x = c)) [] d.fabric.ctl with
  | some (x, l) => g (woken { d with fabric := { d.fabric with ctl := refill (d.room ctlRoom) x l } })
  | none => if d.fabric.ctl.any (·.flit = c) then d else g (woken (d.capture c))

/-! ## Comparators (R202, R285, R495) -/

/-- A request for V: it joins a comparator holding V or takes a free one; none where neither is (R202). -/
def Watch.join (w : Watch) (v cls fold : Nat) (u : CmpUser) : Option Watch :=
  match w.cmps.findIdx? (fun c => match c with | some c => c.v = v | none => false) with
  | some i => some { w with cmps := w.cmps.modify i fun c => c.map fun c => { c with users := c.users ++ [u] } }
  | none =>
    match w.cmps.findIdx? (·.isNone) with
    | some i => some { w with cmps := w.cmps.set i (some ⟨v, cls, fold, [u]⟩) }
    | none => none

/-- A comparator without a user: released when its last user ends (R202). -/
def Comparator.drop (c : Comparator) (p : CmpUser → Bool) : Option Comparator :=
  let us := c.users.filter fun u => !p u
  if us = [] then none else some { c with users := us }

/-- Release of the requests of the users named by p. -/
def Watch.release (w : Watch) (p : CmpUser → Bool) : Watch :=
  { w with cmps := w.cmps.map fun c => c.bind (·.drop p) }

/-! ## Hefts (R262) -/

/-- A step code as it acts: 5 to 7 act as 4 (table HEFT_CTRL). -/
def actStep (c : Nat) : Nat := min c 4
/-- The step that the three limits ask: the slowest (R262). -/
def Heft.asked (h : Heft) : Nat := max (actStep h.ceiling) (max h.governor h.monitor)
/-- The step the heft is to run at: 425 MHz while bring-up fixes it, no slower than that while its paddock is being cleared
(R157, R262, R481). -/
def Heft.target (h : Heft) : Nat := if h.fixed then 3 else if h.clear then min 3 h.asked else h.asked
/-- HEFT_STATE.cause (table HEFT_STATE). -/
def Heft.cause (h : Heft) : Nat :=
  if h.holdover then 4 else if h.fixed ∨ (h.clear ∧ 3 < h.asked) then 5 else if h.asked = 0 then 0
  else if actStep h.ceiling = h.asked then 1 else if h.governor = h.asked then 2 else 3

/-- A heft's PLL follows its limits: a slew begins, or turns to the new step; none in holdover (R262, R263, R275). -/
def Heft.follow (h : Heft) : Heft :=
  if h.holdover ∨ h.step = h.target then h else { h with step := h.target, slewing := true, aligned := [] }

/-- VCORE in millivolts that a step needs: within 0.62 V to 0.82 V (R476; log entry 134). -/
def vcoreFor (step : Nat) : Nat := 620 + Config.vcoreOver step % 201

/-- VCORE that the hefts of a half need at the steps their PLLs follow. -/
def Device.vcoreNeed (d : Device) (half : Nat) : Nat :=
  ((List.range 21).map (· + 21 * half)).foldl (fun v h => max v (vcoreFor (d.heft h).step)) 0

/-- VCORE of each half raised, where its hefts need more, before a faster step is run (R476). -/
def Device.supply (d : Device) : Device :=
  if !d.power.rails then d
  else { d with power := { d.power with
    vcoreA := max d.power.vcoreA (d.vcoreNeed 0), vcoreB := max d.power.vcoreB (d.vcoreNeed 1) } }

/-! ## Completion of descriptors (R409, R410, R419) -/

/-- Entries of a ring. -/
def Ring.entries (r : Ring) : Nat := 2 ^ r.size
/-- Distance between positions (13, Positions, doorbells and phase). -/
def Ring.dist (r : Ring) (p q : Nat) : Nat := (q + 2 * r.entries - p) % (2 * r.entries)
/-- Index of a position. -/
def Ring.index (r : Ring) (p : Nat) : Nat := p % r.entries
/-- Wrap bit of a position. -/
def Ring.wrap (r : Ring) (p : Nat) : Nat := p / r.entries % 2
/-- Base address. -/
def Ring.base (r : Ring) : Nat := r.baseHi * 2 ^ 32 + r.baseLo

/-- Function that serves an owner: PF0 for management, the VF of a fold (R395). -/
def ownerFn (owner : Nat) : Nat := if owner < 8 then owner + 1 else 0

/-- One MSI-X message on a CQ's vector: of the owner's function, or by a packet of kind 3 of the bellwether's PF0 when this
device's rings are tunnelled (R350, R429). -/
def Device.msix (d : Device) (r : Ring) : Device :=
  if d.tunnelled then d.sendTo { d.packetTo d.bellRank 1 3 with tally := r.link } else d.emit (.msix (ownerFn r.owner) r.link)

/-- A descriptor's byte fields. -/
def Desc.u (x : Desc) (off n : Nat) : Nat := leNat ((x.bytes.drop off).take n)
/-- Opcode. -/
def Desc.op (x : Desc) : Nat := x.u 0 1
/-- Fence flag. -/
def Desc.fence (x : Desc) : Bool := bit (x.u 1 1) 0
/-- Quiet flag. -/
def Desc.quiet (x : Desc) : Bool := bit (x.u 1 1) 1
/-- Drive slot. -/
def Desc.slot (x : Desc) : Nat := x.u 2 1
/-- Tag. -/
def Desc.tag (x : Desc) : Nat := x.u 4 4

/-- The descriptor in progress of an SQ entry. -/
def Device.desc (d : Device) (sq idx : Nat) : Option Desc := d.descs.find? fun x => x.sq = sq ∧ x.idx = idx

/-- A completion entry's 16 bytes (table Completion entry). -/
def cqEntry (x : Desc) (head detail status phase : Nat) : List Byte :=
  leBytes 4 x.tag ++ leBytes 2 x.idx ++ leBytes 2 head ++ leBytes 4 (detail % 2 ^ 32) ++
    leBytes 4 (x.sq + status * 2 ^ 16 + phase * 2 ^ 31)

/-- Writing of an entry into a CQ at its tail, with its phase and the interrupt of R410; a halted CQ writes
nothing (R407). -/
def Device.post (d : Device) (x : Desc) (status detail : Nat) : Device :=
  let sq := d.ring x.sq
  let c := 512 + sq.link
  let cq := d.ring c
  if cq.state ≠ 1 then d.setRing c { cq with reserved := cq.reserved - 1 } else
  let d := d.hostWrite (cq.base + 16 * cq.index cq.pos) (cqEntry x (sq.index sq.pos) detail status (1 - cq.wrap cq.pos))
  let d := d.setRing c { cq with pos := (cq.pos + 1) % (2 * cq.entries), reserved := cq.reserved - 1, arm := false }
  if cq.arm then d.msix cq else d

/-- A draining SQ becomes disabled when its last descriptor in progress has completed (R405). -/
def Device.drained (d : Device) (sq : Nat) : Device :=
  let r := d.ring sq
  if r.state = 2 ∧ !d.descs.any (·.sq = sq) then d.setRing sq { r with state := 0, cause := 0 } else d

/-- Fold that a ring's descriptors act on: its owner, or fold 0 for a management ring (R402 to R411). -/
def Device.ringFold (d : Device) (sq : Nat) : Nat := let o := (d.ring sq).owner; if o < 8 then o else 0

/-- Completion of one descriptor with a status and detail: a quiet OK releases its reserved entry unwritten
(13, Completions). -/
def Device.finish (d : Device) (sq idx status detail : Nat) : Device :=
  match d.desc sq idx with
  | none => d
  | some x =>
    let d := d.dropJobs fun j => decide (j = .ring sq idx)
    let d := { d with descs := d.descs.filter fun y => !(y.sq = sq ∧ y.idx = idx) }
    let d :=
      if x.quiet ∧ status = 0 then
        let c := 512 + (d.ring sq).link
        let cq := d.ring c
        d.setRing c { cq with reserved := cq.reserved - 1 }
      else d.post x status detail
    d.drained sq

/-- Whether an opcode names a descriptor (table Descriptor opcodes). -/
def Desc.known (x : Desc) : Bool := [0x01, 0x02, 0x03, 0x10, 0x11, 0x12, 0x13, 0x20, 0x21, 0x22].contains x.op
/-- LAUNCH, STEP, RUN and END, which name a drive slot. -/
def Desc.onDrive (x : Desc) : Bool := 0x10 ≤ x.op && x.op ≤ 0x13

/-- A DMA with its own wait (R412). -/
def Desc.waits (x : Desc) : Bool := x.op = 0x01 && bit (x.u 28 4) 26

/-- Whether a descriptor may start (R408): in ring order, at most 16 in progress, fences, WAITs, and the drive
descriptors of one slot. A DMA that waits for its tally counts as in progress and holds nothing back. -/
def Device.startable (d : Device) (x : Desc) : Bool :=
  let mine := d.descs.filter fun y => y.sq = x.sq
  let earlier := mine.filter fun y => y.order < x.order
  let busy (y : Desc) : Bool := y.started || (y.waits && (!y.fence || mine.all fun z => y.order ≤ z.order))
  !x.started && decide ((mine.filter fun y => y.started || (y.waits && y.order < x.order)).length < 16) &&
    (!x.fence || earlier = []) && earlier.all (fun y => y.op ≠ 0x03 && busy y) &&
    (!x.onDrive || d.descs.all fun y =>
      !(y.onDrive && y.slot = x.slot && d.ringFold y.sq = d.ringFold x.sq && y.order < x.order) ||
        (y.op = 0x11 && y.started))

/-- Descriptors with a reserved opcode complete with BAD_DESCRIPTOR as they become startable (R411). -/
def Device.sweepGo : Nat → Device → Nat → Device
  | 0, d, _ => d
  | n + 1, d, sq =>
    match d.descs.find? fun x => x.sq = sq && !x.known && d.startable x with
    | some x => Device.sweepGo n (d.finish sq x.idx 0x01 0) sq
    | none => d

/-- Completion of a descriptor; reserved opcodes behind it follow. -/
def Device.complete (d : Device) (sq idx status detail : Nat) : Device :=
  Device.sweepGo 16 (d.finish sq idx status detail) sq

/-! ## Stopping a drive (R208, R209, R237, R419, R420) -/

/-- Completion of the STEP of an open or prepared step. -/
def Device.completeStep (d : Device) (r : Option StepRec) (status detail : Nat) : Device :=
  match r with
  | some { desc := some (sq, idx), .. } => d.complete sq idx status detail
  | _ => d

/-- Numbers of the STEP descriptors in progress for a drive of a fold. -/
def Device.stepDescs (d : Device) (f s : Nat) : List (Nat × Nat) :=
  (d.descs.filter fun x => x.op = 0x11 ∧ x.slot = s ∧ d.ringFold x.sq = f).map fun x => (x.sq, x.idx)

/-- Every STEP of a drive still in progress completes with a status (R419). -/
def Device.abortSteps (d : Device) (f s status : Nat) : Device :=
  (d.stepDescs f s).foldl (fun d p => d.complete p.1 p.2 status 0) d

/-- Release of the comparators of the waits of a list of sites (R205, R422). -/
def Device.releaseWaits (d : Device) (ns : List Nat) : Device :=
  { d with watch := d.watch.release fun u => match u with | .wait n _ _ => ns.contains n | _ => false }

/-- The shears abandon a drive's accepted requests (R237), and its COLLECTs that have not begun read no line
(R208). -/
def Device.abandon (d : Device) (f s : Nat) : Device :=
  { d with
    shears :=
      { mem := d.shears.mem.map fun q => q.filter fun r => !(r.fold = f ∧ r.slot = s)
        link := d.shears.link.filter fun r => !(r.fold = f ∧ r.slot = s) }
    coll := { d.coll with queue := d.coll.queue.filter fun c => !(c.fold = f ∧ c.slot = s) } }

/-- Whether a SHEAR or COLLECT of a queue of a drive's pen is accepted and not yet complete (R166, R169, R170). -/
def Device.accepted (d : Device) (f s pen : Nat) (q : Queue) : Bool :=
  let mine (r : ShearReq) : Bool := r.fold = f && r.slot = s && r.pen = pen && r.q = q
  d.shears.mem.any (·.any mine) || d.shears.link.any mine ||
    d.coll.queue.any fun c => c.fold = f && c.slot = s && c.pen = pen && c.q = q

/-- Whether this device is an active member of a flock that is formed, or recovering, with one fold: a drive on one of
several folds runs with a leaf count of 1 (R19). -/
def Device.active (d : Device) : Bool :=
  (d.flock.state = 2 || d.flock.state = 3) && !d.flock.standby && 0 < d.flock.leafCount && d.foldCount = 1
/-- Leaves a rank hosts, in ascending order. -/
def Flock.hosted (x : Flock) (r : Nat) : List Nat :=
  ((x.leaves.filter (·.1 = r)).flatMap fun e => (List.range e.2.2).map (e.2.1 + ·)).foldl nins []
/-- A drive ends with a status: every step of R208. The fold's fault record is written, the drive stays
resident and stopped, its STEPs complete by R419, the shears act by R237, its pens stop, and in a flock the
stop is reported (R379). -/
def Device.stopDrive (d : Device) (f s source status pen addr : Nat) : Device :=
  match d.drive f s with
  | none => d
  | some v =>
    if v.stopped.isSome then d else
    let stopRec : StopRec := ⟨source, status, pen, addr, d.now⟩
    let d := d.onDrive f s fun v => { v with stopped := some stopRec }
    let ran := (d.fold f).running = some s
    let d := d.onFold f fun o => { o with
      running := if ran then none else o.running
      fValid := true, fSource := source, fSlot := s, fPen := pen, fStatus := status, fAddr := addr, fWatch := d.now }
    let d := if ran then d.onSites (d.foldSites f) fun t => { t with
        stops := if t.stops.contains .drive then t.stops else .drive :: t.stops, replay := none, inRow := 0 } else d
    let d := d.abandon f s
    let detail := status + pen * 256
    let d := d.completeStep v.opened 0x0B detail
    let d := d.completeStep v.prepared 0x0B detail
    let d := d.abortSteps f s 0x0C
    let d := (d.descs.filter fun x => x.op = 0x12 ∧ x.slot = s ∧ x.started ∧ d.ringFold x.sq = f).foldl
      (fun d x => d.complete x.sq x.idx 0x0B detail) d
    if d.active ∧ !v.unlogged ∧ !(source = 0 ∧ status = 0x0E) then
      if source = 0 ∧ status = 0x20 then d.declareFailed
      else d.tellBell (.failure d.flock.rank (.stopped status (match v.opened with | some r => (r.leaves.head?.map (·.leaf)).getD 0 | none => 0)
        (match v.opened with | some r => r.number | none => v.last)))
    else d

/-- A stream command of the running drive of site n ends with a status (R208). -/
def Device.stopAt (d : Device) (n status addr : Nat) : Device :=
  let f := (d.site n).fold
  match (d.fold f).running with
  | some s => d.stopDrive f s 0 status (d.penOf n) addr
  | none => d

/-- A drive of a fold ends with a status that no stream command raised; the pen and address recorded are open (log entry
11). -/
def Device.stopOpen (d : Device) (f s status : Nat) : Device :=
  (d.stopDrive f s 0 status (Config.unnamed (2 * d.free) % 64) (Config.unnamed (2 * d.free + 1))).draw

/-! ## Increments (R142, R156, R171, R199) -/

/-- Whether a tally lies in a row that holds an uncorrectable word (R155). -/
def Device.tallyBad (d : Device) : TallyAt → Bool
  | .pen n t => (d.site n).badRows.contains (2 ^ 20 + t / 32)
  | .global g => d.gateRows.badRows.contains (g / 32)

/-- An uncorrectable tally stops the running drive of the fold that owns it (R156). -/
def Device.tallyStop (d : Device) : TallyAt → Device
  | .pen n _ => (d.stopAt n 0x09 (Config.unnamed d.free)).draw
  | .global g =>
    let f := g / d.globals
    match (d.fold f).running with
    | some s => d.stopOpen f s 0x09
    | none => d

/-- An increment modulo 2^32 (R199); nothing where the identifier names no tally. -/
def Device.tallyAdd (d : Device) (f id inc : Nat) : Device :=
  match d.tallyAt f id with
  | some p => if d.tallyBad p then d.tallyStop p else d.tallyPut p (d.tallyGet p + BitVec.ofNat 32 inc)
  | none => d

/-- An increment made by site n: applied at once to a tally of its own pen (R142), carried by a control flit
to any other (R171). -/
def Device.bump (d : Device) (n f id inc : Nat) : Device :=
  match d.tallyAt f id with
  | some (.pen m _) => if m = n then d.tallyAdd f id inc else d.inject (stopOf n) (.tallyAdd f id inc)
  | some (.global _) => d.inject (stopOf n) (.tallyAdd f id inc)
  | none => d

/-! ## Refused register writes (R525) -/

/-- A refusal or aperture fault recorded in WRSTAT and WRSTAT_OFFSET of the function, with a code of the table Register
statuses (R526). -/
def Device.refuse (d : Device) (fn status off : Nat) (aperture : Bool) : Device :=
  d.onFn fn fun r => { r with
    valid := true, status := status, count := satAdd 16 r.count 1, kind := aperture, offset := off % 2 ^ 25 }

/-- A telemetry bit of SMB_ALERT raised, not within 1 s of its clearing (R516). -/
def Device.alert (d : Device) (b : Nat) : Device :=
  match slook d.power.cleared b with
  | some t => if d.watch.age < t + 100000000 then d else { d with power := { d.power with alert := d.power.alert ||| 2 ^ b } }
  | none => { d with power := { d.power with alert := d.power.alert ||| 2 ^ b } }

/-! ## Outcome -/

/-- The next state with the device changed and the queue of waiting commands as it stands. -/
def State.act (s : State) (g : Device → Device) : Host.Outcome State Fault Refusal :=
  .next { s with dev := g s.dev }

end Sys2Proof.Machine
end

