-- ==== Sys2Proof/Machine/Operands.lean ====
section
/-!
DEFINITION. Operand forms: packed elements, operand records and their scales (R29, R174, R175), transposing
reads (R134, R135, R110, R540), slot-relative addresses and tallies (R177), and the ranges every command is
checked against (R139, R159, R194, R197).
-/
namespace Sys2Proof.Machine

/-! ## Packed elements -/

/-- Element i of packed elements of w bits (R29). -/
def rawAt (bs : Array Byte) (w i : Nat) : Nat :=
  let b := i * w
  let lo := b / 8
  let v := (bs.getD lo 0).toNat + 256 * (bs.getD (lo + 1) 0).toNat + 65536 * (bs.getD (lo + 2) 0).toNat +
    16777216 * (bs.getD (lo + 3) 0).toNat
  (v >>> (b % 8)) % 2 ^ w

/-- Packing of element codes of w bits into bytes (R29). -/
def packBits (w : Nat) (codes : List Nat) : List Byte :=
  let per := if w = 6 then 4 else if w = 4 then 2 else 1
  (chunks per (codes.length + 1) codes).flatMap fun g =>
    leBytes (per * w / 8) (g.foldr (fun c acc => c % 2 ^ w + acc * 2 ^ w) 0)

/-- Element bytes of n elements. -/
def elemBytes (f : Fmt) (n : Nat) : Nat := n * f.width / 8

/-! ## Records (table Operand records) -/

/-- Contraction elements of a tile step: 64 for an FP4 x FP4 product (R57). -/
def contraction (fa fb : Fmt) : Nat := if fa = .e2m1 ∧ fb = .e2m1 then 64 else 32

/-- Element (r, k) of an A block, row-major (R174): scale r, or 2r + k / 32 for 64 elements. -/
def aElem (f : Fmt) (scl : Bool) (kn : Nat) (es ss : Array Byte) (r k : Nat) : Dec :=
  decodeScaled f (if scl then some (ss.getD (r * (kn / 32) + k / 32) 0).toNat else none) (rawAt es f.width (r * kn + k))

/-- Element (k, j) of a B tile, row-major (R174): scale j, or 2j + k / 32. -/
def bElem (f : Fmt) (scl : Bool) (kn : Nat) (es ss : Array Byte) (k j : Nat) : Dec :=
  decodeScaled f (if scl then some (ss.getD (j * (kn / 32) + k / 32) 0).toNat else none) (rawAt es f.width (k * 64 + j))

/-- An A block as 32 rows of kn elements. -/
def aBlock (f : Fmt) (scl : Bool) (kn : Nat) (es ss : List Byte) : List (List Dec) :=
  let es := es.toArray; let ss := ss.toArray
  (List.range 32).map fun r => (List.range kn).map (aElem f scl kn es ss r)

/-- A B tile as 64 columns of kn elements. -/
def bTile (f : Fmt) (scl : Bool) (kn : Nat) (es ss : List Byte) : List (List Dec) :=
  let es := es.toArray; let ss := ss.toArray
  (List.range 64).map fun j => (List.range kn).map fun k => bElem f scl kn es ss k j

/-- The A block by a transposing read (R540): stored rows at a pitch of 64 elements; A(r, k) is column r of
stored row k, under the one scale of the region. -/
def aBlockT (f : Fmt) (scl : Bool) (kn : Nat) (es ss : List Byte) : List (List Dec) :=
  let es := es.toArray; let sc := (ss.headD 0).toNat
  (List.range 32).map fun r => (List.range kn).map fun k =>
    decodeScaled f (if scl then some sc else none) (rawAt es f.width (k * 64 + r))

/-- Bytes an A operand reads: element bytes, from the record or the transposed region (R540). -/
def aBytes (f : Fmt) (atr : Bool) (kn : Nat) : Nat :=
  if atr then elemBytes f ((kn - 1) * 64) + elemBytes f 32 else elemBytes f (32 * kn)

/-- Scale bytes of an A operand. -/
def aScales (scl : Bool) (kn : Nat) : Nat := if scl then kn else 0
/-- Scale bytes of a B operand. -/
def bScales (scl : Bool) (kn : Nat) : Nat := if scl then 2 * kn else 0

/-- Whether the scales of a transposed region are all equal (R135). -/
def evenScales (ss : List Byte) : Bool := ss.all (· = ss.headD 0)

/-- Bytes of a stored tile record of a FEED: elements then scales (R174). -/
def tileElems (f : Fmt) (fp4p : Bool) : Nat := if fp4p then 2048 else elemBytes f 2048
/-- Scale bytes of a stored tile record. -/
def tileScales (scl fp4p : Bool) : Nat := if !scl then 0 else if fp4p then 128 else 64

/-! ## The transposing entry (R110, R111) -/

/-- Stored tile: rows and columns of element codes, with the scale of each 32-row block of each column. -/
def tileRaw (f : Fmt) (es : Array Byte) (r c : Nat) : Nat := rawAt es f.width (r * 64 + c)

/-- Whether every 32 x 32 block of a stored tile has one scale: blocks are 32 columns of a block row. -/
def evenTile (fp4p : Bool) (ss : List Byte) : Bool :=
  let a := ss.toArray
  let rows := if fp4p then 2 else 1
  (List.range rows).all fun h => [0, 1].all fun cb =>
    (List.range 32).all fun c => a.getD ((32 * cb + c) * rows + h) 0 = a.getD (32 * cb * rows + h) 0

/-- Transposed tiles of a pair W(2j, n), W(2j + 1, n): W^T(2n, j) and W^T(2n + 1, j), as elements and
scales. -/
def transposePair (f : Fmt) (scl : Bool) (e0 s0 e1 s1 : List Byte) : List (List Byte × List Byte) :=
  let w := [e0.toArray, e1.toArray]; let s := [s0.toArray, s1.toArray]
  [0, 1].map fun h =>
    (packBits f.width ((List.range 2048).map fun i =>
        let r := i / 64 + 32 * h; let c := i % 64
        tileRaw f (w.getD (c / 32) #[]) (c % 32) r),
      if scl then (List.range 64).map fun c => (s.getD (c / 32) #[]).getD (32 * h) 0 else [])

/-- Transposed 64 x 64 tile of an FP4 x FP4 product. -/
def transposeQuad (scl : Bool) (e s : List Byte) : List Byte × List Byte :=
  let w := e.toArray; let s := s.toArray
  (packBits 4 ((List.range 4096).map fun i => tileRaw .e2m1 w (i % 64) (i / 64)),
    if scl then (List.range 128).map fun i => s.getD (2 * (32 * (i % 2)) + i / 2 / 32) 0 else [])

/-! ## Slot-relative operands (R177) -/

/-- A paddock word address of a command. -/
def relWord (v : Drive) (rel : Bool) (slot w : Nat) : Nat := if rel then w + slot * v.pstride / 8 else w
/-- A 46-bit local address of a command: adjusted only in a paddock window. -/
def relLocal (v : Drive) (rel : Bool) (slot x : Nat) : Nat := if rel ∧ inWindow x then x + slot * v.pstride else x

/-- Whether a tally identifier lies in the drive's tally extent (R159, R197). -/
def tallyInExtent (v : Drive) (id : Nat) : Bool :=
  if id < globalBase then v.tfirst ≤ id % 3072 && id % 3072 < v.tfirst + v.tcount
  else v.gfirst ≤ id - globalBase && id - globalBase < v.gfirst + v.gcount

/-- The tally a command names, adjusted for its slot, where it lies in the tally table and the drive's
extent; none is BAD_TALLY (R177, R197). -/
def Device.tallyOperand (d : Device) (f : Nat) (v : Drive) (rel : Bool) (slot id : Nat) : Option Nat :=
  let adj := if rel then slot * v.tstride else 0
  let bad := if id < globalBase then 3072 ≤ id % 3072 + adj else globalBase + d.globals ≤ id + adj
  if bad ∨ (d.tallyAt f (id + adj)).isNone ∨ !tallyInExtent v (id + adj) then none else some (id + adj)

/-! ## Extents -/

/-- Bounds of a drive's paddock extent in bytes (R139). -/
def extentLo (v : Drive) : Nat := 2 ^ 20 * v.pbase
/-- End of a drive's paddock extent. -/
def extentHi (v : Drive) : Nat := 2 ^ 20 * (v.pbase + v.psize)
/-- Whether a byte range of a paddock lies in the drive's extent. -/
def inExtent (v : Drive) (off len : Nat) : Bool := extentLo v ≤ off && off + len ≤ extentHi v
/-- Base of a drive's save area: the top 5 MiB of its extent (R82). -/
def saveArea (v : Drive) : Nat := 2 ^ 20 * (v.pbase + v.psize - 5)

/-- Status of a drive's access to a range of local addresses, #00 where it may proceed: outside the fold
ADDRESS_NOT_OWNED; in a paddock, unaligned PADDOCK_ALIGN and outside the extent PADDOCK_BOUNDS (R131, R138,
R139, R189); into the foster region ADDRESS_NOT_OWNED (R372). -/
def Device.access (d : Device) (f : Nat) (v : Drive) (x len : Nat) : Nat :=
  if inWindow x ∧ (x % 8 ≠ 0 ∨ len % 8 ≠ 0) then 0x10
  else if !d.owns f x len then 0x15
  else if x < d.share then
    let base := 2 ^ 30 * bits d.recov.fosterRegion 15 0
    let size := 2 ^ 30 * bits d.recov.fosterRegion 31 16
    if x < base + size ∧ base < x + len then 0x15 else 0
  else
    let off := x % padSize
    if inExtent v off len then 0 else 0x11

/-- Pages of a drive's persistent extent that a range of local addresses touches (R368). -/
def Drive.pagesOf (v : Drive) (x len : Nat) : List Nat :=
  let lo := max x v.xbase
  let hi := min (x + len) (v.xbase + v.xsize)
  if hi ≤ lo then [] else
  (List.range ((hi - 1 - v.xbase) / 32768 + 1 - (lo - v.xbase) / 32768)).map ((lo - v.xbase) / 32768 + ·)

/-- Pages of the logged drives of a fold that a write touches become dirty (R374). -/
def Device.noteDirty (d : Device) (f x len : Nat) : Device :=
  let ps := (d.fold f).drives.flatMap fun e => if e.2.unlogged then [] else e.2.pagesOf x len
  if ps = [] then d else { d with recov := { d.recov with dirty := ps.foldl nins d.recov.dirty } }

/-- Whether a handle index lies in the drive's handle extent (R159, R194). -/
def handleInExtent (v : Drive) (h : Nat) : Bool := v.hfirst ≤ h && h < v.hfirst + v.hcount

/-- Status of the use of a handle value of site n: BAD_HANDLE, HANDLE_NOT_OWNED, or #00 (R194). -/
def Device.handleStatus (d : Device) (n : Nat) (v : Drive) (h : Nat) (use : Bool) : Nat :=
  if 4096 ≤ h then 0x0A
  else if !handleInExtent v h then 0x0B
  else if use ∧ !bit (sget 0#64 (d.site n).handle h).toNat 0 then 0x0A
  else 0

/-- Paddock byte address of a handle's entry. -/
def Device.handleAddr (d : Device) (n h : Nat) : Nat := bits (sget 0#64 (d.site n).handle h).toNat 25 3 * 8
/-- Lot index in the tag of a handle's entry. -/
def Device.handleTag (d : Device) (n h : Nat) : Nat := bits (sget 0#64 (d.site n).handle h).toNat 63 32

/-- End of the region in which a stream address of pen q lies: the share, or the drive's extent of the pen's
own paddock; none is BAD_STREAM_ADDRESS (R159). -/
def Device.streamLimit (d : Device) (n : Nat) (v : Drive) (x : Nat) : Option Nat :=
  if x % 16 ≠ 0 then none
  else if x < d.share then (if d.full then some d.share else none)
  else
    let w := padBase + padSize * d.penOf n
    if w + extentLo v ≤ x ∧ x < w + extentHi v then some (w + extentHi v) else none

/-- The drive that runs on the fold of a site, with its slot. -/
def Device.running (d : Device) (n : Nat) : Option (Nat × Drive) :=
  if !d.inFold n then none else
  let f := (d.site n).fold
  match (d.fold f).running with
  | some s => (d.drive f s).map (s, ·)
  | none => none

end Sys2Proof.Machine
end

