-- ==== Sys2Proof/Machine/Rows.lean ====
section
/-!
DEFINITION. Row sparing of the accumulator buffers, the tally stores and the studbook buffer: counts, spares, poisoned rows
(05, R152 to R156).
-/
namespace Sys2Proof

/-- Code of a structure in events and in the persistent fault record: 0 accumulator, 1 tally store, 2 global
tally store, 3 studbook buffer. -/
def RowStore.code : RowStore → Nat
  | .acc .. => 0 | .tally .. => 1 | .global => 2 | .studbook => 3
/-- Site of a structure, 42 for the gate's. -/
def RowStore.site : RowStore → Nat
  | .acc n _ | .tally n => n
  | _ => 42
/-- Bank. -/
def RowStore.bank : RowStore → Nat
  | .acc _ b => b
  | _ => 0
/-- Rows of a structure (table Spare rows). -/
def RowStore.rows : RowStore → Nat
  | .acc .. => 1024 | .tally .. => 96 | .global => 256 | .studbook => 2048
/-- Spare rows of a structure (table Spare rows). -/
def RowStore.spares : RowStore → Nat
  | .acc .. => 20 | .tally .. => 2 | .global => 5 | .studbook => 41
/-- Whether the structure exists. -/
def RowStore.ok : RowStore → Bool
  | .acc n b => n < 42 && b < 8
  | .tally n => n < 42
  | _ => true
/-- Key of a row within its site or the gate. -/
def RowStore.key (st : RowStore) (row : Nat) : Nat :=
  (match st with | .tally _ | .studbook => 2 ^ 20 | _ => 0) + st.bank * 2 ^ 12 + row
/-- Event data: structure, site, bank, row (R154). -/
def RowStore.data (st : RowStore) (row : Nat) : List Nat := [st.code, st.site, st.bank, row]
/-- Key of a row in the persistent fault record: structure, then the row's key. -/
def RowStore.record (st : RowStore) (row : Nat) : Nat × Nat := (st.code * 64 + st.site, st.key row)

end Sys2Proof
namespace Sys2Proof.Machine

/-- Spare rows used of a structure. -/
def Device.sparesUsed (d : Device) : RowStore → Nat
  | .acc n b => sget 0 (d.site n).accSpared b
  | .tally n => (d.site n).tallySpared
  | .global => d.gateRows.tallySpared
  | .studbook => d.gateRows.bookSpared

/-- Correctable errors of a row. -/
def Device.rowCount (d : Device) (st : RowStore) (row : Nat) : Nat :=
  match st with
  | .acc n _ | .tally n => sget 0 (d.site n).rowErrs (st.key row)
  | _ => sget 0 d.gateRows.rowErrs (st.key row)

/-- Correctable errors of a row set. -/
def Device.setRowCount (d : Device) (st : RowStore) (row k : Nat) : Device :=
  match st with
  | .acc n _ | .tally n => d.onSite n fun t => { t with rowErrs := sset 0 t.rowErrs (st.key row) k }
  | _ => { d with gateRows := { d.gateRows with rowErrs := sset 0 d.gateRows.rowErrs (st.key row) k } }

/-- Whether a copy of a row is under way. -/
def Device.copyingRow (d : Device) (st : RowStore) (row : Nat) : Bool :=
  match st with
  | .acc n _ | .tally n => (d.site n).copying.contains (st.key row)
  | _ => d.gateRows.copying.contains (st.key row)

/-- A spare taken for a row: its copy begins (R154, R155). -/
def Device.takeSpare (d : Device) (st : RowStore) (row : Nat) : Device :=
  let k := st.key row
  let d := match st with
    | .acc n b => d.onSite n fun t => { t with
        accSpared := sset 0 t.accSpared b (sget 0 t.accSpared b + 1), accField := t.accField + 1, copying := nins t.copying k }
    | .tally n => d.onSite n fun t => { t with tallySpared := t.tallySpared + 1, copying := nins t.copying k }
    | .global => { d with gateRows := { d.gateRows with
        tallySpared := d.gateRows.tallySpared + 1, copying := nins d.gateRows.copying k } }
    | .studbook => { d with gateRows := { d.gateRows with
        bookSpared := d.gateRows.bookSpared + 1, copying := nins d.gateRows.copying k } }
  let d := { d with persist := { d.persist with spared := d.persist.spared ++ [st.record row] } }
  d.event .rowSpared (st.data row)

/-- Whether a row holds a word found uncorrectable. -/
def Device.badRow (d : Device) (st : RowStore) (row : Nat) : Bool :=
  match st with
  | .acc n _ | .tally n => (d.site n).badRows.contains (st.key row)
  | _ => d.gateRows.badRows.contains (st.key row)

/-- A row's word is found uncorrectable: it reads so, in the row and in the spare it is copied to, until it is written again
(R155). Which words of a row are poisoned is kept row by row (DESIGN CHOICE, log entry 126). -/
def Device.markBad (d : Device) (st : RowStore) (row : Nat) : Device :=
  match st with
  | .acc n _ | .tally n => d.onSite n fun t => { t with badRows := nins t.badRows (st.key row) }
  | _ => { d with gateRows := { d.gateRows with badRows := nins d.gateRows.badRows (st.key row) } }

/-- A row reports an error: it is counted or poisons the row; at its limit, or on an uncorrectable error, the row takes a
spare, or none is left (R154 to R156). -/
def Device.rowReport (d : Device) (st : RowStore) (row : Nat) (e : Ecc) : Device :=
  if e = .ok then d else
  let d := if e = .corrected then d.setRowCount st row (d.rowCount st row + 1) else d.markBad st row
  if (e = .corrected ∧ (d.hardLimit = 0 ∨ d.rowCount st row < d.hardLimit)) ∨ d.copyingRow st row then d
  else if d.sparesUsed st < st.spares then d.takeSpare st row
  else d.event .spareExhausted (st.data row)

end Sys2Proof.Machine
end

