-- ==== Sys2Proof/Machine/Transfer.lean ====
section
/-!
DEFINITION. Transfers over the bulk rings: flits and read orders issued, stiles, arrival tallies, and the feed flits of the
gate ring (05, R140 to R142; 06, R189; 08, R241 to R248).
-/
namespace Sys2Proof.Machine

/-! ## Bulk rings -/

/-- Stop of stile k on the bulk rings. -/
def stileStop (k : Nat) : Nat × Nat := (stileAt k, 2)

/-- The flits of a write of bytes at a byte offset of site n's paddock, one for each of the pieces of a line `ls` (R131,
R140): `bad` names the words that are poison, by index within the bytes, with their origin. The last carries the arrival
tally. -/
def lineFlits (src : Nat × Nat) (req fold n off : Nat) (bs : List Byte) (bad : List (Nat × Nat)) (tally inc : Nat)
    (ls : List (Nat × Nat)) : List BulkFlit :=
  ls.zipIdx.map fun l =>
    let base := l.1.1 / 64 * 64
    let here (i : Nat) : Bool := decide (l.1.1 ≤ base + 8 * i) && decide (base + 8 * i < l.1.1 + l.1.2)
    let word (i : Nat) : Nat := (base + 8 * i - off) / 8
    { src := src.1, req := req, site := n, off := base
      words := (List.range 8).map fun i =>
        if here i then BitVec.ofNat 64 (leNat ((bs.drop (8 * word i)).take 8)) else 0#64
      mask := (List.range 8).map here
      poison := (List.range 8).map fun i => here i && bad.any (·.1 = word i)
      origin := (List.range 8).map fun i => here i && bad.any fun w => decide (w.1 = word i) && decide (w.2 = 1)
      fold := fold, tally := tally, inc := inc, last := decide (l.2 + 1 = ls.length), cut := false }

/-- Write flits issued at a stop, each on the ring and in the direction of R241. -/
def Device.issueFlits (d : Device) (src : Nat × Nat) (part : Nat) (fs : List BulkFlit) : Device :=
  { d with fabric := { d.fabric with bulk := injectAll (d.room bulkRoom) (d.fabric.bulk ++ fs.map fun f =>
    ⟨.write f, src, stopOf f.site, bulkLane src (stopOf f.site) f.off, false, 0, none, part⟩) } }

/-- A read order issued by site n toward the site that holds the source (R244). -/
def Device.issueOrder (d : Device) (n m part : Nat) (o : ReadOrder) : Device :=
  { d with fabric := { d.fabric with bulk := injectAll (d.room bulkRoom) (d.fabric.bulk ++
    [⟨.order o, stopOf n, stopOf m, bulkLane (stopOf n) (stopOf m) o.src, false, 0, none, part⟩]) } }

/-- One read order for each MiB, or part of one, of a read (R244). -/
def ordersOf (site src dst len fold tally inc : Nat) : List ReadOrder :=
  (List.range ((len + 2 ^ 20 - 1) / 2 ^ 20)).map fun i =>
    ⟨site, src + i * 2 ^ 20, dst + i * 2 ^ 20, min (2 ^ 20) (len - i * 2 ^ 20), fold, tally, inc⟩

/-- Lines that a range of a paddock touches. -/
def linesOf (off len : Nat) : Nat := (off % 64 + len + 63) / 64

/-- What an order brings about before its transfer is whole: a flit for each line of a paddock, or the one write of its
data elsewhere. -/
def orderParts (o : ReadOrder) : Nat := if inWindow o.dst then linesOf o.dst o.len else 1

/-! ## Arrival (R142, R255) -/

/-- The command that a transfer carries out completes, where its drive still holds it. -/
def Device.endMove (d : Device) (x : Xfer) : Device :=
  match x.owner with
  | none => d
  | some (n, s, id) =>
    let fin (q : Seqr) : Seqr := { q with act := q.act.map fun a => if a.id = id then { a with phase := .finished } else a }
    match slook (d.site n).saved s with
    | some r => d.onSite n fun t => { t with saved := sput t.saved s { r with seqr := fin r.seqr } }
    | none => if (d.fold (d.site n).fold).occ = some s then d.onSite n fun t => { t with seqr := fin t.seqr } else d

/-- k parts of a transfer have arrived: with the last the tally named is incremented, once, unless a CUT has ended the
transfer (R142, R255). -/
def Device.partsDone (d : Device) (part k : Nat) : Device :=
  match slook d.fabric.xfers part with
  | none => d
  | some x =>
    if x.left ≤ k then
      let d := { d with fabric := { d.fabric with xfers := sdel d.fabric.xfers part } }
      if x.cut then d else (if x.inc = 0 then d else d.tallyAdd x.fold x.tally x.inc).endMove x
    else { d with fabric := { d.fabric with xfers := sput d.fabric.xfers part { x with left := x.left - k } } }

/-- The rest of a command's transfer is not delivered once a CUT has ended it: flits that wait to be injected and orders are
dropped, those on a lane land (R255). -/
def Device.cutTransfer (d : Device) (n s id : Nat) : Device :=
  (d.fabric.xfers.filter fun e => decide (e.2.owner = some (n, s, id))).foldl (fun d e =>
    let stays (x : Flight RingFlit) : Bool := decide (x.part ≠ e.1) || (x.on && match x.flit with | .write _ => true | .order _ => false)
    let l := (d.fabric.bulk.filter stays).map fun x =>
      if x.part = e.1 then { x with flit := match x.flit with | .write f => .write { f with cut := true } | o => o } else x
    let left := (l.filter (·.part = e.1)).length
    { d with fabric := { d.fabric with
      bulk := injectAll (d.room bulkRoom) l
      xfers := if left = 0 then sdel d.fabric.xfers e.1 else sput d.fabric.xfers e.1 { e.2 with left := left, cut := true } } }) d

/-- A drive's transfers go on without it once its slot is released. -/
def Device.orphan (d : Device) (ns : List Nat) (s : Nat) : Device :=
  { d with fabric := { d.fabric with xfers := d.fabric.xfers.map fun e =>
    (e.1, match e.2.owner with
      | some (n, t, _) => if ns.contains n ∧ t = s then { e.2 with owner := none } else e.2
      | none => e.2) } }

/-! ## MOVE's pieces (R189) -/

/-- Rows of a MOVE cut so that each piece has its source and its destination within one paddock window or outside them. -/
def movePieces (m : Move) : List (Nat × Nat × Nat) :=
  (List.range m.rows).flatMap fun r =>
    let x := m.src + r * m.sstr
    let y := m.dst + r * m.dstr
    (windowsOf x m.rowb).flatMap fun p =>
      (windowsOf (y + (p.1 - x)) p.2).map fun q => (p.1 + (q.1 - (y + (p.1 - x))), q.1, q.2)

/-- One piece copied at once, its poison with it (R148): none of its bytes crosses a bulk ring toward a pen. -/
def Device.moveRow (d : Device) (f src dst len : Nat) (errs : List (Nat × Ecc)) : Device :=
  let bad := d.poisonWords f src len
  let d := d.transferRead f src len errs
  (d.writeLocal f dst (d.readLocal f src len) (if errs = [] then bad else d.poisonWords f src len)).noteDirty f dst len

/-- A piece of a MOVE of site n begins: a read of another paddock by orders, a write to another paddock or from LPDDR5X by
flits, from the pen or from its nearest stile (R140, R189, R244, R248); anything else at once. With it, the parts that are
to arrive. -/
def Device.movePiece (d : Device) (n f part tally inc : Nat) (errs : List (Nat × Ecc)) (p : Nat × Nat × Nat) : Device × Nat :=
  match d.place f p.1, d.place f p.2.1 with
  | some (.pad m _), tgt =>
    if m ≠ n then
      let os := ordersOf n p.1 p.2.1 p.2.2 f tally inc
      (os.foldl (fun d o => d.issueOrder n m part o) d, (os.map orderParts).sum)
    else match tgt with
      | some (.pad k off) =>
        if k = n then (d.moveRow f p.1 p.2.1 p.2.2 errs, 0) else
        let d := d.transferRead f p.1 p.2.2 errs
        (d.issueFlits (stopOf n) part
          (lineFlits (stopOf n) f f k off (d.readLocal f p.1 p.2.2) (d.poisonWords f p.1 p.2.2) tally inc
            (stileSplit (off, p.2.2))), linesOf off p.2.2)
      | _ => (d.moveRow f p.1 p.2.1 p.2.2 errs, 0)
  | some (.lp _), some (.pad k off) =>
    let stop := stileStop (stileOf k)
    let d := d.transferRead f p.1 p.2.2 errs
    (d.issueFlits stop part (lineFlits stop f f k off (d.readLocal f p.1 p.2.2) (d.poisonWords f p.1 p.2.2) tally inc
      ((gateBlocks off p.2.2).flatMap stileSplit)), linesOf off p.2.2)
  | _, _ => (d.moveRow f p.1 p.2.1 p.2.2 errs, 0)

/-- Every piece of a MOVE begins; with it, the parts that are to arrive. -/
def Device.movePiecesGo (d : Device) (n f part tally inc : Nat) (errs : List (Nat × Ecc)) :
    List (Nat × Nat × Nat) → Nat → Device × Nat
  | [], left => (d, left)
  | p :: r, left =>
    let x := d.movePiece n f part tally inc errs p
    Device.movePiecesGo x.1 n f part tally inc errs r (left + x.2)

end Sys2Proof.Machine
end

