-- ==== Sys2Proof/Machine/Seq.lean ====
section
/-!
DEFINITION. The pen's sequencer: fetching and decoding a stream, the two queues, issuing the head of a
queue into an engine slot, and completing a command (06, R159 to R172, R177, R178).
-/
namespace Sys2Proof.Machine

/-! ## Queues and slots -/

/-- Words held by a queue. -/
def queueWords (q : List Cmd) : Nat := (q.map (·.words)).sum
/-- The command in a slot. -/
def Seqr.slotAt (s : Seqr) (q : Queue) (e : Engine) (k : Nat) : Option Active :=
  s.act.find? fun a => a.q = q ∧ a.e = e ∧ a.k = k
/-- Words of a queue's sync command, which holds its place at the head of the queue until it has completed or is
accepted (R169). -/
def Seqr.syncWords (s : Seqr) (q : Queue) : Nat :=
  match s.slotAt q .sync 0 with
  | some a => a.cmd.words
  | none => 0
/-- A queue of a sequencer. -/
def Seqr.queue (s : Seqr) : Queue → List Cmd
  | .fwd => s.fwd
  | .bwd => s.bwd
/-- A queue replaced. -/
def Seqr.setQueue (s : Seqr) (q : Queue) (l : List Cmd) : Seqr :=
  match q with
  | .fwd => { s with fwd := l }
  | .bwd => { s with bwd := l }
/-- Current microbatch slot of a queue (R177). -/
def Seqr.micro (s : Seqr) : Queue → Nat
  | .fwd => s.microF
  | .bwd => s.microB
/-- Change of a site's sequencer. -/
def Site.onSeqr (s : Site) (g : Seqr → Seqr) : Site := { s with seqr := g s.seqr }
/-- A free slot of an engine for a queue (R167). -/
def Seqr.freeSlot (s : Seqr) (q : Queue) (e : Engine) : Option Nat :=
  (List.range (engineSlots e)).find? fun k => (s.slotAt q e k).isNone
/-- Change of the command with an issue number. -/
def Seqr.onAct (s : Seqr) (id : Nat) (g : Active → Active) : Seqr :=
  { s with act := s.act.map fun a => if a.id = id then g a else a }
/-- Removal of the command with an issue number. -/
def Seqr.dropAct (s : Seqr) (id : Nat) : Seqr := { s with act := s.act.filter fun a => a.id ≠ id }

/-! ## Races (R195) -/

/-- A handle pushed onto a race. -/
def Site.push (t : Site) (r : Nat) (h : W32) : Site := { t with races := t.races.modify r (· ++ [h]) }
/-- The head of a race discarded. -/
def Site.popRace (t : Site) (r : Nat) : Site := { t with races := t.races.modify r List.tail }
/-- A race. -/
def Site.race (t : Site) (r : Nat) : List W32 := t.races.getD r []

/-! ## Tiles left for a stream whose commands have ended (R182) -/

/-- One direction of a node. -/
def Node.dir (nd : Node) : Dir → NodeDir
  | .sunwise => nd.sun
  | .widdershins => nd.wid
/-- Ring tiles waiting at a node: its input queue, and at the entry pen the entry queue (R102). -/
def Node.input (nd : Node) (x : Dir) : List RingTile :=
  (nd.dir x).queue ++ (nd.entry.filter (·.1 = x)).map (·.2)
/-- Whether a body is a PRODUCT that takes a drove stream. -/
def Body.droveOf (x : Dir) (st : Nat) : Body → Bool
  | .product p => p.src = 0 && p.dir = x && p.sr = st
  | _ => false
/-- The PRODUCT in progress that takes a stream, earliest issued (R182). -/
def Seqr.taker (s : Seqr) (x : Dir) (st : Nat) : Option Active :=
  s.act.find? fun a => a.phase ≠ .finished && a.cmd.body.droveOf x st
/-- The LAND in progress of a stream, earliest issued (R188). -/
def Seqr.lander (s : Seqr) (st : Nat) : Option Active :=
  s.act.find? fun a => a.phase = .running && match a.cmd.body with | .land l => l.stream = st | _ => false
/-- A tile of a stream stops the drive: the address recorded is that of the command that takes or lands the
stream, else of the last PRODUCT that named it, else one that the spec leaves open (R182, R208). -/
def Device.stopTile (d : Device) (n status : Nat) (x : Dir) (st : Nat) : Device :=
  let s := (d.site n).seqr
  match s.taker x st, (if x = .sunwise then s.lander st else none), slook s.named ((if x = .sunwise then 0 else 16) + st) with
  | some a, _, _ => d.stopAt n status a.cmd.addr
  | none, some a, _ => d.stopAt n status a.cmd.addr
  | none, none, some a => d.stopAt n status a
  | none, none, none => (d.stopAt n status (Config.unnamed d.free)).draw

/-- A tile waits for a stream whose commands at the pen have ended: DROVE_COUNT (R182). -/
def Device.leftOver (d : Device) (n : Nat) (x : Dir) : Option Device :=
  let t := d.site n
  let s := t.seqr
  if !(s.ended || (s.stepF && s.stepB)) then none else
  let sts := ((t.node.dir x).held.filter (!·.used)).flatMap (fun h => h.ring.map (·.stream)) ++
    ((t.node.input x).filter (·.kind < 2)).map (·.stream)
  sts.findSome? fun st =>
    if (s.fwd ++ s.bwd).any (fun c => c.body.droveOf x st) ∨ (s.taker x st).isSome then none
    else some (d.stopTile n 0x19 x st)

/-- A tile left in either direction stops the drive (R182). -/
def Device.leftStop (d : Device) (n : Nat) : Device :=
  let d := (d.leftOver n .sunwise).getD d
  (d.leftOver n .widdershins).getD d

/-! ## Fetching and decoding (R159 to R165, R173, R178) -/

/-- Stream address of the STEP fetched and waiting in a queue or its slot (R178, R208). -/
def Seqr.stepAddr (s : Seqr) (q : Queue) : Nat :=
  match (s.queue q).find? (fun c => c.body = .step), s.act.find? (fun a => decide (a.q = q) && decide (a.cmd.body = .step)) with
  | some c, _ => c.addr
  | none, some a => a.cmd.addr
  | none, none => s.pc

/-- One step of the fetch unit on the words it holds: a queued command that fits goes into its queue; a
flow command, a full queue or missing words leave things as they are. A second STEP of one queue is judged as it is
fetched, and with the second of the two the commands of the step are all there (R178, R182). A reserved opcode or a
wrong ext value is judged here too (R173; log entry 121). The flag says whether to go on. -/
def Device.decodeOne (d : Device) (n : Nat) : Device × Bool :=
  let s := (d.site n).seqr
  if s.ended ∨ (s.stepF ∧ s.stepB) then (d, false) else
  match s.fetched with
  | [] => if s.limit ≤ s.pc then (d.stopAt n 0x1D s.pc, false) else (d, false)
  | w :: ws =>
    let need := cmdWords w.toNat
    match fetchOne s.pc (w :: ws) with
    | .bad => (d.stopAt n 0x01 s.pc, false)
    | .queued q c =>
      if (w :: ws).length < need then
        if s.limit < s.pc + 16 * need then (d.stopAt n 0x1D s.pc, false) else (d, false)
      else
        let isStep := c.body = .step
        let again := isStep && (match q with | .fwd => s.stepF | .bwd => s.stepB)
        if again then (d.stopAt n 0x03 (s.stepAddr q), false)
        else if queueWords (s.queue q) + s.syncWords q + need > 64 then (d, false) else
        let f := s.stepF || (isStep && q = .fwd)
        let b := s.stepB || (isStep && q = .bwd)
        let s := s.setQueue q (s.queue q ++ [c])
        let d := d.onSite n fun t => { t with seqr := { s with
          pc := s.pc + 16 * need, stepF := f, stepB := b
          fetched := if f && b then [] else (w :: ws).drop need } }
        if f && b then (d.leftStop n, false) else (d, true)
    | _ => (d, false)

/-- The fetch unit works on until it must wait; fuel is the number of words held. -/
def Device.pumpGo : Nat → Device → Nat → Device
  | 0, d, _ => d
  | k + 1, d, n => match d.decodeOne n with
    | (d, true) => Device.pumpGo k d n
    | (d, false) => d

/-- The fetch unit of a pen whose drive runs works on. -/
def Device.pump (d : Device) (n : Nat) : Device :=
  match d.running n with
  | some _ => Device.pumpGo ((d.site n).seqr.fetched.length + 1) d n
  | none => d

/-- Whether the drive that runs on a site's fold may go on: not stopped, not ended. -/
def Device.goes (d : Device) (n : Nat) : Option (Nat × Drive) :=
  match d.running n with
  | some (s, v) => if v.stopped.isNone ∧ !v.ended then some (s, v) else none
  | none => none

/-- The next word a running pen's fetch unit is to decode, as decoded. -/
def Device.nextWord (d : Device) (n : Nat) : Option (Drive × Fetched × Nat) :=
  match d.goes n with
  | some (_, v) =>
    let s := (d.site n).seqr
    if s.ended ∨ (s.stepF ∧ s.stepB) then none else
    match s.fetched with
    | [] => none
    | w :: ws => some (v, fetchOne s.pc (w :: ws), cmdWords w.toNat)
  | none => none

/-- The fetch unit passes k words. -/
def Device.skipWords (d : Device) (n k : Nat) : Device :=
  d.onSite n (Site.onSeqr · fun s => { s with pc := s.pc + 16 * k, fetched := s.fetched.drop k })

/-- The fetch unit goes on at an address, in the region it lies in. -/
def Device.goTo (d : Device) (n target limit : Nat) : Device :=
  d.onSite n (Site.onSeqr · fun s => { s with pc := target, limit := limit, fetched := [] })

/-- Address after the words the fetch unit holds. -/
def Seqr.fetchAddr (s : Seqr) : Nat := s.pc + 16 * s.fetched.length

/-- Arrival of the next aligned 256-byte block: at most four blocks ahead of decoding, within the region, not
beyond the second STEP (R159, R160); a poisoned block stops the drive. -/
def Device.fetchBlock (d : Device) (n : Nat) (errs : List (Nat × Ecc)) : Device :=
  match d.goes n with
  | none => d
  | some _ =>
    let s := (d.site n).seqr
    let a := s.fetchAddr
    if s.ended ∨ (s.stepF ∧ s.stepB) ∨ s.limit ≤ a ∨ s.pc / 256 + 4 < a / 256 then d.pump n else
    let len := min (256 - a % 256) (s.limit - a)
    let f := (d.site n).fold
    let was := d.poisonWords f a len
    let d := d.transferRead f a len errs
    match d.poisonWords f a len with
    | (i, o) :: _ =>
      let kind := if was.any (·.1 = i) then 2 else 0
      (if a < d.share then d else d.event .padUncorrectable [n, a % padSize / 8 + i, kind]).stopAt n
        (if o = 1 then 0x1E else 0x12) s.pc
    | [] =>
    let ws := (chunks 16 17 (d.readLocal f a len)).map fun c => BitVec.ofNat 128 (leNat c)
    (d.onSite n (Site.onSeqr · fun s => { s with fetched := s.fetched ++ ws })).pump n

/-! ## Ends -/

/-- Whether a pen has reached END with nothing queued or in a slot. -/
def Seqr.over (s : Seqr) : Bool := s.ended && s.fwd.isEmpty && s.bwd.isEmpty && s.act.isEmpty
/-- Whether the stream of a pen of a drive has ended: every command has completed, the SHEARs and COLLECTs that were
accepted too (R166, R169). -/
def Device.streamOver (d : Device) (f s n : Nat) : Bool :=
  (d.site n).seqr.over && !d.accepted f s (d.penOf n) .fwd && !d.accepted f s (d.penOf n) .bwd

/-- The running drive of a fold ends once every stream has ended (R166): it stays resident and no longer
runs. -/
def Device.endCheck (d : Device) (f : Nat) : Device :=
  match (d.fold f).running with
  | none => d
  | some s =>
    match d.drive f s with
    | none => d
    | some v =>
      if v.stopped.isNone ∧ d.foldSites f ≠ [] ∧ (d.foldSites f).all (d.streamOver f s) then
        (d.onDrive f s fun v => { v with ended := true }).onFold f fun o => { o with running := none }
      else d

/-! ## Issuing (R167 to R172) -/

/-- What is needed to issue the head of a queue: fold, slot and drive, the command with its done tally
adjusted, its engine slot, the queue's microbatch slot. -/
structure Issue where
  f    : Nat
  s    : Nat
  v    : Drive
  c    : Cmd
  k    : Nat
  slot : Nat
  deriving DecidableEq, Repr

/-- Whether every earlier command of a queue has completed, accepted SHEARs and COLLECTs included (R170). -/
def Device.drains (d : Device) (n s : Nat) (q : Queue) : Bool :=
  !(d.site n).seqr.act.any (·.q = q) && !d.accepted (d.site n).fold s (d.penOf n) q

/-- The head of a queue, where it may move into a free slot of its engine: the drive runs, the pen is not
stopped, no sync command of the queue is in its slot (R169), the drain bit is satisfied (R170). -/
def Device.ready (d : Device) (n : Nat) (q : Queue) : Option Issue :=
  match d.goes n with
  | none => none
  | some (s, v) =>
    let t := d.site n
    match t.seqr.queue q with
    | [] => none
    | c :: _ =>
      if t.stops ≠ [] ∨ (t.seqr.slotAt q .sync 0).isSome ∨ (c.drain ∧ !d.drains n s q) then none else
      match t.seqr.freeSlot q c.body.engine with
      | none => none
      | some k => some ⟨t.fold, s, v, c, k, t.seqr.micro q⟩

/-- The done tally of a command, adjusted for its slot: none is BAD_TALLY; a command without increment names
no tally (R177, R197). -/
def Device.doneOf (d : Device) (i : Issue) : Option Nat :=
  if i.c.inc = 0 then some i.c.done else d.tallyOperand i.f i.v i.c.rel i.slot i.c.done

/-- The head leaves its queue, a sync command for its slot only (R169), and the fetch unit works on (R163). -/
def Device.takeHead (d : Device) (n : Nat) (q : Queue) : Device :=
  (d.onSite n (Site.onSeqr · fun s => s.setQueue q (s.queue q).tail)).pump n

/-- A new command for a slot. -/
def Issue.active (i : Issue) (n : Nat) (q : Queue) (done : Nat) (d : Device) (p : Phase) : Active where
  q := q
  e := i.c.body.engine
  k := i.k
  id := (d.site n).seqr.nextId
  cmd := { i.c with done := done }
  slot := i.slot
  phase := p
  i := 0
  t := 0
  lot0 := none
  want := none
  joined := false
  asked := 0
  parts := []
  seq := 0
  errs := []
  feed := .empty

/-- The head of a queue moves into its slot. -/
def Device.enter (d : Device) (n : Nat) (q : Queue) (a : Active) : Device :=
  (d.onSite n (Site.onSeqr · fun s => { s with act := s.act ++ [a], nextId := s.nextId + 1 })).takeHead n q

/-- A head that may issue goes into its slot in a phase, after `g` has had its effect; a bad done tally ends
it. -/
def Device.issue (d : Device) (n : Nat) (q : Queue) (i : Issue) (p : Phase) (g : Device → Device) : Device :=
  match d.doneOf i with
  | none => d.stopAt n 0x07 i.c.addr
  | some done => (g d).enter n q (i.active n q done d p)

/-! ## Accumulator tiles a command names (R172) -/

/-- Row mask of stationary index t (R180). -/
def Product.maskAt (p : Product) (t : Nat) : Nat := if t = p.mslab then p.mask else 2 ^ 32 - 1
/-- Stationary indices whose tile steps are fed (R85). -/
def Product.lives (p : Product) : List Nat := (List.range p.st).filter fun t => p.maskAt t ≠ 0
/-- Next fed stationary index from t on. -/
def Product.nextT (p : Product) (t : Nat) : Option Nat := p.lives.find? fun u => t ≤ u

/-- Columns of accumulators a PRODUCT names. -/
def Product.cols (p : Product) : Nat := if p.cn = 0 then 1 else min 512 ((p.n + p.kc - 1) / p.kc)
/-- Accumulators a PRODUCT's iteration names (R180, R181). -/
def Product.named (p : Product) : List Nat :=
  let one (b : Nat) : List Nat := p.lives.flatMap fun t => (List.range p.cols).map fun c => b + t * p.ct + c * p.cn
  one p.acc ++ (if p.cplx = 0 then [] else one p.acci)
/-- Accumulator tiles of a PRODUCT: pairs when compensated (R61). -/
def Product.tiles (p : Product) : List Nat := p.named.flatMap fun x => if p.comp then [x, x + 1] else [x]
/-- Tiles of CLEAR and RELEASE. -/
def clearTiles (first count stride : Nat) : List Nat := (List.range count).map fun j => first + j * stride
/-- Accumulator tiles of a VOP's operand. -/
def vopTiles (v : Vop) (kind a : Nat) (src : Bool) : List Nat :=
  if kind ≠ 0 then [] else
  (List.range v.count).flatMap fun j => if src ∧ v.scomp then [a + 2 * j, a + 2 * j + 1] else [a + j]

/-- Source operands of a VOP's operation: how many of a, b, c it reads. -/
def vopArity (op : Nat) : Nat :=
  if op ∈ [0x00, 0x01, 0x02, 0x06, 0x07, 0x08, 0x09, 0x0A, 0x0B] then 2
  else if op ∈ [0x03, 0x0C, 0x0D] then 3
  else if op = 0x1B then 0 else 1

/-- Accumulator tiles of a VOP. -/
def Vop.tiles (v : Vop) : List Nat :=
  (if 1 ≤ vopArity v.op then vopTiles v v.akind (v.aaddr % 512) true else []) ++
  (if 2 ≤ vopArity v.op then vopTiles v v.bkind (v.baddr % 512) true else []) ++
  (if 3 ≤ vopArity v.op then vopTiles v v.ckind (v.caddr % 512) true else []) ++
  vopTiles v v.dkind (v.daddr % 512) false

/-- Accumulator tiles a command names. -/
def Body.tiles : Body → List Nat
  | .product p => p.tiles
  | .clear a b c | .release a b c => clearTiles a b c
  | .vop v => v.tiles
  | _ => []

/-- Whether an earlier command of the queue that names one of the tiles has not finished with it (R172). -/
def Seqr.hazard (s : Seqr) (q : Queue) (id : Nat) (tiles : List Nat) : Bool :=
  s.act.any fun b => b.q = q && b.id < id && b.phase ≠ .finished && b.cmd.body.tiles.any (tiles.contains ·)

/-! ## Completion (R171) -/

/-- A command leaves its slot; its increment is added to its done tally (R171), its comparator is released
(R202), and the fetch unit works on. -/
def Device.retireAct (d : Device) (n : Nat) (a : Active) : Device :=
  let f := (d.site n).fold
  let d := d.onSite n (Site.onSeqr · fun s => s.dropAct a.id)
  let d := { d with watch := d.watch.release fun u => decide (u = CmpUser.wait n (decide (a.q = Queue.bwd)) a.id) }
  let d := if a.cmd.inc = 0 then d else d.bump n f a.cmd.done a.cmd.inc
  ((d.pump n).leftStop n).endCheck f

end Sys2Proof.Machine
end

