-- ==== Sys2Proof/Machine/Node.lean ====
section
/-!
DEFINITION. The drove: loops, queues and credits, holding registers, forwarding, landing, relay and entry
(04, R92 to R107, R110 to R116, R120 to R122; 06, R182, R185 to R188), and the commands FEED, LOT, LAND,
FEED_FLIT, DROVE_TILE_ARRIVAL, DROVE_RESEND.
-/
namespace Sys2Proof.Machine

/-! ## Loops (R95, R99 to R103) -/

/-- Entries of a node's input queue (R95). -/
def queueCap (n : Nat) : Nat := if n = 0 ∨ n = 20 ∨ n = 21 ∨ n = 41 then 16 else 8
/-- Change of one direction of a node. -/
def Node.onDir (nd : Node) (x : Dir) (g : NodeDir → NodeDir) : Node :=
  match x with
  | .sunwise => { nd with sun := g nd.sun }
  | .widdershins => { nd with wid := g nd.wid }
/-- Change of a site's node. -/
def Site.onNode (t : Site) (g : Node → Node) : Site := { t with node := g t.node }
/-- Change of one direction of a site's node. -/
def Device.onDir (d : Device) (n : Nat) (x : Dir) (g : NodeDir → NodeDir) : Device :=
  d.onSite n (Site.onNode · (Node.onDir · x g))

/-- The site after pen i of a loop in a direction (R101). -/
def nextOf (ss : List Nat) (x : Dir) (i : Nat) : Nat :=
  ss.getD (match x with | .sunwise => (i + 1) % ss.length | .widdershins => (i + ss.length - 1) % ss.length) 0
/-- Fold pen index of the exit pen of a direction (R101). -/
def exitOf (m : Nat) : Dir → Nat
  | .sunwise => m - 1
  | .widdershins => if m = 1 then 0 else 1
/-- Whether a ring tile leaves the drove after pen i: a weight tile at the exit, a lot at the pen before its
home (R103). -/
def leavesAt (m : Nat) (x : Dir) (i : Nat) (r : RingTile) : Bool :=
  if r.home < 63 then (i + 1) % m = r.home else i = exitOf m x

/-- Ring tiles of an operand tile of a format code (table Ring tiles per operand tile). -/
def ringTiles (fmt : Nat) : Nat := if fmt = 8 then 4 else if fmt = 6 ∨ fmt = 7 then 2 else 1

/-- Whether a holding entry stands for an FP32 tile, which stays in the node queue (R104). -/
def Held.wide (h : Held) : Bool := match h.ring with | r :: _ => r.fmt = 8 | [] => false
/-- Entries of an input queue in use: on the hop, queued, or used FP32 tiles not yet forwarded. -/
def NodeDir.load (x : NodeDir) : Nat :=
  x.hop.length + x.queue.length + ((x.held.filter (·.wide)).map (·.ring.length)).sum

/-- Whether pen i may pass a ring tile on: it leaves, or the next node has a free entry, and no handshake of the crossing
between them is due (R95, R269). -/
def Device.canSend (d : Device) (ss : List Nat) (x : Dir) (i : Nat) (r : RingTile) : Bool :=
  leavesAt ss.length x i r ||
    let m := nextOf ss x i
    !(d.heft (ss.getD i 0)).handshake && !(d.heft m).handshake && decide (((d.site m).node.dir x).load < queueCap m)

/-- Passing a ring tile on; the end-of-stream tile closes its stream where it leaves; a stopped heft wakes for the tile sent
to it (R96, R103, R272). -/
def Device.send (d : Device) (f : Nat) (ss : List Nat) (x : Dir) (i : Nat) (r : RingTile) : Device :=
  if leavesAt ss.length x i r then
    if r.kind = 4 then d.onFold f fun o => { o with streams := o.streams.erase (r.drive, x, r.stream) } else d
  else (d.wake (nextOf ss x i)).onDir (nextOf ss x i) x fun y => { y with hop := y.hop ++ [r] }

/-! ## A node's input -/

/-- Removal of a waiting ring tile. -/
def Node.take (nd : Node) (x : Dir) (r : RingTile) : Node :=
  if (nd.dir x).queue.contains r then nd.onDir x fun y => { y with queue := y.queue.erase r }
  else { nd with entry := nd.entry.erase (x, r) }
/-- Removal of several. -/
def Node.takes (nd : Node) (x : Dir) (rs : List RingTile) : Node := rs.foldl (fun nd r => nd.take x r) nd

/-- Streams in the order in which a node serves them: from the one after the stream served last (R96). -/
def turn (served : Nat) : List Nat := (List.range 16).map fun i => (served + 1 + i) % 16

/-- Groups of four. -/
def fours : Nat → List RingTile → List (List RingTile)
  | 0, _ => []
  | k + 1, l => if l.length < 4 then [] else l.take 4 :: fours k (l.drop 4)

/-- Operand tiles of a stream not yet used, oldest first: in holding registers, or FP32 tiles in the queue. -/
def Node.unused (nd : Node) (x : Dir) (st : Nat) : List (List RingTile) :=
  let hs := ((nd.dir x).held.filter fun h => !h.used && (h.ring.any (·.stream = st))).map (·.ring)
  hs ++ fours 16 ((nd.input x).filter fun r => r.stream = st && r.fmt = 8 && r.kind < 2)

/-- First k unused holding registers of a stream marked used. -/
def markHeld (st : Nat) : Nat → List Held → List Held
  | 0, l => l
  | _, [] => []
  | k + 1, h :: l =>
    if !h.used && h.ring.any (·.stream = st) then { h with used := true } :: markHeld st k l
    else h :: markHeld st (k + 1) l

/-- The last use of k operand tiles of a stream has entered the array (R104). -/
def Node.usedUp (nd : Node) (x : Dir) (st k : Nat) : Node :=
  let ts := (nd.unused x st).take k
  match ts with
  | (r :: _) :: _ =>
    if r.fmt = 8 then
      (nd.takes x ts.flatten).onDir x fun y => { y with held := y.held ++ ts.map (⟨·, true⟩) }
    else nd.onDir x fun y => { y with held := markHeld st k y.held }
  | _ => nd

/-! ## Commands at a node -/

/-- Change of an active command of a site. -/
def Device.onAct (d : Device) (n id : Nat) (g : Active → Active) : Device :=
  d.onSite n (Site.onSeqr · (Seqr.onAct · id g))

/-- Position of a stream at a node. -/
def NodeDir.posOf (x : NodeDir) (st : Nat) : Option StreamPos := x.pos.find? (·.stream = st)
/-- Position set. -/
def NodeDir.setPos (x : NodeDir) (p : StreamPos) : NodeDir :=
  { x with pos := x.pos.filter (·.stream ≠ p.stream) ++ [p] }
/-- Position removed when the stream has passed. -/
def NodeDir.endPos (x : NodeDir) (st : Nat) : NodeDir := { x with pos := x.pos.filter (·.stream ≠ st) }

/-! ## Forwarding weight tiles (R104, R105) -/

/-- A stream's next used ring tile forwarded. -/
def Device.forward (d : Device) (f n i : Nat) (ss : List Nat) (x : Dir) (st : Nat) : Option Device :=
  match ((d.site n).node.dir x).held.find? (fun h => h.ring.any (·.stream = st)) with
  | some h =>
    match h.ring with
    | r :: rest =>
      if h.used && d.canSend ss x i r then
        some ((d.onDir n x fun y => { y with
          held := if rest = [] then y.held.erase h else y.held.map fun g => if g = h then { g with ring := rest } else g
          }).send f ss x i r)
      else none
    | [] => none
  | none => none

/-! ## Landing and relay (R114 to R116, R121, R187, R188) -/

/-- Handles of a LAND on its race. -/
def onRace (t : Site) (l : Land) : Nat := ((t.race l.race).filter fun h => l.h0 ≤ h.toNat && h.toNat < l.h0 + l.c).length

/-- Landing of a lot part at the head of its stream's input: written into the landing area, with the tag and
the handle after the last part; the part waits to be forwarded. -/
def Device.landPart (d : Device) (v : Drive) (n : Nat) (r : RingTile) : Option Device :=
  let t := d.site n
  match t.seqr.lander r.stream with
  | none => none
  | some a =>
    match a.cmd.body with
    | .land l =>
      if a.parts ≠ [] then none else
      let h := l.h0 + a.i % l.c
      let st := d.handleStatus n v h true
      if st ≠ 0 then some (d.stopAt n st a.cmd.addr) else
      let base := d.handleAddr n h + r.part * 2176
      if !inExtent v base 2176 then some (d.stopAt n 0x11 a.cmd.addr) else
      if r.lastPart ∧ (64 ≤ (t.race l.race).length ∨ l.c ≤ onRace t l) then none else
      let pad (k : Nat) (bs : List Byte) : List Byte := bs.take k ++ List.replicate (k - bs.length) 0#8
      let d := d.onSite n fun t =>
        let t := t.padWrite base (pad 2048 r.elems ++ pad 128 r.scales) (r.poison.map fun w => (base / 8 + w / 2, w % 2))
        let t := t.onNode (·.take .sunwise r)
        if r.lastPart then
          let e := (sget 0#64 t.handle h).toNat % 2 ^ 32 + r.lot % 2 ^ 24 * 2 ^ 32
          let t := { t with handle := sset 0#64 t.handle h (BitVec.ofNat 64 e) }
          let t := t.push l.race (BitVec.ofNat 32 h)
          t.onNode (Node.onDir · .sunwise fun y =>
            match y.posOf r.stream with
            | some p => y.setPos { p with lot := some r.lot }
            | none => y)
        else t
      some (d.onAct n a.id fun a => { a with parts := [r], i := if r.lastPart then a.i + 1 else a.i })
    | _ => none

/-- A stream's landed part forwarded. -/
def Device.landSend (d : Device) (f n i : Nat) (ss : List Nat) (st : Nat) : Option Device :=
  (d.site n).seqr.act.findSome? fun a =>
    match a.cmd.body, a.parts with
    | .land l, r :: _ =>
      if l.stream = st ∧ d.canSend ss .sunwise i r then some ((d.onAct n a.id fun a => { a with parts := [] }).send f ss .sunwise i r) else none
    | _, _ => none

/-- Ring tiles of a lot, from its part records (R187), with the end-of-stream tile when it is the last. LOT names no
format: the tag's format and scaled bits of lot parts and of end-of-stream tiles are 0 (DESIGN CHOICE, log entry
16). -/
def Device.lotTiles (d : Device) (f s n : Nat) (l : Lot) (next : Nat) : List RingTile :=
  let t := d.site n
  let home := d.penOf n
  let base := d.handleAddr n l.h
  let tile (k : Nat) : RingTile :=
    let a := base + k * 2176
    { fold := f, drive := s, stream := l.stream, kind := if k < l.px then 2 else 3, fmt := 0, scaled := false,
      seq := (next + k) % 2 ^ 32, lot := l.g, part := k, elems := t.padBytes a 2048, scales := t.padBytes (a + 2048) 128,
      poison := (t.padBad a 2176).map fun w => 2 * (w.1 - a / 8) + w.2, home := home, lastPart := k + 1 = l.p }
  (List.range l.p).map tile ++ (if l.last then
    [{ fold := f, drive := s, stream := l.stream, kind := 4, fmt := 0, scaled := false, seq := (next + l.p) % 2 ^ 32,
       lot := 0, part := 0, elems := [], scales := [], poison := [], home := home, lastPart := false }] else [])

/-- Start of a waiting LOT once its relay condition holds (R115, R187). -/
def Device.lotStart (d : Device) (f s n : Nat) (v : Drive) : Option Device :=
  (d.site n).seqr.act.findSome? fun a =>
    match a.cmd.body, a.phase with
    | .lot l, .waiting =>
      match ((d.site n).node.sun.posOf l.stream) with
      | none => none
      | some p =>
        let relay := l.g = 0 || (match p.lot with | some x => l.g ≤ x + 1 | none => false)
        if !relay then none else
        if l.g ≠ 0 ∧ p.lot ≠ some (l.g - 1) then some (d.stopAt n 0x17 a.cmd.addr) else
        let st := d.handleStatus n v l.h true
        if st ≠ 0 then some (d.stopAt n st a.cmd.addr) else
        if !inExtent v (d.handleAddr n l.h) (l.p * 2176) then some (d.stopAt n 0x11 a.cmd.addr) else
        if l.push ∧ 64 ≤ ((d.site n).race l.race).length then none else
        let d := d.transferRead f (padBase + padSize * d.penOf n + d.handleAddr n l.h) (l.p * 2176) a.errs
        let ts := d.lotTiles f s n l p.next
        let d := d.onSite n fun t =>
          let t := t.onNode (Node.onDir · .sunwise fun y => y.setPos { p with next := (p.next + ts.length) % 2 ^ 32 })
          if l.push then t.push l.race (BitVec.ofNat 32 l.h) else t
        some (d.onAct n a.id fun a => { a with phase := .running, parts := ts })
    | _, _ => none

/-- The node's part in a LAND is over: its end of stream has passed (R188). -/
def Device.landDone (d : Device) (n st : Nat) : Device :=
  match (d.site n).seqr.lander st with
  | some a => d.onAct n a.id fun a => { a with phase := .finished }
  | none => d

/-- A LAND that waited for an earlier one of its stream begins (R188). -/
def Device.landStart (d : Device) (n : Nat) : Option Device :=
  let s := (d.site n).seqr
  s.act.findSome? fun a =>
    match a.cmd.body, a.phase with
    | .land l, .waiting => if (s.lander l.stream).isNone then some (d.onAct n a.id fun a => { a with phase := .running }) else none
    | _, _ => none

/-- The next ring tile of a stream's running LOT injected. -/
def Device.lotSend (d : Device) (f n i : Nat) (ss : List Nat) (st : Nat) : Option Device :=
  let s := (d.site n).seqr
  s.act.findSome? fun a =>
    match a.cmd.body, a.phase, a.parts with
    | .lot l, .running, r :: rest =>
      let behind := match s.lander l.stream with | some b => b.parts ≠ [] | none => false
      if l.stream ≠ st || behind || !d.canSend ss .sunwise i r then none else
      let d := d.onAct n a.id fun a => { a with parts := rest, phase := if rest = [] then .finished else .running }
      let d := d.onDir n .sunwise fun y =>
        if r.kind = 4 then y.endPos l.stream
        else if r.lastPart then (match y.posOf l.stream with | some p => y.setPos { p with lot := some l.g } | none => y)
        else y
      let d := if r.kind = 4 then d.landDone n l.stream else d
      some (d.send f ss .sunwise i r)
    | _, _, _ => none

/-! ## Entry (R102, R110, R111, R185) -/

/-- Address of stored tile i of a FEED. -/
def Feed.addr (fd : Feed) (i : Nat) : Nat :=
  fd.base + i % fd.c0 * fd.s0 + i / fd.c0 % fd.c1 * fd.s1 + i / (fd.c0 * fd.c1) * fd.s2

/-- Bytes of a stored record of a FEED, both planes of a complex tile (R174, R175). -/
def Feed.record (fd : Feed) (fm : Fmt) : Nat := tileElems fm fd.fp4p + tileScales fd.scl fd.fp4p

/-- Ring tiles of one operand tile. Poison entries are (word of the record, origin). -/
def operandRing (f s : Nat) (fd : Feed) (next : Nat) (es ss : List Byte) (bad : List (Nat × Nat)) : List RingTile :=
  let ew := es.length / 8
  let k := ringTiles fd.fmt
  (List.range k).map fun p =>
    { fold := f, drive := s, stream := fd.stream, kind := if fd.tr then 1 else 0, fmt := fd.fmt, scaled := fd.scl
      seq := (next + p) % 2 ^ 32, lot := 0, part := p, elems := (es.drop (2048 * p)).take 2048
      scales := if p = 0 then ss else []
      poison := bad.filterMap fun w =>
        if w.1 < ew then (if w.1 / 256 = p then some (2 * (w.1 % 256) + w.2) else none)
        else if p = 0 then some (2 * (256 + w.1 - ew) + w.2) else none
      home := 63, lastPart := false }

/-- Ring tiles of several operand tiles in turn. -/
def operandRings (f s : Nat) (fd : Feed) : Nat → List (List Byte × List Byte × List (Nat × Nat)) → List RingTile
  | _, [] => []
  | next, (es, ss, bad) :: r => operandRing f s fd next es ss bad ++ operandRings f s fd (next + ringTiles fd.fmt) r

/-- One plane of a stored record as read: elements, scales, poisoned words. -/
def Device.plane (d : Device) (f : Nat) (fd : Feed) (fm : Fmt) (i k : Nat) : List Byte × List Byte × List (Nat × Nat) :=
  let a := fd.addr i + k * fd.record fm
  (d.readLocal f a (tileElems fm fd.fp4p), d.readLocal f (a + tileElems fm fd.fp4p) (tileScales fd.scl fd.fp4p),
    d.poisonWords f a (fd.record fm))

/-- The next operand tiles of a FEED and the records they take, or none for a tile that may not be transposed
(R111). -/
def Device.feedTiles (d : Device) (f : Nat) (fd : Feed) (fm : Fmt) (i : Nat) :
    Option (List (List Byte × List Byte × List (Nat × Nat))) :=
  let planes := List.range (if fd.cplx then 2 else 1)
  if !fd.tr then some (planes.map fun k => d.plane f fd fm i k)
  else if fd.fp4p then
    let ps := planes.map fun k => d.plane f fd fm i k
    if fd.scl ∧ ps.any (fun p => !evenTile true p.2.1) then none
    else some (ps.map fun p => let q := transposeQuad fd.scl p.1 p.2.1; (q.1, q.2, p.2.2.map fun w => (0, w.2)))
  else
    let ps := planes.map fun k => (d.plane f fd fm i k, d.plane f fd fm (i + 1) k)
    if fd.scl ∧ ps.any (fun p => !evenTile false p.1.2.1 || !evenTile false p.2.2.1) then none
    else
      let out := ps.map fun p => (transposePair fm fd.scl p.1.1 p.1.2.1 p.2.1 p.2.2.1, (p.1.2.2 ++ p.2.2.2).map fun w => (0, w.2))
      some ([0, 1].flatMap fun h => out.filterMap fun o => o.1[h]?.map fun t => (t.1, t.2, o.2))

/-- Bytes of a FEED's stored record, both planes of a complex tile. -/
def Feed.bytes (fd : Feed) (fm : Fmt) : Nat := (if fd.cplx then 2 else 1) * fd.record fm

/-- Records a FEED takes at a time. -/
def Feed.take (fd : Feed) : Nat := if fd.tr ∧ !fd.fp4p then 2 else 1

/-- The next records of a FEED read (R148). -/
def Device.feedRead (d : Device) (f : Nat) (fd : Feed) (fm : Fmt) (i : Nat) (errs : List (Nat × Ecc)) : Device :=
  (List.range fd.take).foldl (fun d j =>
    d.transferRead f (fd.addr (i + j)) (fd.bytes fm) errs) d

/-- The feed flit that begins at a byte of a FEED's records, as address and length: bytes of one aligned 256-byte block, of
one quarter (R246, R296). -/
def Device.feedPiece (d : Device) (f : Nat) (fd : Feed) (fm : Fmt) (pos : Nat × Nat × Nat) : Nat × Nat :=
  let x := fd.addr pos.1 + pos.2.1
  let a := f * d.share + x
  (x, min (min (256 - a % 256) (960 - a % 960)) (fd.bytes fm - pos.2.1))

/-- The byte after a piece of k bytes. -/
def Feed.after (fd : Feed) (fm : Fmt) (k : Nat) (pos : Nat × Nat × Nat) : Nat × Nat × Nat :=
  if pos.2.1 + k < fd.bytes fm then (pos.1, pos.2.1 + k, pos.2.2 + 1) else (pos.1 + 1, 0, pos.2.2 + 1)

/-- The flit number that a FEED's flight bears. -/
def feedPart (id k : Nat) : Nat := id * 2 ^ 40 + k

/-- A memory quarter sends the next feed flit of a FEED from LPDDR5X, while the feed drop has a credit for it: the lanes of
its direction take the flits of a stream in turn (R246, R247; log entry 125). -/
def Device.feedSend (d : Device) (f n : Nat) : Option Device :=
  (d.site n).seqr.act.findSome? fun a =>
    match a.cmd.body, a.phase with
    | .feed fd, .running =>
      match Fmt.ofCode fd.fmt with
      | none => none
      | some fm =>
        if d.share ≤ fd.base ∨ fd.n ≤ a.feed.sent.1 ∨
            2 * feedRoom (0, 0) ≤ (d.fabric.feed.filter fun x => x.flit.site = n).length then none else
        let p := d.feedPiece f fd fm a.feed.sent
        let q := quarterOf (f * d.share + p.1)
        let src := (gateAt (quarterGate q), 2)
        let dst := (stationOf n, 1)
        let flit : FeedFlit := ⟨n, q, fd.dir, fd.stream, p.1, p.2⟩
        let fl : Flight FeedFlit :=
          ⟨flit, src, dst, feedLane src dst a.feed.sent.2.2, false, 0, none, feedPart a.id a.feed.sent.2.2⟩
        let d := { d with fabric := { d.fabric with feed := injectAll feedRoom (d.fabric.feed ++ [fl]) } }
        some (d.onAct n a.id fun a => { a with feed := { a.feed with sent := fd.after fm p.2 a.feed.sent } })
    | _, _ => none

/-- The bytes that have reached the entry pen, as far as they are there in order: flits that came early are waited for (R247).
Fuel is the number of those. -/
def Device.feedDue (d : Device) (f : Nat) (fd : Feed) (fm : Fmt) : Nat → Intake → Intake
  | 0, t => t
  | k + 1, t =>
    if t.got.contains t.due.2.2 then
      Device.feedDue d f fd fm k { t with due := fd.after fm (d.feedPiece f fd fm t.due).2 t.due, got := t.got.erase t.due.2.2 }
    else t

/-- The feed flits toward a site are given up, to be asked for again when its drive comes back (log entry 125). -/
def Device.dropFeed (d : Device) (n : Nat) : Device :=
  ({ d with fabric := { d.fabric with feed := d.fabric.feed.filter fun x => x.flit.site ≠ n } } : Device).onSite n
    (Site.onSeqr · fun s => { s with act := s.act.map fun a => { a with feed := ⟨a.feed.due, a.feed.due, []⟩ } })

/-- Work of a FEED: a ring tile into the entry queue, or the next records read, as they are there. -/
def Device.feedStep (d : Device) (f s n : Nat) : Option Device :=
  (d.site n).seqr.act.findSome? fun a =>
    match a.cmd.body, a.phase with
    | .feed fd, .running =>
      match a.parts with
      | r :: rest =>
        if 8 ≤ (d.site n).node.entry.length then none else
        let d := d.onSite n (Site.onNode · fun nd => { nd with entry := nd.entry ++ [(fd.dir, r)] })
        some (d.onAct n a.id fun a => { a with parts := rest, phase := if r.kind = 4 then .finished else .running })
      | [] =>
        match Fmt.ofCode fd.fmt with
        | none => none
        | some fm =>
          if fd.n ≤ a.i then none
          else if fd.base < d.share ∧ a.feed.due.1 < a.i + fd.take then none
          else
            let d := d.feedRead f fd fm a.i a.errs
            match d.feedTiles f fd fm a.i with
            | none => some (d.stopAt n 0x14 a.cmd.addr)
            | some ts =>
              let rs := operandRings f s fd a.seq ts
              let eos : List RingTile := if fd.n ≤ a.i + fd.take then
                [{ fold := f, drive := s, stream := fd.stream, kind := 4, fmt := 0, scaled := false
                   seq := (a.seq + rs.length) % 2 ^ 32, lot := 0, part := 0, elems := [], scales := [], poison := []
                   home := 63, lastPart := false }] else []
              some (d.onAct n a.id fun a => { a with
                parts := rs ++ eos, i := a.i + fd.take, seq := (a.seq + rs.length) % 2 ^ 32 })
    | _, _ => none

/-! ## Arrivals into the pen (R104, R105, R182) -/

/-- The end of a stream passed on, once the pen has done with the stream: its LAND completes, or its last weight tile
has been forwarded (R103, R182, R188). -/
def Device.passEnd (d : Device) (f n i : Nat) (ss : List Nat) (x : Dir) (st : Nat) : Option Device :=
  let y := (d.site n).node.dir x
  match ((d.site n).node.input x).find? (·.stream = st) with
  | none => none
  | some r =>
    if r.kind ≠ 4 ∨ !d.canSend ss x i r then none
    else
      let go (d : Device) : Device := (d.onDir n x (·.endPos st)).send f ss x i r
      if r.home < 63 then
        match (d.site n).seqr.lander st with
        | none => none
        | some a => if a.parts ≠ [] then none else some (go ((d.onSite n (Site.onNode · (·.take x r))).landDone n st))
      else if y.held.any (fun h => h.ring.any (·.stream = st)) ∨ ((d.site n).seqr.taker x st).isSome then none
      else some (go (d.onSite n (Site.onNode · (·.take x r))))

/-- The node passes on one ring tile, of the first stream in turn that has one and can send it (R96). -/
def Device.passNext (d : Device) (f n i : Nat) (ss : List Nat) (x : Dir) : Option Device :=
  (turn ((d.site n).node.dir x).served).findSome? fun st =>
    (d.forward f n i ss x st
      <|> (if x = .sunwise then d.landSend f n i ss st <|> d.lotSend f n i ss st else none)
      <|> d.passEnd f n i ss x st).map fun d => d.onDir n x fun y => { y with served := st }

/-- The tile at the head of a stream's input is taken: into a free holding register once a PRODUCT in progress
takes its stream, or landed; the end of a stream that a PRODUCT still expects a tile of stops the drive (R182). -/
def Device.takeTile (d : Device) (n : Nat) (v : Drive) (x : Dir) : Option Device :=
  let nd := (d.site n).node
  let y := nd.dir x
  let inp := nd.input x
  (turn y.served).findSome? fun st =>
    let mine := inp.filter (·.stream = st)
    match mine with
    | [] => none
    | r :: _ =>
      if r.kind < 2 then
        let k := ringTiles r.fmt
        if r.fmt = 8 ∨ ((d.site n).seqr.taker x st).isNone ∨ 2 ≤ (y.held.filter fun h => !h.wide).length ∨ mine.length < k then none
        else some (d.onSite n (Site.onNode · fun nd =>
          (nd.takes x (mine.take k)).onDir x fun y => { y with held := y.held ++ [⟨mine.take k, false⟩] }))
      else if r.kind < 4 then d.landPart v n r
      else if r.home < 63 ∨ y.held.any (fun h => h.ring.any (·.stream = st)) then none
      else ((d.site n).seqr.taker x st).map fun a => d.stopAt n 0x19 a.cmd.addr

/-- The j-th lot waiting on a lot-source PRODUCT's race, which is to be its item a.i + j: the status of its handle and
order, its word address and the index the PRODUCT's lots count from (R183, R194). -/
def Device.lotAt (d : Device) (n : Nat) (v : Drive) (a : Active) (p : Product) (j : Nat) : Nat × Nat × Nat :=
  let race := (d.site n).race (p.sr % 8)
  let tagOf (j : Nat) : Nat := d.handleTag n (race.getD j 0#32).toNat
  let first := a.lot0.getD (tagOf 0)
  let h := (race.getD j 0#32).toNat
  let st := d.handleStatus n v h true
  (if st ≠ 0 then st else if tagOf j ≠ first + a.i + j then 0x17 else 0, d.handleAddr n h / 8, first)

/-- Whether the tag of a drove tile is not what the PRODUCT that takes it names (R539). -/
def Product.wrongTag (p : Product) (r : RingTile) : Bool := r.fmt ≠ p.bfmt || r.scaled ≠ p.bscl

/-- A PRODUCT whose tile steps are all skipped forwards each drove tile, and pops each lot, as it comes (R85,
R105, R180); tags and order are checked as for any it takes (R183, R539). -/
def Device.skipTile (d : Device) (n : Nat) (v : Drive) (x : Dir) : Option Device :=
  (d.site n).seqr.act.findSome? fun a =>
    match a.cmd.body, a.phase with
    | .product p, .running =>
      if (p.nextT 0).isSome ∨ p.n ≤ a.i then none else
      let next (d : Device) (first : Option Nat) : Device := d.onAct n a.id fun a =>
        { a with lot0 := first, i := a.i + 1, phase := if a.i + 1 = p.n then .finished else .running }
      let k := if p.cplx = 0 then 1 else 2
      let ts := ((d.site n).node.unused x p.sr).take k
      if p.src = 0 ∧ p.dir = x ∧ ts.length = k ∧ (d.site n).seqr.taker x p.sr = some a then
        some (if ts.flatten.any p.wrongTag then d.stopAt n 0x02 a.cmd.addr
          else next (d.onSite n (Site.onNode · (·.usedUp x p.sr k))) a.lot0)
      else if p.src = 2 ∧ x = .sunwise ∧ (d.site n).race (p.sr % 8) ≠ [] then
        let l := d.lotAt n v a p 0
        some (if l.1 ≠ 0 then d.stopAt n l.1 a.cmd.addr else next (d.onSite n (·.popRace (p.sr % 8))) (some l.2.2))
      else none
    | _, _ => none

/-- Whether the nodes of a fold move tiles: its drive goes on and no substitution or pre-emption holds them
(R106, R120, R126, R208). -/
def Device.flows (d : Device) (n : Nat) : Option (Nat × Drive) :=
  if (d.foldSites (d.site n).fold).any (fun m => (d.site m).stops.any fun c => c = .substitution || c = .preempt) then none
  else d.goes n

/-- One action of a node in one direction, if there is any. -/
def Device.nodeAct (d : Device) (ss : List Nat) (x : Dir) (i : Nat) : Option Device :=
  let n := ss.getD i 0
  match d.flows n with
  | none => none
  | some (s, v) =>
    let f := (d.site n).fold
    d.passNext f n i ss x
      <|> (if x = .sunwise then d.lotStart f s n v else none)
      <|> (if x = .sunwise then d.landStart n else none)
      <|> d.skipTile n v x
      <|> d.takeTile n v x
      <|> (if i = 0 ∧ x = .sunwise then d.feedStep f s n <|> d.feedSend f n else none)
      <|> d.leftOver n x

/-- A node acts while it can, up to a bound. -/
def Device.nodeGo : Nat → Device → List Nat → Dir → Nat → Device
  | 0, d, _, _, _ => d
  | k + 1, d, ss, x, i => match d.nodeAct ss x i with
    | some d => Device.nodeGo k d ss x i
    | none => d

/-- Actions a node may take in one settling. -/
def nodeFuel : Nat := 400

/-- Pens of a loop, downstream first, in a direction (R101). -/
def downstream (m : Nat) : Dir → List Nat
  | .sunwise => (List.range m).reverse
  | .widdershins => (List.range m).tail ++ (if m = 0 then [] else [0])

/-- The drove of a fold settles: every node does what it can, twice round (R95 to R106). -/
def Device.settle (d : Device) (f : Nat) : Device :=
  let ss := d.foldSites f
  let once (d : Device) : Device := [Dir.sunwise, Dir.widdershins].foldl (fun d x =>
    (downstream ss.length x).foldl (fun d i => Device.nodeGo nodeFuel d ss x i) d) d
  once (once d)

/-- The drove of a site's fold settles. -/
def Device.settleAt (d : Device) (n : Nat) : Device := if d.inFold n then d.settle (d.site n).fold else d

/-! ## FEED, LOT, LAND -/

/-- Largest offset from the base that a FEED reads (R185). -/
def Feed.far (fd : Feed) : Nat :=
  let q := (fd.n - 1) / fd.c0
  let o := (fd.n - 1) / (fd.c0 * fd.c1)
  let last := (fd.n - 1) % fd.c0 * fd.s0 + q % fd.c1 * fd.s1 + o * fd.s2
  let full := if 0 < q % fd.c1 then (fd.c0 - 1) * fd.s0 + (q % fd.c1 - 1) * fd.s1 + o * fd.s2 else 0
  let outer := if 0 < o then (fd.c0 - 1) * fd.s0 + (fd.c1 - 1) * fd.s1 + (o - 1) * fd.s2 else 0
  max last (max full outer)

/-- Status of a FEED at decode, #00 where it may start (R28, R102, R138, R139, R176, R185, R186). -/
def Device.feedStatus (d : Device) (n f s : Nat) (v : Drive) (fd : Feed) : Nat :=
  match Fmt.ofCode fd.fmt with
  | none => 0x02
  | some fm =>
    if fd.scl ∧ !fm.scalable then 0x02
    else if fd.n = 0 ∨ fd.c0 = 0 ∨ fd.c1 = 0 ∨ (fd.tr ∧ fd.n % 2 = 1 ∧ !fd.fp4p) ∨ (fd.fp4p ∧ fd.fmt ≠ 4) then 0x03
    else if d.penOf n ≠ 0 then 0x1A
    else
      let len := fd.bytes fm
      let hi := fd.base + fd.far + len
      let st :=
        if fd.base < d.share ∧ d.full then d.access f v (fd.base / 8 * 8) ((hi + 7) / 8 * 8 - fd.base / 8 * 8)
        else if padBase ≤ fd.base ∧ fd.base < padBase + padSize then
          if fd.base % 8 ≠ 0 ∨ (1 < fd.c0 ∧ fd.s0 % 8 ≠ 0) ∨ (1 < fd.c1 ∧ fd.s1 % 8 ≠ 0) ∨ fd.s2 % 8 ≠ 0 then 0x10
          else if inExtent v (fd.base % padBase) (fd.far + len) then 0 else 0x11
        else 0x1A
      if st ≠ 0 then st
      else if (d.fold f).streams.contains (s, fd.dir, fd.stream) then 0x16 else 0

/-- What the reads of a command just issued find. -/
def Device.withErrs (d : Device) (n id : Nat) (errs : List (Nat × Ecc)) : Device :=
  d.onAct n id fun a => { a with errs := errs }

/-- FEED: opens its stream at the entry pen. -/
def Device.doFeed (d : Device) (n : Nat) (q : Queue) (errs : List (Nat × Ecc)) : Device :=
  match d.ready n q with
  | some i =>
    match i.c.body with
    | .feed fd =>
      let fd := { fd with base := relLocal i.v i.c.rel i.slot fd.base }
      let st := d.feedStatus n i.f i.s i.v fd
      if st ≠ 0 then d.stopAt n st i.c.addr else
      let i := { i with c := { i.c with body := .feed fd } }
      ((d.issue n q i .running fun d =>
        d.onFold i.f fun o => { o with streams := o.streams ++ [(i.s, fd.dir, fd.stream)] }).withErrs n
          (d.site n).seqr.nextId errs).settleAt n
    | _ => d
  | none => d
/-- FEED. -/
def execFeed (n : Nat) (q : Queue) (errs : List (Nat × Ecc)) (s : State) : Host.Outcome State Fault Refusal :=
  s.act (·.doFeed n q errs)

/-- LOT: lot 0, whose handle and addresses are checked first (R209), opens the stream; every lot waits for its relay
condition. -/
def Device.doLot (d : Device) (n : Nat) (q : Queue) (errs : List (Nat × Ecc)) : Device :=
  match d.ready n q with
  | some i =>
    match i.c.body with
    | .lot l =>
      let st := d.handleStatus n i.v l.h (l.g = 0)
      if l.p = 0 ∨ l.p < l.px then d.stopAt n 0x03 i.c.addr
      else if st ≠ 0 then d.stopAt n st i.c.addr
      else if l.g = 0 ∧ !inExtent i.v (d.handleAddr n l.h) (l.p * 2176) then d.stopAt n 0x11 i.c.addr
      else if l.g = 0 ∧ (d.fold i.f).streams.contains (i.s, .sunwise, l.stream) then d.stopAt n 0x16 i.c.addr
      else ((d.issue n q i .waiting fun d =>
        if l.g = 0 then
          (d.onFold i.f fun o => { o with streams := o.streams ++ [(i.s, .sunwise, l.stream)] }).onDir n .sunwise
            (·.setPos ⟨i.s, l.stream, 0, none⟩)
        else d).withErrs n (d.site n).seqr.nextId errs).settleAt n
    | _ => d
  | none => d
/-- LOT. -/
def execLot (n : Nat) (q : Queue) (errs : List (Nat × Ecc)) (s : State) : Host.Outcome State Fault Refusal :=
  s.act (·.doLot n q errs)

/-- LAND: a second LAND of a stream waits for the first. -/
def Device.doLand (d : Device) (n : Nat) (q : Queue) : Device :=
  match d.ready n q with
  | some i =>
    match i.c.body with
    | .land l =>
      let last := l.h0 + l.c - 1
      if l.c = 0 ∨ 64 < l.c then d.stopAt n 0x03 i.c.addr
      else if 4096 ≤ last then d.stopAt n 0x0A i.c.addr
      else if !handleInExtent i.v l.h0 ∨ !handleInExtent i.v last then d.stopAt n 0x0B i.c.addr
      else (d.issue n q i .waiting id).settleAt n
    | _ => d
  | none => d
/-- LAND. -/
def execLand (n : Nat) (q : Queue) (s : State) : Host.Outcome State Fault Refusal := s.act (·.doLand n q)

/-- A feed flit reaches the FEED that it was sent for (R247). -/
def Device.feedArrive (d : Device) (x : Flight FeedFlit) : Device :=
  let n := x.flit.site
  let f := (d.site n).fold
  (d.site n).seqr.act.foldl (fun d a =>
    match a.cmd.body with
    | .feed fd =>
      match Fmt.ofCode fd.fmt with
      | some fm =>
        if x.part / 2 ^ 40 ≠ a.id then d else
        let t := { a.feed with got := a.feed.got ++ [x.part % 2 ^ 40] }
        d.onAct n a.id fun a => { a with feed := d.feedDue f fd fm t.got.length t }
      | none => d
    | _ => d) d

/-- FEED_FLIT: a feed flit reaches the feed drop of its station, in the order of its lane, and the entry pen, which puts the
ring tiles together in order from the header addresses (R246, R247); one that no FEED has asked for is nowhere on the ring. -/
def Device.doFeedFlit (d : Device) (c : FeedFlit) : Device :=
  match arriveGo (fun x => decide (x = c)) [] d.fabric.feed with
  | none => d
  | some (x, l) =>
    ((({ d with fabric := { d.fabric with feed := refill feedRoom x l } }).wake c.site).feedArrive x).settleAt c.site
/-- FEED_FLIT. -/
def execFeedFlit (c : FeedFlit) (s : State) : Host.Outcome State Fault Refusal := s.act (·.doFeedFlit c)

/-! ## Arrivals over a hop (R95, R97, R98) -/

/-- DROVE_TILE_ARRIVAL: the oldest ring tile of the hop reaches the node: checked for errors and sequence,
queued, and the drove settles. -/
def Device.doArrival (d : Device) (n : Nat) (x : Dir) (e : Ecc) : Device :=
  match d.goes n with
  | none => d
  | some (s, _) =>
    let y := (d.site n).node.dir x
    match y.hop with
    | [] => d
    | r :: rest =>
      if y.asked then d
      else if e = .uncorrectable then
        if 3 ≤ y.resends then d.stopTile n 0x18 x r.stream
        else d.onDir n x fun y => { y with asked := true }
      else
        let want := match y.posOf r.stream with | some p => p.next | none => 0
        if r.seq ≠ want then
          (d.event .droveSequence [n, r.stream, want, r.seq]).stopTile n 0x17 x r.stream
        else
          (d.onDir n x fun y =>
            ({ y with hop := rest, queue := y.queue ++ [r], resends := 0 }).setPos
              { drive := s, stream := r.stream, next := (r.seq + 1) % 2 ^ 32
                lot := match y.posOf r.stream with | some p => p.lot | none => none }).settleAt n
/-- DROVE_TILE_ARRIVAL. -/
def execDroveTileArrival (n : Nat) (x : Dir) (e : Ecc) (s : State) : Host.Outcome State Fault Refusal :=
  s.act (·.doArrival n x e)

/-- DROVE_RESEND: the sender sends the ring tile again; counted, with an event (R98). -/
def Device.doResend (d : Device) (n : Nat) (x : Dir) : Device :=
  let y := (d.site n).node.dir x
  if y.asked then
    ((d.onDir n x fun y => { y with asked := false, resends := y.resends + 1 }).onSite n
      (Site.onNode · fun nd => { nd with resendCount := nd.resendCount + 1 })).event .droveResend
      [n, match y.hop with | r :: _ => r.stream | [] => 0]
  else d
/-- DROVE_RESEND. -/
def execDroveResend (n : Nat) (x : Dir) (s : State) : Host.Outcome State Fault Refusal := s.act (·.doResend n x)

end Sys2Proof.Machine
end

