-- ==== Sys2Proof/Machine/Stream.lean ====
section
/-!
DEFINITION. Flow commands and the sync unit's commands of a pen's stream, STREAM_FETCH (06: R159 to R165,
R177 to R179, R194 to R207).
-/
namespace Sys2Proof.Machine

/-! ## Flow commands -/

/-- NOP: skipped with its extension words (R162); they may not run beyond the end of the region (R159). -/
def Device.doNop (d : Device) (n : Nat) : Device :=
  let q := (d.site n).seqr
  match d.nextWord n with
  | some (_, .nop k, _) =>
    if q.fetched.length < k then (if q.limit < q.pc + 16 * k then d.stopAt n 0x1D q.pc else d)
    else (d.skipWords n k).pump n
  | _ => d
/-- NOP. -/
def execNop (n : Nat) (s : State) : Host.Outcome State Fault Refusal := s.act (·.doNop n)

/-- END: fetching stops (R162); after one STEP only, BAD_OPERAND (R178); a tile left over stops the drive (R182). -/
def Device.doEnd (d : Device) (n : Nat) : Device :=
  match d.nextWord n with
  | some (_, .stop, _) =>
    let q := (d.site n).seqr
    if q.stepF != q.stepB then d.stopAt n 0x03 (q.stepAddr (if q.stepF then .fwd else .bwd))
    else ((d.onSite n (Site.onSeqr · fun s => { s with ended := true, fetched := [] })).leftStop n).endCheck (d.site n).fold
  | _ => d
/-- END. -/
def execEndStream (n : Nat) (s : State) : Host.Outcome State Fault Refusal := s.act (·.doEnd n)

/-- JUMP: the stream goes on at the target, in the region it lies in (R159). -/
def Device.doJump (d : Device) (n : Nat) : Device :=
  match d.nextWord n with
  | some (v, .jump x, _) =>
    match d.streamLimit n v x with
    | none => d.stopAt n 0x1D (d.site n).seqr.pc
    | some l => d.goTo n x l
  | _ => d
/-- JUMP. -/
def execJump (n : Nat) (s : State) : Host.Outcome State Fault Refusal := s.act (·.doJump n)

/-- CALL: the next address on the return stack of eight, then the target (R159, R165). -/
def Device.doCall (d : Device) (n : Nat) : Device :=
  match d.nextWord n with
  | some (v, .call x, _) =>
    let q := (d.site n).seqr
    if 8 ≤ q.stack.length then d.stopAt n 0x1C q.pc else
    match d.streamLimit n v x with
    | none => d.stopAt n 0x1D q.pc
    | some l => (d.onSite n (Site.onSeqr · fun s => { s with stack := (q.pc + 16) :: s.stack })).goTo n x l
  | _ => d
/-- CALL. -/
def execCall (n : Nat) (s : State) : Host.Outcome State Fault Refusal := s.act (·.doCall n)

/-- RETURN: the address popped off the return stack (R165). -/
def Device.doRet (d : Device) (n : Nat) : Device :=
  match d.nextWord n with
  | some (v, .ret, _) =>
    let q := (d.site n).seqr
    match q.stack with
    | [] => d.stopAt n 0x1C q.pc
    | x :: r =>
      match d.streamLimit n v x with
      | none => (d.onSite n (Site.onSeqr · fun s => { s with stack := r })).goTo n x x
      | some l => (d.onSite n (Site.onSeqr · fun s => { s with stack := r })).goTo n x l
  | _ => d
/-- RETURN. -/
def execRet (n : Nat) (s : State) : Host.Outcome State Fault Refusal := s.act (·.doRet n)

/-- STREAM_FETCH: a block arrives and its commands are queued (R160). -/
def execStreamFetch (n : Nat) (errs : List (Nat × Ecc)) (s : State) : Host.Outcome State Fault Refusal :=
  s.act fun d => (d.fetchBlock n errs).settleAt n

/-! ## MBSEL and STEP -/

/-- MBSEL: the queue's microbatch slot (R177). -/
def Device.doMbsel (d : Device) (n : Nat) (q : Queue) : Device :=
  match d.ready n q with
  | some i =>
    match i.c.body with
    | .mbsel k => d.issue n q i .finished fun d =>
        d.onSite n (Site.onSeqr · fun s => match q with | .fwd => { s with microF := k } | .bwd => { s with microB := k })
    | _ => d
  | none => d
/-- MBSEL. -/
def execMbsel (n : Nat) (q : Queue) (s : State) : Host.Outcome State Fault Refusal := s.act (·.doMbsel n q)

/-- STEP: waits at the head of its queue for the fold-wide change (R178). -/
def Device.doStep (d : Device) (n : Nat) (q : Queue) : Device :=
  match d.ready n q with
  | some i => match i.c.body with | .step => d.issue n q i .waiting id | _ => d
  | none => d
/-- STEP. -/
def execStepCmd (n : Nat) (q : Queue) (s : State) : Host.Outcome State Fault Refusal := s.act (·.doStep n q)

/-! ## Tallies (R197 to R199) -/

/-- An increment by a stream command of site n: to its own pen's tally at once, else by control flit. -/
def Device.doTallyAdd (d : Device) (n : Nat) (q : Queue) : Device :=
  match d.ready n q with
  | some i =>
    match i.c.body with
    | .tallyAdd t inc =>
      match d.tallyOperand i.f i.v i.c.rel i.slot t with
      | none => d.stopAt n 0x07 i.c.addr
      | some id => d.issue n q i .finished fun d => d.bump n i.f id inc
    | _ => d
  | none => d
/-- TALLY_ADD. -/
def execTallyAdd (n : Nat) (q : Queue) (s : State) : Host.Outcome State Fault Refusal := s.act (·.doTallyAdd n q)

/-- A tally set by site n: its own pen's at once, else by control flit. -/
def Device.setFrom (d : Device) (n f id value : Nat) : Device :=
  match d.tallyAt f id with
  | some (.pen m t) => if m = n then d.tallyPut (.pen m t) (BitVec.ofNat 32 value) else d.inject (stopOf n) (.tallySet f id value)
  | some (.global _) => d.inject (stopOf n) (.tallySet f id value)
  | none => d

/-- TALLY_SET. -/
def Device.doTallySet (d : Device) (n : Nat) (q : Queue) : Device :=
  match d.ready n q with
  | some i =>
    match i.c.body with
    | .tallySet t value =>
      match d.tallyOperand i.f i.v i.c.rel i.slot t with
      | none => d.stopAt n 0x07 i.c.addr
      | some id => d.issue n q i .finished fun d => d.setFrom n i.f id value
    | _ => d
  | none => d
/-- TALLY_SET. -/
def execTallySet (n : Nat) (q : Queue) (s : State) : Host.Outcome State Fault Refusal := s.act (·.doTallySet n q)

/-! ## Deadlines (R202, R203) -/

/-- Watch value V of a deadline: from the drive's watch base, or from the pen's watch copy rounded up to 1,024 ticks. The spec
gives a V below zero no meaning: it is taken as 0, reached at once (DESIGN CHOICE, log entry 122). -/
def Device.watchValue (d : Device) (n : Nat) (v : Drive) (l : Deadline) : Nat :=
  (((if l.rel then (d.copyOf n + 1023) / 1024 * 1024 else v.watchBase : Nat) : Int) + l.off).toNat

/-- The last command issued in a queue's sync slot asks for a comparator of a class; a value already passed
fires at once: `late` ends the wait. Where no comparator can be had a deadline is dropped and the refusal
recorded, and a watch wait goes on without one (R202, R203, R285). -/
def Device.askCmp (d : Device) (n : Nat) (q : Queue) (cls value : Nat) (late : Device → Active → Device) : Device :=
  match (d.site n).seqr.slotAt q .sync 0 with
  | none => d
  | some a =>
    if a.phase ≠ .waiting then d else
    let f := (d.site n).fold
    match d.watch.join value cls f (.wait n (q = .bwd) a.id) with
    | some w =>
      let d := { d with watch := w }
      let d := d.onSite n (Site.onSeqr · fun s => s.onAct a.id fun a => { a with want := some value, joined := true })
      if value ≤ d.now then late d { a with want := some value, joined := true } else d
    | none =>
      let d := d.event .watchNoneFree [n, value]
      if cls = 2 then d.onSite n (Site.onSeqr · fun s => s.onAct a.id fun a => { a with want := some value, asked := d.now })
      else d

/-- End of a wait by its deadline: TALLY_TIMEOUT or MUSTER_TIMEOUT (R204). -/
def Device.timeout (status : Nat) (n : Nat) (d : Device) (a : Active) : Device :=
  let d := { d with watch := d.watch.release fun u => decide (u = CmpUser.wait n (decide (a.q = Queue.bwd)) a.id) }
  d.stopAt n status a.cmd.addr

/-- A command's wait is over. -/
def Device.setDone (n : Nat) (d : Device) (a : Active) : Device :=
  d.onSite n (Site.onSeqr · fun s => s.onAct a.id fun a => { a with phase := .finished })

/-- TALLY_WAIT: its own pen's or a global tally only (R198); an uncorrectable one stops the drive (R156). -/
def Device.doTallyWait (d : Device) (n : Nat) (q : Queue) : Device :=
  match d.ready n q with
  | some i =>
    match i.c.body with
    | .tallyWait t thr dl =>
      match d.tallyOperand i.f i.v i.c.rel i.slot t with
      | none => d.stopAt n 0x07 i.c.addr
      | some id =>
        if id < globalBase ∧ id / 3072 ≠ d.penOf n then d.stopAt n 0x07 i.c.addr else
        let i' := { i with c := { i.c with body := .tallyWait id thr dl } }
        if ((d.tallyAt i.f id).map d.tallyBad).getD false then d.stopAt n 0x09 i.c.addr
        else if d.tallyReached i.f id thr then d.issue n q i' .finished (fun d => d) else
        let d := d.issue n q i' .waiting (fun d => d)
        match dl with
        | none => d
        | some l => d.askCmp n q 1 (d.watchValue n i.v l) (Device.timeout 0x08 n)
    | _ => d
  | none => d
/-- TALLY_WAIT. -/
def execTallyWait (n : Nat) (q : Queue) (s : State) : Host.Outcome State Fault Refusal := s.act (·.doTallyWait n q)

/-! ## Musters (R122, R201) -/

/-- Key of a muster of a drive slot and group. -/
def musterKey (slot group : Nat) : Nat := slot * 64 + group

/-- Whether a queued or active command of the pen takes a stream's tiles: a PRODUCT or LAND naming it (R122, R182). -/
def Seqr.wants (s : Seqr) (dir : Dir) (stream : Nat) : Bool :=
  let names : Body → Bool := fun b => b.droveOf dir stream || match b with
    | .land l => dir = .sunwise && l.stream = stream
    | _ => false
  (s.fwd ++ s.bwd).any (fun c => names c.body) || s.act.any fun a => a.phase ≠ .finished && names a.cmd.body

/-- Whether a node queue holds a ring tile of a stream that the pen has closed (R122): its end-of-stream tile with no
tile of it before, or a tile within it that no command takes; one with sequence number 0 begins a use to come. -/
def Site.holdsClosed (t : Site) (x : Dir) : Bool :=
  let q := (t.node.dir x).queue
  (List.range 16).any fun st => match q.find? (·.stream = st) with
    | some r => r.kind = 4 || (r.seq ≠ 0 && !t.seqr.wants x st)
    | none => false

/-- Whether a pen's arrival counts: no tile to forward in a holding register, no queued tile of a closed stream
(R122). -/
def Site.mayArrive (t : Site) : Bool :=
  t.node.sun.held.isEmpty && t.node.wid.held.isEmpty && !t.holdsClosed .sunwise && !t.holdsClosed .widdershins

/-- The pen arrives: its arrival goes to the hub (R201). -/
def Device.musterArrive (d : Device) (n f slot group : Nat) : Device :=
  (d.onSite n fun t => { t with arrived := nins t.arrived (musterKey slot group) }).inject (stopOf n)
    (.musterArrive f slot group (d.penOf n))

/-- MUSTER: arrive, wait, or both; an arrival in an unreleased round is MUSTER_OVERRUN. -/
def Device.doMuster (d : Device) (n : Nat) (q : Queue) : Device :=
  match d.ready n q with
  | some i =>
    match i.c.body with
    | .muster g mode dl =>
      if mode = 3 ∨ 64 / d.foldCount ≤ g then d.stopAt n 0x03 i.c.addr else
      let t := d.site n
      let there := t.arrived.contains (musterKey i.s g)
      if mode = 2 then
        let d := d.issue n q i (if there then .waiting else .finished) id
        match dl with
        | some l => if there then d.askCmp n q 0 (d.watchValue n i.v l) (Device.timeout 0x0C n) else d
        | none => d
      else if there then d.stopAt n 0x0D i.c.addr
      else
        let now := t.mayArrive
        let d := d.issue n q i (if now ∧ mode = 1 then .finished else .waiting) fun d =>
          if now then d.musterArrive n i.f i.s g else d
        let d := if now then d.onSite n (Site.onSeqr · fun s =>
          { s with act := s.act.map fun a => if a.q = q ∧ a.e = .sync then { a with t := 1 } else a }) else d
        match dl with
        | some l => d.askCmp n q 0 (d.watchValue n i.v l) (Device.timeout 0x0C n)
        | none => d
    | _ => d
  | none => d
/-- MUSTER. -/
def execMuster (n : Nat) (q : Queue) (s : State) : Host.Outcome State Fault Refusal := s.act (·.doMuster n q)

/-- WATCH_WAIT (R202 to R204). -/
def Device.doWatchWait (d : Device) (n : Nat) (q : Queue) : Device :=
  match d.ready n q with
  | some i =>
    match i.c.body with
    | .watchWait l =>
      (d.issue n q i .waiting id).askCmp n q 2 (d.watchValue n i.v l) (Device.setDone n)
    | _ => d
  | none => d
/-- WATCH_WAIT. -/
def execWatchWait (n : Nat) (q : Queue) (s : State) : Host.Outcome State Fault Refusal := s.act (·.doWatchWait n q)

/-- WATCH_WAIT_RETRY: every 1,024 ticks a refused WATCH_WAIT is tried again; it completes at the first retry that finds
the watch at or past V, or takes a comparator now free (R203). -/
def Device.doWatchRetry (d : Device) (n : Nat) (q : Queue) : Device :=
  match d.goes n, (d.site n).seqr.slotAt q .sync 0 with
  | some _, some a =>
    match a.cmd.body, a.want, a.joined, a.phase with
    | .watchWait _, some v, false, .waiting =>
      if d.now < a.asked + 1024 then d
      else if v ≤ d.now then Device.setDone n d a
      else
        let at_ := d.now - (d.now - a.asked) % 1024
        match d.watch.join v 2 (d.site n).fold (.wait n (q = .bwd) a.id) with
        | some w => ({ d with watch := w }).onSite n (Site.onSeqr · fun s => s.onAct a.id fun a => { a with joined := true })
        | none => d.onSite n (Site.onSeqr · fun s => s.onAct a.id fun a => { a with asked := at_ })
    | _, _, _, _ => d
  | _, _ => d
/-- WATCH_WAIT_RETRY. -/
def execWatchWaitRetry (n : Nat) (q : Queue) (s : State) : Host.Outcome State Fault Refusal :=
  s.act (·.doWatchRetry n q)

/-! ## Races and handles (R194, R195) -/

/-- RACE_PUSH: waits while its race is full. -/
def Device.doRacePush (d : Device) (n : Nat) (q : Queue) : Device :=
  match d.ready n q with
  | some i =>
    match i.c.body with
    | .racePush r h =>
      let st := d.handleStatus n i.v h false
      if st ≠ 0 then d.stopAt n st i.c.addr
      else if 64 ≤ ((d.site n).race r).length then d.issue n q i .waiting id
      else d.issue n q i .finished fun d => d.onSite n (·.push r (BitVec.ofNat 32 h))
    | _ => d
  | none => d
/-- RACE_PUSH. -/
def execRacePush (n : Nat) (q : Queue) (s : State) : Host.Outcome State Fault Refusal := s.act (·.doRacePush n q)

/-- RACE_POP: waits while its race is empty, then discards the head. -/
def Device.doRacePop (d : Device) (n : Nat) (q : Queue) : Device :=
  match d.ready n q with
  | some i =>
    match i.c.body with
    | .racePop r =>
      if (d.site n).race r = [] then d.issue n q i .waiting id
      else (d.issue n q i .finished fun d => d.onSite n (·.popRace r)).settleAt n
    | _ => d
  | none => d
/-- RACE_POP. -/
def execRacePop (n : Nat) (q : Queue) (s : State) : Host.Outcome State Fault Refusal := s.act (·.doRacePop n q)

/-- HANDLE_SET: an entry of the handle table, in the drive's extent. -/
def Device.doHandleSet (d : Device) (n : Nat) (q : Queue) : Device :=
  match d.ready n q with
  | some i =>
    match i.c.body with
    | .handleSet h e =>
      if !handleInExtent i.v h then d.stopAt n 0x0B i.c.addr
      else d.issue n q i .finished fun d =>
        d.onSite n fun t => { t with handle := sset 0#64 t.handle h (BitVec.ofNat 64 e) }
    | _ => d
  | none => d
/-- HANDLE_SET. -/
def execHandleSet (n : Nat) (q : Queue) (s : State) : Host.Outcome State Fault Refusal := s.act (·.doHandleSet n q)

/-! ## SHEAR and COLLECT (R206, R207, R217, R218, R336) -/

/-- Status of a SHEAR at decode, #00 where it may be accepted (R206, R217). A copy word that names a reserved format code
is BAD_OPERAND, which R217 gives it, and not R28's BAD_FORMAT (DEDUCED, log entry 22). -/
def Device.shearStatus (d : Device) (v : Drive) (c : Shear) : Nat :=
  let w := (c.imms.getD 7 0#32).toNat
  let fmt := bits w 3 0; let pair := bit w 6
  let matrix := c.rule = 2 ∨ c.rule = 3
  if c.link ∧ d.foldCount > 1 then 0x1B
  else if 4 ≤ c.rule ∨ (c.link ∧ matrix) ∨ (matrix ∧ c.count ≠ c.rows * c.cols) ∨ c.count = 0 then 0x03
  else if c.count % 2048 ≠ 0 ∨ (pair ∧ c.count % 4096 ≠ 0) then 0x03
  else if 8 < fmt ∨ (6 ≤ fmt ∧ bit w 4) ∨ (pair ∧ fmt ≠ 4) ∨ w / 2 ^ 12 ≠ 0 ∨
    (c.rule ≠ 3 ∧ bits w 11 9 ≠ 0) ∨ (pair ∧ matrix) then 0x03
  else if matrix ∧ (c.rows % 32 ≠ 0 ∨ c.cols % 64 ≠ 0) then 0x03
  else if c.rule = 2 ∧ 8192 < min c.rows c.cols then 0x03
  else if c.rule = 3 ∧ (8192 < c.rows ∨ 8192 < c.cols) then 0x03
  else
    let st := c.count / 2048 * 32768
    let n := max c.rows c.cols; let mm := min c.rows c.cols
    let fac := if c.rule = 2 then 8 * (c.rows * c.cols + mm * mm)
      else if c.rule = 3 then 8 * (c.rows * c.rows + c.cols * c.cols) + 20 * n * n + 4 * c.rows * c.cols else 0
    let inside (a len : Nat) : Bool := d.full && a + len ≤ d.share
    let ok := inside c.state st && (c.link || inside c.grad (c.count * 4)) && (fac = 0 || inside c.factor fac) &&
      (!c.snap || (inside (c.state + v.snap) st &&
        (c.rule ≠ 3 || inside (c.factor + v.snap) (8 * (c.rows * c.rows + c.cols * c.cols)))))
    if ok then 0 else 0x15

/-- Whether the shears of a SHEAR have room in their queue of 16 (R218). -/
def Shears.room (s : Shears) (c : Shear) : Bool :=
  if c.link then s.link.length < 16 else (s.mem.getD (c.layer % 4) []).length < 16

/-- The control byte of the schedule digest (R354). -/
def Shear.ctl (c : Shear) : Nat := c.rule + (if c.link then 16 else 0) + (if c.snap then 32 else 0)

/-- The leaf of the open step in whose leaf extent a state address lies (R215, R369): the j-th hosted leaf's extent
starts at xbase + j * E, E being the extent over the leaves hosted. Outside the extent the spec names no leaf: the first
hosted one (DESIGN CHOICE, log entry 45). -/
def Drive.leafAt (v : Drive) (state : Nat) : Option LeafStep :=
  match v.opened with
  | some o =>
    let e := v.xsize / max 1 o.leaves.length
    if v.xbase ≤ state ∧ state < v.xbase + v.xsize ∧ e ≠ 0 then o.leaves[(state - v.xbase) / e]? <|> o.leaves.head?
    else o.leaves.head?
  | none => none

/-- Leaves this device hosts: its flock's, or leaf 0 alone (R333, R352). -/
def Device.leavesHosted (d : Device) : List Nat :=
  if d.active then d.flock.hosted d.flock.rank else [0]
/-- Leaf count L of the flock, 1 outside one (R19, R352). -/
def Device.leafCount (d : Device) : Nat := if d.active then bits d.flock.cfg 12 6 else 1

/-- Ranks of the active devices. -/
def Device.activeRanks (d : Device) : List Nat := (d.flock.leaves.map (·.1)).foldl nins []
/-- Rank that hosts a leaf. -/
def Device.hostOf (d : Device) (leaf : Nat) : Nat :=
  match d.flock.leaves.find? fun x => x.2.1 ≤ leaf && leaf < x.2.1 + x.2.2 with
  | some x => x.1
  | none => d.flock.rank
/-- First leaf this device hosts. -/
def Device.leaf0 (d : Device) : Nat := d.leavesHosted.headD 0

/-- Bytes of a plan's shard. -/
def Device.shardSize (d : Device) (p : PlanE) : Nat := p.size / d.leafCount

/-- Whether an accepted class 1 request awaits block j of a plan on this device: one of the leaf in whose shard the block
lies, `per` blocks to a shard (R222, R224). -/
def Device.awaitsBlock (d : Device) (plan per j : Nat) : Bool :=
  d.shears.link.any fun q => q.cmd.plan = plan && q.leaf = (d.leavesHosted.getD (j / max 1 per) 64)

/-- Whether a run holds a final gradient block that no request awaits (R224). -/
def Device.unmatched (d : Device) (r : RunC) : Bool :=
  match slook d.coll.plans r.coll.plan with
  | some p => r.blocks.any fun b => !d.awaitsBlock r.coll.plan (d.shardSize p / 8192) b.1
  | none => false

/-- The credits withheld for a run are owed again. -/
def Device.giveBack (d : Device) (slot : Nat) : Device :=
  match slook d.coll.slots slot with
  | some r =>
    let d := r.held.foldl (fun d e => d.onLink e.1 fun l => { l with owed := l.owed.modify e.2.1 (· + e.2.2) }) d
    { d with coll := { d.coll with slots := sput d.coll.slots slot { r with held := [] } } }
  | none => d

/-- The credits withheld for a plan are owed again once every block that waits has its request (R224). -/
def Device.freeHeld (d : Device) (plan : Nat) : Device :=
  match d.coll.slots.find? fun x => x.2.coll.plan = plan with
  | some (slot, r) => if d.unmatched r then d else d.giveBack slot
  | none => d

/-- Acceptance of a SHEAR by its shears (R169, R218): noted for the step's schedule digest (R354), with the
snapshot offset when the open step is a snapshot step (R233). -/
def Device.acceptShear (d : Device) (n : Nat) (a : Active) (c : Shear) : Device :=
  let f := (d.site n).fold
  match d.goes n with
  | none => d
  | some (s, v) =>
    let r : ShearReq := {
      fold := f, slot := s, leaf := ((v.leafAt c.state).map (·.leaf)).getD 0, pen := d.penOf n, q := a.q, addr := a.cmd.addr, done := a.cmd.done, inc := a.cmd.inc, cmd := c
      snap := match v.opened with | some o => if o.snap ∧ c.snap then some v.snap else none | none => none
      key := ((v.leafAt c.state).map (·.key)).getD 0
      ctr := ((v.leafAt c.state).map (·.ctr)).getD 0
      step := match v.opened with | some o => o.number | none => 0
      blocks := [] }
    let d := { d with shears :=
      if c.link then { d.shears with link := d.shears.link ++ [r] }
      else { d.shears with mem := d.shears.mem.modify (c.layer % 4) (· ++ [r]) } }
    let d := if c.link then d.freeHeld c.plan else d
    let d := d.onDrive f s fun v => { v with opened := v.opened.map fun o =>
      { o with shears := o.shears ++ [⟨c.layer, c.ctl, c.imms⟩] } }
    (d.onSite n (Site.onSeqr · fun q => q.dropAct a.id)).pump n

/-- SHEAR: checked at decode; it leaves its slot when its shears accept it. -/
def Device.doShear (d : Device) (n : Nat) (q : Queue) : Device :=
  match d.ready n q with
  | some i =>
    match i.c.body with
    | .shear c =>
      let st := d.shearStatus i.v c
      if st ≠ 0 then d.stopAt n st i.c.addr else
      let d := d.issue n q i .waiting id
      match (d.site n).seqr.slotAt q .sync 0 with
      | some a => if d.shears.room c then d.acceptShear n a c else d
      | none => d
    | _ => d
  | none => d
/-- SHEAR. -/
def execShear (n : Nat) (q : Queue) (s : State) : Host.Outcome State Fault Refusal := s.act (·.doShear n q)

/-- Bytes of a COLLECT's buffer on this device (R336). -/
def Device.collectBytes (d : Device) (p : PlanE) : Nat :=
  if p.op = 2 then p.size / d.leafCount * d.leavesHosted.length
  else if p.op = 3 then (if d.leavesHosted.contains p.root then p.size else 0)
  else p.size * d.leavesHosted.length

/-- Status of a COLLECT at decode (R18, R336, R207). -/
def Device.collectStatus (d : Device) (f : Nat) (v : Drive) (rel : Bool) (slot : Nat) (c : Collect) : Nat :=
  if d.foldCount > 1 ∨ !d.active then 0x1B else
  match slook d.coll.plans c.plan with
  | none => 0x03
  | some p =>
    if p.op ≠ c.op ∨ c.bytes ≠ d.collectBytes p then 0x03
    else if (match p.group with | some g => (slook d.coll.groups g).isNone | none => false) then 0x03
    else if c.bytes = 0 then 0
    else d.access f v (relLocal v rel slot c.buf) c.bytes

/-- Acceptance of a COLLECT by the collective engine (R169, R340). -/
def Device.acceptCollect (d : Device) (n : Nat) (a : Active) (c : Collect) : Device :=
  match d.goes n with
  | none => d
  | some (s, v) =>
    let r : Coll := ⟨(d.site n).fold, s, d.penOf n, a.q, a.cmd.addr, a.cmd.done, a.cmd.inc, c.plan, c.op,
      relLocal v a.cmd.rel a.slot c.buf, c.bytes⟩
    let d := { d with coll := { d.coll with queue := d.coll.queue ++ [r] } }
    (d.onSite n (Site.onSeqr · fun q => q.dropAct a.id)).pump n

/-- COLLECT: checked at decode; it leaves its slot when the collective engine accepts it. -/
def Device.doCollect (d : Device) (n : Nat) (q : Queue) : Device :=
  match d.ready n q with
  | some i =>
    match i.c.body with
    | .collect c =>
      let st := d.collectStatus i.f i.v i.c.rel i.slot c
      if st ≠ 0 then d.stopAt n st i.c.addr else
      let d := d.issue n q i .waiting id
      match (d.site n).seqr.slotAt q .sync 0 with
      | some a => if d.coll.queue.length < 16 then d.acceptCollect n a c else d
      | none => d
    | _ => d
  | none => d
/-- COLLECT. -/
def execCollect (n : Nat) (q : Queue) (s : State) : Host.Outcome State Fault Refusal := s.act (·.doCollect n q)

/-- Re-evaluation of a waiting sync command (R169): a reached tally, room or a handle on a race, an arrival
now allowed, room in the shears or the collective engine. -/
def Device.pollSync (d : Device) (n : Nat) (a : Active) : Device :=
  let t := d.site n
  let f := t.fold
  let fin (d : Device) : Device := Device.setDone n d a
  match a.cmd.body with
  | .tallyWait id thr _ =>
    if ((d.tallyAt f id).map d.tallyBad).getD false then d.stopAt n 0x09 a.cmd.addr
    else if d.tallyReached f id thr then fin d else d
  | .racePush r h => if (t.race r).length < 64 then fin (d.onSite n (·.push r (BitVec.ofNat 32 h))) else d
  | .racePop r => if t.race r = [] then d else (fin (d.onSite n (·.popRace r))).settleAt n
  | .muster g mode _ =>
    match d.goes n with
    | some (s, _) =>
      if mode ≠ 2 ∧ a.t = 0 then
        if t.arrived.contains (musterKey s g) then d.stopAt n 0x0D a.cmd.addr
        else if t.mayArrive then
          let d := d.musterArrive n f s g
          let d := d.onSite n (Site.onSeqr · fun q => q.onAct a.id fun a => { a with t := 1 })
          if mode = 1 then fin d else d
        else d
      else if t.arrived.contains (musterKey s g) then d else fin d
    | none => d
  | .shear c => if d.shears.room c then d.acceptShear n a c else d
  | .collect c => if d.coll.queue.length < 16 then d.acceptCollect n a c else d
  | _ => d

/-- The watch has reached V of a wait: a WATCH_WAIT completes; a TALLY_WAIT or MUSTER completes where the event that
satisfies it has come too, and else ends by its deadline (R204). -/
def Device.waitFires (d : Device) (n : Nat) (a : Active) : Device :=
  let orElse (status : Nat) : Device :=
    let e := d.pollSync n a
    if (e.site n).seqr.act.any fun b => b.id = a.id && b.phase = .finished then e else d.timeout status n a
  match a.cmd.body with
  | .watchWait _ => Device.setDone n d a
  | .tallyWait .. => orElse 0x08
  | .muster .. => orElse 0x0C
  | _ => d

end Sys2Proof.Machine
end

