-- ==== Sys2Proof/Machine/Array.lean ====
section
/-!
DEFINITION. The array and the mover: PRODUCT, TILE_STEP, CLEAR, RELEASE, MOVE (02, R34 to R50; 03, R56 to
R70, R85, R86; 05, R134, R135, R146 to R149; 06, R180 to R184, R189, R539, R540), and the paddock and
accumulator errors that an engine's read meets.
-/
namespace Sys2Proof.Machine

/-! ## Errors of reads (R64, R146 to R149) -/

/-- Row of an accumulator tile's row: its bank, and the 512-byte row within the bank (table Spare rows). -/
def accRowKey (tile row : Nat) : Nat := tile % 8 * 2 ^ 12 + (tile / 8 * 16 + row % 32 / 2)
/-- A row of an accumulator tile within its bank's rows, as reported for sparing (R64, R154). -/
def Device.accReport (d : Device) (n tile row : Nat) (e : Ecc) : Device :=
  d.rowReport (.acc n (tile % 8)) (tile / 8 * 16 + row % 32 / 2) e

/-- What an engine's read errors do at site n; true where the drive stops. An accumulator row that reports an error may take
a spare (R154). -/
def Device.readErr (d : Device) (n addr : Nat) (e : ReadErr) : Device × Bool :=
  match e with
  | .acc .corrected tile row => (d.accReport n tile row .corrected, false)
  | .acc .uncorrectable tile row =>
    (((d.accReport n tile row .uncorrectable).event .accUncorrectable [n, tile, row]).stopAt n 0x06 addr, true)
  | .pad .corrected _ => (d.onSite n fun t => { t with padCE := satAdd 32 t.padCE 1 }, false)
  | .pad .uncorrectable w =>
    (((d.onSite n (·.padBroken (w / 8) 0)).event .padUncorrectable [n, w / 8, 0]).stopAt n 0x12 addr, true)
  | _ => (d, false)

/-- An engine reads words of which the first poisoned one stops the drive: PADDOCK_UNCORRECTABLE, or
MEMORY_UNCORRECTABLE where the poison came from LPDDR5X (R147, R148, R189). -/
def Device.readPoison (d : Device) (n addr : Nat) (bad : List (Nat × Nat)) : Option Device :=
  match bad with
  | [] => none
  | (w, o) :: _ =>
    some (((d.onSite n (·.padPoisoned w)).event .padUncorrectable [n, w, 2]).stopAt n (if o = 1 then 0x1E else 0x12) addr)

/-- An engine reads rows of accumulator tiles that hold poison: the drive stops as for any uncorrectable word (R64, R155).
`rows` is the mask of the rows read. -/
def Device.accPoison (d : Device) (n addr : Nat) (tiles : List Nat) (rows : Nat) : Option Device :=
  if (d.site n).badRows = [] then none else
  (tiles.flatMap fun k => ((List.range 32).filter rows.testBit).map fun r => (k, r)).findSome? fun x =>
    if (d.site n).badRows.contains (accRowKey x.1 x.2) then
      some ((d.event .accUncorrectable [n, x.1, x.2]).stopAt n 0x06 addr) else none

/-! ## Accumulator tiles (R61, R62) -/

/-- An accumulator tile of +0. -/
def zeroTile : List W32 := List.replicate 2048 0#32
/-- Entries of a tile. -/
def Site.tile (t : Site) (k : Nat) : List W32 := sget zeroTile t.acc k
/-- A tile written whole holds no poison (R155). -/
def Site.freshTile (t : Site) (k : Nat) : Site :=
  if t.badRows = [] then t else
    let keys := (List.range 16).map fun r => accRowKey k (2 * r)
    { t with badRows := t.badRows.filter fun b => !keys.contains b }
/-- Entries of a tile set; any write sets the live bit (R62). -/
def Site.setTile (t : Site) (k : Nat) (es : List W32) : Site :=
  { t with acc := sset zeroTile t.acc k es, live := nins t.live k }
/-- The queue recorded as a tile's owner, if none is yet (R119). -/
def Site.own (t : Site) (k : Nat) (q : Queue) : Site :=
  { t with owner := match slook t.owner k with | some _ => t.owner | none => sput t.owner k q }
/-- A cleared tile: +0, live, without owner (R62, R184). -/
def Site.clearTile (t : Site) (k : Nat) : Site :=
  { t.freshTile k with acc := sset zeroTile t.acc k zeroTile, live := nins t.live k, owner := sdel t.owner k }
/-- A released tile: its live bit clear (R62); only live tiles have an owner (R119). -/
def Site.releaseTile (t : Site) (k : Nat) : Site := { t with live := ndel t.live k, owner := sdel t.owner k }
/-- Rows of a tile. -/
def rowsOf (es : List W32) : List (List W32) := chunks 64 33 es

/-! ## One product of a tile step (R34 to R49) -/

/-- Passes of one accumulator entry over its element pairs, in order (R45 to R47). -/
def passes (fa fb : Fmt) (full comp : Bool) (prs : List (Dec × Dec)) (e : AccE) : AccE :=
  (passOrder fa fb full).foldl (fun e ij => accAdd comp e (cellDot (passPairs fa fb ij.1 ij.2 prs))) e

/-- One row of a real product added into its entries. -/
def rowStep (fa fb : Fmt) (full comp neg : Bool) (cols : List (List Dec)) (row : List Dec) (his los : List W32) : List AccE :=
  let row := if neg then row.map Dec.neg else row
  (cols.zip (his.zip los)).map fun c => passes fa fb full comp (row.zip c.1) ⟨c.2.1, c.2.2⟩

/-- A real product into accumulator `k` (and k + 1 when compensated): masked rows are left unchanged (R86). -/
def Site.addProduct (t : Site) (fa fb : Fmt) (full comp : Bool) (mask k : Nat)
    (a : List (List Dec)) (b : List (List Dec)) (neg : Bool) : Site :=
  let his := rowsOf (t.tile k)
  let los := if comp then rowsOf (t.tile (k + 1)) else his
  let out := (List.range 32).zipWith (fun r (x : List Dec × List W32 × List W32) =>
    if mask.testBit r then rowStep fa fb full comp neg b x.1 x.2.1 x.2.2
    else (x.2.1.zip x.2.2).map fun p => ⟨p.1, p.2⟩) (a.zip (his.zip los))
  let t := t.setTile k (out.flatMap fun r => r.map (·.hi))
  if comp then t.setTile (k + 1) (out.flatMap fun r => r.map (·.lo)) else t

/-- Sum of two blocks element by element by the Gauss pre-sum (R50). -/
def blockSum (f : Fmt) (x y : List (List Dec)) : List (List Dec) := x.zipWith (fun r s => r.zipWith (gaussSum f) s) y
/-- A block negated. -/
def blockNeg (x : List (List Dec)) : List (List Dec) := x.map fun r => r.map Dec.neg

/-- Operand blocks of a tile step: real and imaginary planes (one plane for a real product). -/
structure Blocks where
  a : List (List (List Dec))
  b : List (List (List Dec))

/-- All products of a tile step into the real and imaginary accumulators (R46, R48, R49). -/
def Site.tileProducts (t : Site) (p : Product) (fa fb : Fmt) (mask re im : Nat) (o : Blocks) : Site :=
  let go (t : Site) (k : Nat) (a b : List (List Dec)) (neg : Bool) : Site := t.addProduct fa fb p.full p.comp mask k a b neg
  let a0 := o.a.getD 0 []; let a1 := o.a.getD 1 []; let b0 := o.b.getD 0 []; let b1 := o.b.getD 1 []
  if p.cplx = 0 then go t re a0 b0 false
  else if p.cplx = 1 then
    let t := go t re a0 b0 false
    let t := go t re a1 b1 true
    let t := go t im a0 b1 false
    go t im a1 b0 false
  else
    let k1 := blockSum fa a0 a1
    let t := go t re k1 b0 false
    let t := go t im k1 b0 false
    let t := go t im a0 (blockSum fb b1 (blockNeg b0)) false
    go t re a1 (blockSum fb b0 b1) true

/-! ## The check row and the check column (R66) -/

/-- A residue: modulo 255 with the sign applied, from 0 to 254. -/
def residue (v : Int) : Nat := (v % 255).toNat
/-- The signed significand with which an element enters the check: 0 for special classes and zeros. -/
def Dec.signed (d : Dec) : Int := if d.cls = .finite then (if d.s then -(d.m : Int) else d.m) else 0
/-- Signed significands of piece i of a block's elements (R44). -/
def checkPiece (f : Fmt) (i : Nat) (x : List (List Dec)) : List (List Int) :=
  x.map fun r => r.map fun e => match (pieces f e)[i]? with | some y => y.signed | none => 0
/-- Sum of products of two lists. -/
def dotInt (x y : List Int) : Int := (x.zipWith (· * ·) y).foldl (· + ·) 0
/-- Product residues p(i, j) of the cells of a pass: rows of A against columns of B, with an error `e` in one cell. -/
def cellResidues (a b : List (List Int)) (r c : Nat) (e : Int) : List (List Int) :=
  a.zipIdx.map fun x => b.zipIdx.map fun y =>
    (residue (dotInt x.1 y.1 + if x.2 = r ∧ y.2 = c then e else 0) : Int)
/-- The first row in which the check column, and the first column in which the check row, differs from the cells'
residues (R66). -/
def checkPass (a b : List (List Int)) (p : List (List Int)) : Option Nat × Option Nat :=
  let kn := (a.headD []).length
  let sum (l : List Int) : Int := l.foldl (· + ·) 0
  let ck : List Int := (List.range kn).map fun k => (residue (sum (b.map (·.getD k 0))) : Int)
  let rk : List Int := (List.range kn).map fun k => (residue (sum (a.map (·.getD k 0))) : Int)
  ((a.zip p).findIdx? fun x => residue (dotInt x.1 ck) ≠ residue (sum x.2),
    b.zipIdx.findIdx? fun y => residue (dotInt y.1 rk) ≠ residue (sum (p.map (·.getD y.2 0))))
/-- The cell that the check row and the check column name for an error of one bit position in a product of a pass of
a real product, none where they see nothing (R66). -/
def checkedCell (fa fb : Fmt) (full : Bool) (a b : List (List Dec)) (pass r c k : Nat) (neg : Bool) : Option (Nat × Nat) :=
  let order := passOrder fa fb full
  let ij := order.getD (pass % order.length) (0, 0)
  let x := checkPiece fa ij.1 a
  let y := checkPiece fb ij.2 b
  match checkPass x y (cellResidues x y r c (if neg then -(2 ^ k : Int) else 2 ^ k)) with
  | (some i, some j) => some (i, j)
  | _ => none

/-! ## Operand reads (R174, R175, R540) -/

/-- How an operand is read: element bytes, scale bytes, scale offset, bytes of a plane's record. -/
structure OpSize where
  elems : Nat
  scales : Nat
  off   : Nat
  pitch : Nat
  planes : Nat
  deriving DecidableEq, Repr

/-- The A operand of a PRODUCT. -/
def Product.aSize (p : Product) (fa : Fmt) (kn : Nat) : OpSize :=
  ⟨aBytes fa p.atr kn, aScales p.ascl kn, p.asoff,
    (if p.atr then elemBytes fa (kn * 64) + bScales p.ascl kn else elemBytes fa (32 * kn) + aScales p.ascl kn),
    if p.cplx = 0 then 1 else 2⟩
/-- The B operand of a PRODUCT from the paddock. -/
def Product.bSize (p : Product) (fb : Fmt) (kn : Nat) : OpSize :=
  ⟨elemBytes fb (kn * 64), bScales p.bscl kn, p.bsoff, elemBytes fb (kn * 64) + bScales p.bscl kn,
    if p.cplx = 0 then 1 else 2⟩

/-- Whether every byte an operand at a word address reads lies in the extent (R139, R181). -/
def OpSize.inside (o : OpSize) (v : Drive) (w : Nat) : Bool :=
  (List.range o.planes).all fun k => inExtent v (8 * w + k * o.pitch) o.elems &&
    (o.scales = 0 || inExtent v (8 * w + k * o.pitch + o.off) o.scales)
/-- Element and scale bytes of a plane. -/
def OpSize.get (o : OpSize) (t : Site) (w k : Nat) : List Byte × List Byte :=
  (t.padBytes (8 * w + k * o.pitch) o.elems, t.padBytes (8 * w + k * o.pitch + o.off) o.scales)
/-- Poisoned words among those read. -/
def OpSize.bad (o : OpSize) (t : Site) (w : Nat) : List (Nat × Nat) :=
  (List.range o.planes).flatMap fun k => t.padBad (8 * w + k * o.pitch) o.elems ++
    (if o.scales = 0 then [] else t.padBad (8 * w + k * o.pitch + o.off) o.scales)

/-! ## PRODUCT (R61, R134, R176, R181) -/

/-- The extreme word offsets of the fed tile steps of an item: smallest and largest of t * step. -/
def Product.ends (p : Product) (step : Nat) : Option (Nat × Nat) :=
  match p.lives with
  | [] => none
  | t :: _ => some (t * step, p.lives.getLastD t * step)

/-- Whether the addresses of a PRODUCT's fed tile steps lie in the extent, for bases a and b (words). -/
def Product.addresses (p : Product) (v : Drive) (fa fb : Fmt) (kn a b : Nat) : Bool :=
  match p.ends p.astep, p.ends p.bstep with
  | some (a0, a1), some (b0, b1) =>
    let ak := if p.src = 2 then 0 else (min p.n p.kc - 1) * p.ak
    let bi := if p.src = 1 then (p.n - 1) * p.bi else 0
    (p.aSize fa kn).inside v (a + a0) && (p.aSize fa kn).inside v (a + a1 + ak) &&
      (p.src = 0 || ((p.bSize fb kn).inside v (b + b0) && (p.bSize fb kn).inside v (b + b1 + bi)))
  | _, _ => true

/-- Status of a PRODUCT at decode, #00 where it may start. -/
def productStatus (v : Drive) (p : Product) : Nat :=
  match Fmt.ofCode p.afmt, Fmt.ofCode p.bfmt with
  | some fa, some fb =>
    if (p.ascl ∧ !fa.scalable) ∨ (p.bscl ∧ !fb.scalable) then 0x02
    else if p.cplx = 3 ∨ p.src = 3 ∨ p.n = 0 ∨ p.kc = 0 ∨ p.st = 0 then 0x03
    else if p.tiles.any (511 < ·) ∨ (p.comp ∧ p.named.any (· % 2 = 1)) then 0x04
    else if p.atr ∧ (fa = .e3m2 ∨ fa = .e2m3) then 0x13
    else if (p.ascl ∧ p.asoff % 8 ≠ 0) ∨ (p.src ≠ 0 ∧ p.bscl ∧ p.bsoff % 8 ≠ 0) then 0x10
    else if p.src ≠ 2 ∧ !p.addresses v fa fb (contraction fa fb) p.abase p.bbase then 0x11
    else 0
  | _, _ => 0x02

/-- PRODUCT: checked, then in its slot; its tile steps follow as they are ready. -/
def Device.doProduct (d : Device) (n : Nat) (q : Queue) : Device :=
  match d.ready n q with
  | some i =>
    match i.c.body with
    | .product p =>
      let p := if p.src = 2 then p else
        { p with abase := relWord i.v i.c.rel i.slot p.abase, bbase := relWord i.v i.c.rel i.slot p.bbase }
      let st := productStatus i.v p
      if st ≠ 0 then d.stopAt n st i.c.addr else
      let i := { i with c := { i.c with body := .product p } }
      let ph := if p.src = 1 ∧ p.lives = [] then Phase.finished else .running
      (d.issue n q i ph fun d =>
        if p.src = 0 then d.onSite n (Site.onSeqr · fun s =>
          { s with named := sput s.named ((if p.dir = .sunwise then 0 else 16) + p.sr) i.c.addr }) else d).settleAt n
    | _ => d
  | none => d
/-- PRODUCT. -/
def execProduct (n : Nat) (q : Queue) (s : State) : Host.Outcome State Fault Refusal := s.act (·.doProduct n q)

/-! ## TILE_STEP (R57, R85, R86, R118, R119, R180 to R183) -/

/-- Lots that a lot-source PRODUCT takes at a time: two for an FP4 x FP4 product while two are left (R116). -/
def Product.lotsAt (p : Product) (i : Nat) : Nat :=
  match Fmt.ofCode p.afmt, Fmt.ofCode p.bfmt with
  | some fa, some fb => if contraction fa fb = 64 then min 2 (p.n - i) else 1
  | _, _ => 1

/-- Whether a PRODUCT's next tile step is ready (table Readiness of a queued command, R172). -/
def Device.stepReady (d : Device) (n : Nat) (a : Active) : Bool :=
  let t := d.site n
  match a.cmd.body with
  | .product p =>
    a.phase = .running && a.i < p.n && (p.nextT a.t).isSome && !t.seqr.hazard a.q a.id p.tiles &&
      (if p.src = 0 then
        decide (t.seqr.taker p.dir p.sr = some a) && decide ((if p.cplx = 0 then 1 else 2) ≤ (t.node.unused p.dir p.sr).length)
      else p.src = 1 || decide (p.lotsAt a.i ≤ (t.race (p.sr % 8)).length))
  | _ => false

/-- The PRODUCT whose tile step enters next: the one whose tile step is due again (R68), else the backward queue's
when both are ready (R118, R168). -/
def Device.nextStep (d : Device) (n : Nat) : Option Active :=
  let s := (d.site n).seqr
  match (d.site n).replay with
  | some id => s.act.find? fun a => a.id = id && d.stepReady n a
  | none =>
    let of (q : Queue) : Option Active := match s.slotAt q .array 0 with
      | some a => if d.stepReady n a then some a else none
      | none => none
    match of .bwd with
    | some a => some a
    | none => of .fwd

/-- Addresses and tiles of a tile step: A and B word addresses, real and imaginary accumulators, mask. -/
structure StepAt where
  a : Nat
  b : Nat
  re : Nat
  im : Nat
  mask : Nat

/-- Iteration (i, t) of a PRODUCT, with the lot's word address for a lot source (R180). -/
def Product.at (p : Product) (i t lot : Nat) : StepAt where
  a := if p.src = 2 then lot + p.abase + t * p.astep else p.abase + t * p.astep + i % p.kc * p.ak
  b := if p.src = 2 then lot + p.bbase + t * p.bstep else p.bbase + i * p.bi + t * p.bstep
  re := p.acc + t * p.ct + i / p.kc * p.cn
  im := p.acci + t * p.ct + i / p.kc * p.cn
  mask := p.maskAt t

/-- A ring tile's elements and side band joined into an operand tile. -/
def joinTile (rs : List RingTile) : List Byte × List Byte := (rs.flatMap (·.elems), rs.flatMap (·.scales))

/-- A failed check, counted and recorded (R69). In a pass of a tile step, `id` the issue number of its PRODUCT, the
commit is suppressed and the tile step is due again before any other (R68); a filler pass has nothing to reissue. -/
def Device.mismatch (d : Device) (n : Nat) (path : CheckPath) (cell : Option (Nat × Nat)) (id : Option Nat) : Device :=
  let code := match path with | .residue => 0 | .adder => 1 | .decode => 2 | .rounding => 3
  (d.onSite n fun t => { t with
    mismatch := satAdd 32 t.mismatch 1, history := t.history ++ [d.watch.age]
    inRow := if id.isNone then t.inRow else if t.replay = id then t.inRow + 1 else 1
    replay := if id.isNone then t.replay else id }).event .residueMismatch
    ([n, (d.site n).logical, code] ++ match cell with | some (r, c) => [r, c] | none => [])

/-- After a tile step's last pass has committed: the next fed index, or the item, or the k lots, are done with
(R180). -/
def Device.advance (d : Device) (n : Nat) (a : Active) (p : Product) (t k : Nat) : Device :=
  match p.nextT (t + 1) with
  | some u => d.onAct n a.id fun a => { a with t := u }
  | none =>
    let d := d.onSite n fun s =>
      if p.src = 0 then s.onNode (·.usedUp p.dir p.sr (if p.cplx = 0 then 1 else 2))
      else if p.src = 2 then (List.range k).foldl (fun s _ => s.popRace (p.sr % 8)) s else s
    (d.onAct n a.id fun a => { a with
      t := 0, i := a.i + k, phase := if a.i + k = p.n then .finished else .running }).settleAt n

/-- Rows of blocks joined end to end, and filled up to kn elements with +0 (R116). -/
def joinRows (kn : Nat) : List (List (List Dec)) → List (List Dec)
  | [] => []
  | x :: xs => (xs.foldl (fun y z => y.zipWith (· ++ ·) z) x).map fun r => r ++ List.replicate (kn - r.length) (.zeroD false)

/-- One tile step of a ready PRODUCT with its operands read, from one place or from the two lots of an FP4 x FP4
product: it stops, is replayed, or commits. -/
def Device.stepGo (d : Device) (n : Nat) (a : Active) (p : Product) (fa fb : Fmt) (t : Nat) (ws : List StepAt) (err : ReadErr) : Device :=
  let s := d.site n
  let w := ws.headD ⟨0, 0, 0, 0, 0⟩
  let kn := contraction fa fb
  let kl := if p.src = 2 then 32 else kn
  let re := if p.comp then [w.re, w.re + 1] else [w.re]
  let im := if p.cplx = 0 then [] else if p.comp then [w.im, w.im + 1] else [w.im]
  let tiles := re ++ im
  if tiles.any (fun k => s.live.contains k && match slook s.owner k with | some o => o ≠ a.q | none => false) then
    d.stopAt n 0x05 a.cmd.addr
  else
  let k := if p.cplx = 0 then 1 else 2
  let rings := if p.src = 0 then (s.node.unused p.dir p.sr).take k else []
  if rings.flatten.any p.wrongTag then d.stopAt n 0x02 a.cmd.addr else
  let (d, stop) := d.readErr n a.cmd.addr err
  if stop then d else
  let ao := p.aSize fa kl; let bo := p.bSize fb kl
  match d.accPoison n a.cmd.addr tiles w.mask <|>
      d.readPoison n a.cmd.addr (ws.flatMap fun w => ao.bad s w.a ++ if p.src = 0 then [] else bo.bad s w.b) with
  | some d => d
  | none =>
    match rings.flatten.flatMap (·.poison) with
    | o :: _ => d.stopAt n (if o % 2 = 1 then 0x1E else 0x12) a.cmd.addr
    | [] =>
      let av := (List.range ao.planes).map fun k => ws.map fun w => ao.get s w.a k
      if p.atr ∧ p.ascl ∧ av.any (·.any fun x => !evenScales x.2) then d.stopAt n 0x14 a.cmd.addr else
      let bv := if p.src = 0 then rings.map fun r => [joinTile r] else (List.range bo.planes).map fun k => ws.map fun w => bo.get s w.b k
      let o : Blocks :=
        ⟨av.map fun l => joinRows kn (l.map fun x => if p.atr then aBlockT fa p.ascl kl x.1 x.2 else aBlock fa p.ascl kl x.1 x.2),
          bv.map fun l => joinRows kn (l.map fun x => bTile fb p.bscl kl x.1 x.2)⟩
      let commit (d : Device) : Device := (d.onSite n fun s =>
        let s := s.tileProducts p fa fb w.mask w.re w.im o
        { tiles.foldl (fun s k => s.own k a.q) s with inRow := 0, replay := none }).advance n a p t ws.length
      match err with
      | .check path cell => d.mismatch n path cell (some a.id)
      | .product pass r c k neg =>
        match checkedCell fa fb p.full (o.a.getD 0 []) (o.b.getD 0 []) pass r c k neg with
        | some cell => d.mismatch n .residue (some cell) (some a.id)
        | none => commit d
      | _ => commit d

/-- A tile step of a lot-source PRODUCT takes the lots at the head of its race: handles, order and addresses are
checked (R181, R183, R194). -/
def Device.lotGo (d : Device) (n : Nat) (v : Drive) (a : Active) (p : Product) (fa fb : Fmt) (t : Nat) (err : ReadErr) : Device :=
  let ls := (List.range (p.lotsAt a.i)).map (d.lotAt n v a p)
  match ls.find? (·.1 ≠ 0) with
  | some l => d.stopAt n l.1 a.cmd.addr
  | none =>
    if ls.any (fun l => !p.addresses v fa fb 32 (l.2.1 + p.abase) (l.2.1 + p.bbase)) then d.stopAt n 0x11 a.cmd.addr else
    let d := d.onAct n a.id fun a => { a with lot0 := (ls.head?.map (·.2.2)) }
    d.stepGo n a p fa fb t (ls.map fun l => p.at a.i t l.2.1) err

/-- The drive and the PRODUCT whose tile step enters the array of a pen. At activity level 0, while it ramps down, or
under a stop, nothing enters, but a tile step that is due again is in progress and is completed (R68, R74, R76,
R81). -/
def Device.entering (d : Device) (n : Nat) : Option (Drive × Active) :=
  let s := d.site n
  match d.goes n, d.nextStep n with
  | some (_, v), some a =>
    if (s.stops ≠ [] ∧ s.replay.isNone) ∨ s.level = 0 ∨ s.ramp = some .down then none else some (v, a)
  | _, _ => none

/-- A check that fails in a filler or ramp-down pass of an active pen (R67, R69). -/
def Device.fillerErr (d : Device) (n : Nat) (err : ReadErr) : Device :=
  match err with
  | .check path cell => if 0 < (d.site n).level then d.mismatch n path cell none else d
  | .product _ r c _ _ => if 0 < (d.site n).level then d.mismatch n .residue (some (r, c)) none else d
  | _ => d

/-- TILE_STEP: the ready tile step enters; a pen with none to enter runs filler passes while it is active. -/
def Device.doTileStep (d : Device) (n : Nat) (err : ReadErr) : Device :=
  match d.entering n with
  | none => d.fillerErr n err
  | some (v, a) =>
    match a.cmd.body with
    | .product p =>
      match Fmt.ofCode p.afmt, Fmt.ofCode p.bfmt, p.nextT a.t with
      | some fa, some fb, some t =>
        if p.src = 2 then d.lotGo n v a p fa fb t err
        else d.stepGo n a p fa fb t [p.at a.i t 0] err
      | _, _, _ => d
    | _ => d
/-- TILE_STEP. -/
def execTileStep (n : Nat) (err : ReadErr) (s : State) : Host.Outcome State Fault Refusal :=
  s.act (·.doTileStep n err)

/-! ## CLEAR and RELEASE (R184) -/

/-- Status of CLEAR or RELEASE at decode. -/
def tilesStatus (first count stride : Nat) : Nat :=
  if count = 0 ∨ 512 < count ∨ stride = 0 then 0x03
  else if 511 < first + (count - 1) * stride then 0x04 else 0

/-- Effect of CLEAR or RELEASE on its tiles. -/
def Site.tilesAct (t : Site) (clear : Bool) (tiles : List Nat) : Site :=
  tiles.foldl (fun t k => if clear then t.clearTile k else t.releaseTile k) t

/-- CLEAR or RELEASE from its queue: at once, or when earlier commands have finished with its tiles (R172). -/
def Device.doTiles (d : Device) (n : Nat) (q : Queue) (clear : Bool) : Device :=
  match d.ready n q with
  | some i =>
    let go (first count stride : Nat) : Device :=
      let st := tilesStatus first count stride
      if st ≠ 0 then d.stopAt n st i.c.addr else
      let ts := clearTiles first count stride
      if (d.site n).seqr.hazard q (d.site n).seqr.nextId ts then d.issue n q i .waiting id
      else d.issue n q i .finished fun d => d.onSite n (·.tilesAct clear ts)
    match i.c.body, clear with
    | .clear a b c, true => go a b c
    | .release a b c, false => go a b c
    | _, _ => d
  | none => d
/-- CLEAR. -/
def execClear (n : Nat) (q : Queue) (s : State) : Host.Outcome State Fault Refusal := s.act (·.doTiles n q true)
/-- RELEASE. -/
def execRelease (n : Nat) (q : Queue) (s : State) : Host.Outcome State Fault Refusal := s.act (·.doTiles n q false)

/-- A waiting CLEAR or RELEASE acts once earlier commands have finished with its tiles. -/
def Device.pollTiles (d : Device) (n : Nat) (a : Active) : Device :=
  let go (clear : Bool) (x y z : Nat) : Device :=
    let ts := clearTiles x y z
    if (d.site n).seqr.hazard a.q a.id ts then d
    else (d.onSite n (·.tilesAct clear ts)).onAct n a.id fun a => { a with phase := .finished }
  match a.cmd.body with
  | .clear x y z => go true x y z
  | .release x y z => go false x y z
  | _ => d

/-! ## MOVE (R131, R138 to R142, R148, R189) -/

/-- Status of a MOVE at decode: every row's source and destination is checked; a row or a stride that is no
multiple of 8 is PADDOCK_ALIGN where a paddock is touched, else BAD_OPERAND (R131, R189). -/
def Device.moveStatus (d : Device) (f : Nat) (v : Drive) (m : Move) : Nat :=
  if m.rows = 0 ∨ m.rowb = 0 then 0x03
  else if m.rowb % 8 ≠ 0 ∨ (1 < m.rows ∧ (m.sstr % 8 ≠ 0 ∨ m.dstr % 8 ≠ 0)) then
    if inWindow m.src ∨ inWindow m.dst then 0x10 else 0x03
  else
  let one (x : Nat) : Nat := d.access f v x m.rowb
  let all := (List.range m.rows).flatMap fun r => [one (m.src + r * m.sstr), one (m.dst + r * m.dstr)]
  match all.find? (· ≠ 0) with
  | some st => st
  | none => 0

/-- MOVE: its pieces begin, and the command goes into its slot: it completes when the last part of its transfer has arrived,
which increments its tally, or at once where nothing crosses a ring (R142, R171, R189). -/
def Device.moveGo (d : Device) (n : Nat) (q : Queue) (i : Issue) (m : Move) (errs : List (Nat × Ecc)) : Device :=
  match d.doneOf i with
  | none => d.stopAt n 0x07 i.c.addr
  | some done =>
    let part := d.fabric.nextXfer
    let x := d.movePiecesGo n i.f part done i.c.inc errs (movePieces m) 0
    if x.2 = 0 then x.1.enter n q (i.active n q done x.1 .finished) else
    let own := (n, i.s, (d.site n).seqr.nextId)
    let d := { x.1 with fabric := { x.1.fabric with
      nextXfer := part + 1, xfers := sput x.1.fabric.xfers part ⟨i.f, some own, done, i.c.inc, x.2, false⟩ } }
    d.enter n q (({ i with c := { i.c with inc := 0 } } : Issue).active n q done d .running)

/-- MOVE: its rows are checked first. -/
def Device.doMove (d : Device) (n : Nat) (q : Queue) (errs : List (Nat × Ecc)) : Device :=
  match d.ready n q with
  | some i =>
    match i.c.body with
    | .move m =>
      let m := { m with src := relLocal i.v i.c.rel i.slot m.src, dst := relLocal i.v i.c.rel i.slot m.dst }
      let st := d.moveStatus i.f i.v m
      if st ≠ 0 then d.stopAt n st i.c.addr
      else d.moveGo n q { i with c := { i.c with body := .move m } } m errs
    | _ => d
  | none => d
/-- MOVE. -/
def execMove (n : Nat) (q : Queue) (errs : List (Nat × Ecc)) (s : State) : Host.Outcome State Fault Refusal :=
  s.act (·.doMove n q errs)

end Sys2Proof.Machine
end

