-- ==== Sys2Proof/Machine/Vector.lean ====
section
/-!
DEFINITION. The vector unit: VOP (02, R43, R51 to R55; 03, R65, R87 to R91; 06, R190 to R193).
-/
namespace Sys2Proof.Machine

/-! ## Source operands -/

/-- Record of a paddock or race-head source tile: element bytes, and the whole record (R174, R190). -/
def srcRecord (f : Fmt) (scl : Bool) : Nat × Nat :=
  let e := elemBytes f 2048
  (e, if scl then e + 64 else e)

/-- Byte ranges that a source tile reads, from its element address (R190). -/
def srcRanges (f : Fmt) (scl sorient : Bool) (a ssoff : Nat) : List (Nat × Nat) :=
  let e := elemBytes f 2048
  if !scl then [(a, e)]
  else if !sorient then [(a, e), (a + ssoff, 64)]
  else
    let r := e / 2 + 32
    [(a, e / 2), (a + ssoff, 32), (a + r, e / 2), (a + r + ssoff, 32)]

/-- The 2,048 elements of a paddock source tile, row-major (R32, R174, R190). -/
def srcTile (t : Site) (f : Fmt) (scl sorient : Bool) (a ssoff : Nat) : List Dec :=
  let e := elemBytes f 2048
  if scl && sorient then
    let r := e / 2 + 32
    let es := [0, 1].map fun h => (t.padBytes (a + h * r) (e / 2)).toArray
    let ss := [0, 1].map fun h => (t.padBytes (a + h * r + ssoff) 32).toArray
    (List.range 2048).map fun i =>
      let row := i / 64; let c := i % 64
      decodeScaled f (some ((ss.getD (c / 32) #[]).getD row 0).toNat) (rawAt (es.getD (c / 32) #[]) f.width (row * 32 + c % 32))
  else
    let es := (t.padBytes a e).toArray
    let ss := if scl then (t.padBytes (a + ssoff) 64).toArray else #[]
    (List.range 2048).map fun i =>
      decodeScaled f (if scl then some (ss.getD (i % 64) 0).toNat else none) (rawAt es f.width i)

/-- The entries of an accumulator source tile, a compensated pair read out by R43. -/
def accTile (t : Site) (comp : Bool) (k : Nat) : List Dec :=
  if comp then ((t.tile k).zip (t.tile (k + 1))).map fun p => readPair ⟨p.1, p.2⟩ else (t.tile k).map f32

/-- Kinds of the sources an operation reads, with their address fields. -/
def Vop.sources (v : Vop) : List (Nat × Nat) :=
  ([(v.akind, v.aaddr), (v.bkind, v.baddr), (v.ckind, v.caddr)]).take (vopArity v.op)

/-- Element address of a paddock or race-head source's tile j; `h` is the head handle's address. -/
def Vop.srcAddr (v : Vop) (f : Fmt) (kind addr h j : Nat) : Nat :=
  (if kind = 3 then h else 0) + 8 * addr + j * (srcRecord f v.sscl).2

/-- Values of source k of tile j. -/
def Vop.values (v : Vop) (t : Site) (h j k : Nat) : List Dec :=
  match v.sources[k]? with
  | none => []
  | some (kind, addr) =>
    if kind = 0 then accTile t v.scomp (addr % 512 + (if v.scomp then 2 * j else j))
    else if kind = 2 then
      let nth := ((v.sources.take k).filter (·.1 = 2)).length
      List.replicate 2048 (f32 (if nth = 0 then v.imm0 else v.imm1))
    else match Fmt.ofCode v.sfmt with
      | some f => srcTile t f v.sscl v.sorient (v.srcAddr f kind addr h j) v.ssoff
      | none => []

/-! ## Operations (R87 to R91, R191) -/

/-- 1.0 where a comparison holds, +0 elsewhere (R191). -/
def mask32 (b : Bool) : W32 := if b then one32 else zero32 false

/-- An element-wise operation on FP32 values (table Vector operation codes). -/
def vopScalar (op : Nat) (a b c : W32) : W32 :=
  match op with
  | 0x00 => fadd a b | 0x01 => fsub a b | 0x02 => fmul a b | 0x03 => ffma a b c
  | 0x04 => fneg a | 0x05 => fabs a | 0x06 => fcopysign a b | 0x07 => fmin a b | 0x08 => fmax a b
  | 0x09 => mask32 (feq a b) | 0x0A => mask32 (flt a b) | 0x0B => mask32 (fle a b)
  | 0x0C => if isZero32 c then b else a
  | 0x0D => fmax (fmin a c) b
  | 0x10 => fexp a | 0x11 => fexp2 a | 0x12 => flog a | 0x13 => flog2 a
  | 0x14 => frecip a | 0x15 => fsqrt a | 0x16 => frsqrt a | 0x17 => ftanh a
  | _ => a

/-- Whether a code names an operation. -/
def vopKnown (op : Nat) : Bool := op ≤ 0x0D || (0x10 ≤ op && op ≤ 0x1C)
/-- Row reductions. -/
def vopReduces (op : Nat) : Bool := 0x18 ≤ op && op ≤ 0x1A
/-- Combination of a row reduction (R90). -/
def vopFold (op : Nat) : W32 → W32 → W32 := if op = 0x18 then fadd else if op = 0x19 then fmax else fmin

/-- What a VOP draws from: generator key and counter base of the open step (R55). -/
structure DrawBase where
  key : Nat
  ctr : Nat

/-- Logical index of element i of tile j (R190). -/
def Vop.index (v : Vop) (j i : Nat) : Nat := v.ibase + j * v.itile + i / 64 * v.irow + i % 64
/-- The 16-bit draw of element i of tile j (R55). -/
def Vop.drawAt (v : Vop) (g : DrawBase) (j i : Nat) : Nat := draw16 g.key g.ctr v.ctr (v.index j i)

/-- The results of tile j before conversion: 2,048 elements, or 32 of a row reduction. -/
def Vop.results (v : Vop) (g : DrawBase) (t : Site) (h j : Nat) : List Dec :=
  let a := v.values t h j 0; let b := v.values t h j 1; let c := v.values t h j 2
  if v.op = 0x1C then a
  else if v.op = 0x1B then
    (List.range 2048).map fun i => let r := v.drawAt g j i; if r = 0 then .zeroD false else ⟨.finite, false, r, 0⟩
  else if vopReduces v.op then
    (chunks 64 33 (a.map Dec.toF32)).map fun row => f32 (treeFold (vopFold v.op) 6 row)
  else
    let n := vopArity v.op
    let b := if 2 ≤ n then b else a
    let c := if 3 ≤ n then c else a
    (a.zip (b.zip c)).map fun x => f32 (vopScalar v.op x.1.toF32 x.2.1.toF32 x.2.2.toF32)

/-! ## Conversion and destination (R51 to R54, R192, R193) -/

/-- Rounding mode of element i of tile j. -/
def Vop.mode (v : Vop) (g : DrawBase) (j i : Nat) : RMode := if v.sr then .stoch (v.drawAt g j i) else .nearest

/-- Bytes of a destination tile and the NaNs lost in it. -/
def Vop.encode (v : Vop) (g : DrawBase) (f : Fmt) (j : Nat) (ds : List Dec) : List Byte × Nat :=
  let mds : List (Dec × RMode) := ds.zipIdx.map fun p =>
    (p.1, v.mode g j (if vopReduces v.op then 64 * p.2 else p.2))
  if v.dscl = 0 then
    let cs := mds.map fun p => convElem f p.2 p.1
    (packBits f.width (cs.map (·.code)), (cs.filter (·.lost)).length)
  else
    let arr := mds.toArray
    let at_ (r c : Nat) : Dec × RMode := arr.getD (r * 64 + c) (.zeroD false, .nearest)
    if v.dscl = 1 then
      ([0, 1].flatMap fun h =>
        let rows := (List.range 32).map fun r => convBlock f ((List.range 32).map fun c => at_ r (32 * h + c))
        packBits f.width (rows.flatMap (·.2)) ++ rows.map fun b => BitVec.ofNat 8 b.1, 0)
    else
      let cols : List (Nat × List Nat) :=
        if v.dscl = 2 then (List.range 64).map fun c => convBlock f ((List.range 32).map fun r => at_ r c)
        else [0, 1].flatMap fun h =>
          let b := convBlock f ((List.range 32).flatMap fun c => (List.range 32).map fun r => at_ r (32 * h + c))
          (chunks 32 33 b.2).map fun col => (b.1, col)
      let ca := (cols.map fun c => c.2.toArray).toArray
      (packBits f.width ((List.range 2048).map fun i => (ca.getD (i % 64) #[]).getD (i / 64) 0) ++
        cols.map fun b => BitVec.ofNat 8 b.1, 0)

/-- Bytes of a destination tile's record. -/
def Vop.dstBytes (v : Vop) (f : Fmt) : Nat :=
  if vopReduces v.op then elemBytes f 32 else if v.dscl = 0 then elemBytes f 2048 else elemBytes f 2048 + 64

/-- Tile j of a VOP: read, computed, converted, written. -/
def Vop.tileGo (v : Vop) (g : DrawBase) (h : Nat) (t : Site) (j : Nat) : Site :=
  let ds := v.results g t h j
  if v.dkind = 0 then
    let k := v.daddr % 512 + j
    if vopReduces v.op then
      t.setTile k (((rowsOf (t.tile k)).zip ds).flatMap fun p => p.2.toF32 :: p.1.tail)
    else (t.freshTile k).setTile k (ds.map Dec.toF32)
  else match Fmt.ofCode v.dfmt with
    | none => t
    | some f =>
      let (bs, lost) := v.encode g f j ds
      { t.padWrite (8 * v.daddr + j * v.dstBytes f) bs [] with lostNan := satAdd 32 t.lostNan lost }

/-! ## VOP -/

/-- Status of a VOP at decode, #00 where it may start. -/
def vopStatus (v : Drive) (o : Vop) : Nat :=
  let srcs := o.sources
  let fromPad := srcs.any fun s => s.1 = 1 || s.1 = 3
  let sf := Fmt.ofCode o.sfmt; let df := Fmt.ofCode o.dfmt
  let badSrc := fromPad && match sf with | none => true | some f => o.sscl && !f.scalable
  let badDst := o.dkind = 1 && match df with | none => true | some f => decide (o.dscl ≠ 0) && !f.scalable
  if badSrc ∨ badDst then 0x02
  else if !vopKnown o.op ∨ o.count = 0 ∨ 2 < (srcs.filter (·.1 = 2)).length ∨ (vopReduces o.op ∧ o.dscl ≠ 0) then 0x03
  else if (o.scomp ∧ srcs.any fun s => s.1 = 0 && s.2 % 2 = 1) ∨ o.tiles.any (511 < ·) then 0x04
  else if fromPad ∧ o.sscl ∧ o.ssoff % 8 ≠ 0 then 0x10
  else
    let inSrc : Bool := match sf with
      | some f => srcs.all fun s => s.1 ≠ 1 ||
          ((srcRanges f o.sscl o.sorient (o.srcAddr f 1 s.2 0 0) o.ssoff ++
            srcRanges f o.sscl o.sorient (o.srcAddr f 1 s.2 0 (o.count - 1)) o.ssoff).all fun r => inExtent v r.1 r.2)
      | none => true
    let inDst : Bool := o.dkind = 0 || match df with
      | some f => inExtent v (8 * o.daddr) (o.count * o.dstBytes f)
      | none => true
    if (fromPad ∧ !inSrc) ∨ !inDst then 0x11 else 0

/-- Whether a waiting VOP is ready: a handle on its race, and every tile it names free (R65, R172). -/
def Device.vopReady (d : Device) (n : Nat) (q : Queue) (id : Nat) (o : Vop) : Bool :=
  let t := d.site n
  !t.seqr.hazard q id o.tiles && (!(o.sources.any (·.1 = 3)) || t.race o.race ≠ [])

/-- Byte ranges of the paddock that tile j of a VOP reads; `h` is the head handle's address. -/
def Vop.reads (o : Vop) (h j : Nat) : List (Nat × Nat) :=
  match Fmt.ofCode o.sfmt with
  | some f => o.sources.flatMap fun s =>
      if s.1 = 1 ∨ s.1 = 3 then srcRanges f o.sscl o.sorient (o.srcAddr f s.1 s.2 h j) o.ssoff else []
  | none => []

/-- What a VOP draws from: key and counter base of the leaf it works for (R55), of several hosted leaves one that the
spec leaves open (log entry 45); zeros where no step is open. -/
def Drive.drawBase (v : Drive) (pen id : Nat) : DrawBase :=
  match v.opened with
  | some s => match s.leaves[Config.passLeaf s.number pen id % s.leaves.length]? with
    | some l => ⟨l.key, l.ctr⟩
    | none => ⟨0, 0⟩
  | none => ⟨0, 0⟩

/-- The next tile of a ready VOP; before the first, the handle and every address it reads are checked. After the last
tile the race is popped. -/
def Device.vopTile (d : Device) (n : Nat) (v : Drive) (a : Active) (o : Vop) (err : ReadErr) : Device :=
  let t := d.site n
  let heads := o.sources.any (·.1 = 3)
  let h := ((t.race o.race).headD 0#32).toNat
  let st := if heads then d.handleStatus n v h true else 0
  if st ≠ 0 then d.stopAt n st a.cmd.addr else
  let ha := if heads then d.handleAddr n h else 0
  if a.i = 0 ∧ ((List.range o.count).flatMap (o.reads ha)).any (fun r => !inExtent v r.1 r.2) then d.stopAt n 0x11 a.cmd.addr else
  let (d, stop) := d.readErr n a.cmd.addr err
  if stop then d else
  let read := o.sources.flatMap fun s => if s.1 ≠ 0 then [] else if o.scomp then [s.2 % 512 + 2 * a.i, s.2 % 512 + 2 * a.i + 1]
    else [s.2 % 512 + a.i]
  match d.accPoison n a.cmd.addr read (2 ^ 32 - 1) <|> d.readPoison n a.cmd.addr (if t.poison = [] then [] else (o.reads ha a.i).flatMap fun r => t.padBad r.1 r.2) with
  | some d => d
  | none =>
    let last := a.i + 1 = o.count
    let pen := d.penOf n
    let d := d.onSite n fun t =>
      let t := o.tileGo (v.drawBase pen a.id) ha t a.i
      if last && heads && o.pop then t.popRace o.race else t
    let d := d.onAct n a.id fun a => { a with i := a.i + 1, phase := if last then .finished else .running }
    if last then d.settleAt n else d

/-- The VOP whose next tile the vector unit takes: of the two slots the one that is ready, the backward one when both
are (R168). -/
def Device.nextVop (d : Device) (n : Nat) : Option (Active × Vop) :=
  let of (q : Queue) : Option (Active × Vop) := match (d.site n).seqr.slotAt q .vector 0 with
    | some a => match a.cmd.body with
      | .vop o => if a.phase ≠ .finished ∧ d.vopReady n q a.id o then some (a, o) else none
      | _ => none
    | none => none
  match of .bwd with
  | some x => some x
  | none => of .fwd

/-- The vector unit works tile by tile until the VOP with an issue number is done, or nothing is ready. -/
def Device.vopGo : Nat → Device → Nat → Nat → ReadErr → Device
  | 0, d, _, _, _ => d
  | k + 1, d, n, id, err =>
    match d.goes n, d.nextVop n with
    | some (_, v), some (a, o) =>
      let mine := a.id = id
      let d := d.vopTile n v a o (if mine then err else .none)
      if mine ∧ a.i + 1 = o.count then d else Device.vopGo k d n id (if mine then .none else err)
    | _, _ => d

/-- The vector unit works on the VOP in a queue's slot, after the other queue's where R168 puts it first; two VOPs have
at most 510 tiles. -/
def Device.vopRun (d : Device) (n : Nat) (q : Queue) (err : ReadErr) : Device :=
  match (d.site n).seqr.slotAt q .vector 0 with
  | some a => if (d.site n).stops = [] then Device.vopGo 510 d n a.id err else d
  | none => d

/-- VOP: the head of its queue goes into the slot; the VOP in the slot runs when it is ready. -/
def Device.doVop (d : Device) (n : Nat) (q : Queue) (err : ReadErr) : Device :=
  match (d.site n).seqr.slotAt q .vector 0, d.ready n q with
  | none, some i =>
    match i.c.body with
    | .vop o =>
      let at_ (kind w : Nat) : Nat := if kind = 1 then relWord i.v i.c.rel i.slot w else w
      let o := { o with
        aaddr := at_ o.akind o.aaddr, baddr := at_ o.bkind o.baddr, caddr := at_ o.ckind o.caddr
        daddr := at_ o.dkind o.daddr }
      let st := vopStatus i.v o
      if st ≠ 0 then d.stopAt n st i.c.addr
      else (d.issue n q { i with c := { i.c with body := .vop o } } .waiting id).vopRun n q err
    | _ => d
  | _, _ => d.vopRun n q err
/-- VOP. -/
def execVop (n : Nat) (q : Queue) (err : ReadErr) (s : State) : Host.Outcome State Fault Refusal :=
  s.act (·.doVop n q err)

end Sys2Proof.Machine
end

