-- ==== Sys2Proof/Machine/Pen.lean ====
section
/-!
DEFINITION. The pen as a whole: completion of commands, activity ramps, stops, starting and pre-empting a
drive, retirement and spare substitution (03, R70 to R84; 04, R120, R125 to R129; 06, R166 to R171, R205).
-/
namespace Sys2Proof.Machine

/-! ## COMMAND_COMPLETION (R169 to R171) -/

/-- A command of a slot whose work is done leaves it; one that waits is looked at again. -/
def Device.doCompletion (d : Device) (n : Nat) (q : Queue) (e : Engine) (k : Nat) : Device :=
  match (d.site n).seqr.slotAt q e k with
  | none => d
  | some a =>
    if a.phase = .finished then (d.retireAct n a).settleAt n
    else if a.phase = .waiting ∧ (d.goes n).isSome then
      match e with
      | .sync => d.pollSync n a
      | .array => d.pollTiles n a
      | _ => d
    else d
/-- COMMAND_COMPLETION. -/
def execCommandCompletion (n : Nat) (q : Queue) (e : Engine) (k : Nat) (s : State) : Host.Outcome State Fault Refusal :=
  s.act (·.doCompletion n q e k)

/-! ## Ramps and stops (R74 to R84) -/

/-- A pen at activity level 0 begins a ramp-up. -/
def Site.rampUp (t : Site) : Site := if t.level = 0 ∧ t.ramp.isNone then { t with level := 1, ramp := some .up } else t
/-- An active pen begins a ramp-down, after the ramp-up that is under way. -/
def Site.rampDown (t : Site) : Site :=
  if t.level = 0 then t else { t with ramp := some (if t.ramp = some .up ∨ t.ramp = some .turn then .turn else .down) }
/-- A ramp under way passes to its next level: 1, 2, 3, 4, or 4, 3, 2, 1 (R74). -/
def Site.rampStep (t : Site) : Site :=
  match t.ramp with
  | some .down => { t with level := max 1 (t.level - 1) }
  | some _ => { t with level := min 4 (t.level + 1) }
  | none => t
/-- A stop cause added. -/
def Site.stop (t : Site) (c : StopCause) : Site := { t with stops := if t.stops.contains c then t.stops else c :: t.stops }
/-- A stop cause cleared. -/
def Site.unstop (t : Site) (c : StopCause) : Site := { t with stops := t.stops.filter (· ≠ c) }

/-- A pen told to stop asks for its ramp-down (R81). -/
def Device.stopPen (d : Device) (n : Nat) (c : StopCause) : Device :=
  let d := d.onSite n (·.stop c)
  if 0 < (d.site n).level then d.inject (stopOf n) (.rampReq n false) else d

/-- A cause clears; a pen with none left that is to run asks for its ramp-up (R84). -/
def Device.resumePen (d : Device) (n : Nat) (c : StopCause) : Device :=
  let had := (d.site n).stops.contains c
  let d := d.onSite n (·.unstop c)
  if had ∧ (d.site n).stops = [] ∧ (d.site n).level = 0 ∧ (d.goes n).isSome then d.inject (stopOf n) (.rampReq n true) else d

/-- PEN_STOP_REQUEST: no new tile step after the request (R81); a retired, unmapped or absent pen takes none. -/
def Device.doPenStop (d : Device) (n : Nat) (c : StopCause) : Device := if d.inFold n then d.stopPen n c else d
/-- PEN_STOP_REQUEST. -/
def execPenStopRequest (n : Nat) (c : StopCause) (s : State) : Host.Outcome State Fault Refusal :=
  s.act (·.doPenStop n c)

/-- Whether the pen has a tile step ready to enter, or due again: a ramp-down begins at a tile-step boundary (R76). -/
def Device.busy (d : Device) (n : Nat) : Bool :=
  (d.goes n).isSome && (d.nextStep n).isSome && ((d.site n).stops = [] || (d.site n).replay.isSome)

/-- IDLE_RAMP_DOWN: an active pen without ready work asks for its ramp-down (R77, R78). -/
def Device.doIdle (d : Device) (n : Nat) : Device :=
  let t := d.site n
  if 0 < t.level ∧ t.ramp.isNone ∧ !d.busy n then d.inject (stopOf n) (.rampReq n false) else d
/-- IDLE_RAMP_DOWN. -/
def execIdleRampDown (n : Nat) (s : State) : Host.Outcome State Fault Refusal := s.act (·.doIdle n)

/-- RAMP_END: level 4 after a ramp-up, 0 after a ramp-down, through the levels between (R74; log entry 123). -/
def Device.doRampEnd (d : Device) (n : Nat) : Device :=
  d.onSite n fun t => match t.ramp with
    | some .up => { t with level := 4, ramp := none }
    | some .down => { t with level := 0, ramp := none }
    | some .turn => { t with level := 4, ramp := some .down }
    | none => t
/-- RAMP_END. -/
def execRampEnd (n : Nat) (s : State) : Host.Outcome State Fault Refusal := s.act (·.doRampEnd n)

/-- RAMP_REQUEST: queued at the ramp arbiter in request order (R78). -/
def Device.doRampRequest (d : Device) (n : Nat) (up : Bool) : Device :=
  d.onArrive (.rampReq n up) fun d => { d with fabric := { d.fabric with
      rampReq := if d.fabric.rampReq.contains (n, up) then d.fabric.rampReq else d.fabric.rampReq ++ [(n, up)] } }
/-- RAMP_REQUEST. -/
def execRampRequest (n : Nat) (up : Bool) (s : State) : Host.Outcome State Fault Refusal :=
  s.act (·.doRampRequest n up)

/-- RUN descriptors in progress for a slot of a fold complete once its drive begins its ramp-up (R421). -/
def Device.completeRuns (d : Device) (f s : Nat) : Device :=
  (d.descs.filter fun x => x.op = 0x12 ∧ x.slot = s ∧ x.started ∧ d.ringFold x.sq = f).foldl
    (fun d x => d.complete x.sq x.idx 0 0) d

/-- RAMP_GRANT: the oldest request, at most four in any window of 64 arbiter cycles, none while a muster's
staggered ramp-ups are due and until 32 cycles after the last of them (R78, R79). A pen whose work is ready again does not ramp down (R77). -/
def Device.doRampGrant (d : Device) (n : Nat) (up : Bool) (cycle : Nat) : Device :=
  let f := d.fabric
  let log := f.rampLog.filter (cycle < · + 64)
  if f.rampReq.head? ≠ some (n, up) ∨ 4 ≤ log.length ∨ f.stagger ≠ [] ∨ cycle < f.holdTo then d else
  let d := { d with fabric := { f with rampReq := f.rampReq.tail, rampLog := log ++ [cycle] } }
  d.onArrive (.rampGrant n up) fun d =>
    if up then
      if (d.site n).stops ≠ [] then d else
      let d := d.onSite n (·.rampUp)
      match (d.fold (d.site n).fold).running with
      | some s => d.completeRuns (d.site n).fold s
      | none => d
    else if d.busy n then d
    else d.onSite n (·.rampDown)
/-- RAMP_GRANT. -/
def execRampGrant (n : Nat) (up : Bool) (cycle : Nat) (s : State) : Host.Outcome State Fault Refusal :=
  s.act (·.doRampGrant n up cycle)

/-! ## Starting a drive's streams (R82, R120, R179, R205, R415, R421) -/

/-- The stream address at which pen q of a drive starts: its start address, or its restore entry when the
open step restores (R179, R386, R415). -/
def Drive.entryAt (v : Drive) (q : Nat) : Nat :=
  let e := v.streams.getD q (0, 0)
  match v.opened with
  | some r => if r.restore then e.2 else e.1
  | none => e.1

/-- A sequencer at the start of a stream. -/
def Seqr.startAt (x : Nat) (limit : Option Nat) : Seqr :=
  { Seqr.empty with pc := x, limit := limit.getD x, ended := false }

/-- A fresh sequencer of a drive: at the entry, or standing at a STEP while no step is open (R381, R385). -/
def Drive.fresh (v : Drive) (x : Nat) (limit : Option Nat) : Seqr :=
  let s := Seqr.startAt x limit
  if v.opened.isSome then s else { s with stepF := true, stepB := true }

/-- Bytes of an accumulator tile in the save area. -/
def tileBytes (es : List W32) : List Byte := es.flatMap fun w => leBytes 4 w.toNat
/-- An accumulator tile from the save area. -/
def tileOf (bs : List Byte) : List W32 := (chunks 4 2049 bs).map fun b => BitVec.ofNat 32 (leNat b)

/-- Landing of the ring tiles already on a hop (R120). -/
def NodeDir.landHop (s : Nat) (x : NodeDir) : NodeDir :=
  x.hop.foldl (fun y r => ({ y with queue := y.queue ++ [r] }).setPos
    { drive := s, stream := r.stream, next := (r.seq + 1) % 2 ^ 32
      lot := match y.posOf r.stream with | some p => p.lot | none => none }) { x with hop := [] }

/-- Words of the save area that hold the poison of a tile's accumulator rows (R155). -/
def Site.tilePoison (t : Site) (k area : Nat) : List (Nat × Nat) :=
  if t.badRows = [] then [] else
  ((List.range 32).filter fun r => t.badRows.contains (accRowKey k r)).flatMap fun r =>
    (List.range 32).map fun i => ((area + k * 8192) / 8 + 32 * r + i, 0)

/-- The part of the save area whose layout the spec leaves open is written over: its bytes are free values (R82; log entry
17). -/
def Site.drawVeil (t : Site) (a n k : Nat) : Site :=
  if t.clearing then t else
  let out (w : Nat) : Bool := decide (8 * w < a) || decide (a + n ≤ 8 * w)
  { t with pad := t.pad.erase a n, veil := cutVeils t.veil a n ++ [(a, a + n, k)]
           poison := t.poison.filter out, poisonMem := t.poisonMem.filter out }

/-- Save of the drive of a slot from a pen: live tiles into the save area, in its last MiB the rest, which is kept as a record
beside (R82, R120); `k` is the draw of the bytes there. -/
def Site.save (t : Site) (s area k : Nat) : Site :=
  let t := t.onNode fun nd => { nd with sun := nd.sun.landHop s, wid := nd.wid.landHop s }
  let r : Saved := ⟨t.seqr, t.races, t.node, t.live, t.owner⟩
  let t := t.live.foldl (fun t k => t.padWrite (area + k * 8192) (tileBytes (t.tile k)) (t.tilePoison k area)) t
  { t.drawVeil (area + 2 ^ 22) (2 ^ 20) k with
      saved := sput t.saved s r, seqr := .empty, races := List.replicate 8 []
      node := { Node.empty with resendCount := t.node.resendCount }, live := [], owner := [] }

/-- A tile restored from the save area, its poison with it (R148, R155). -/
def Site.loadTile (t : Site) (area k : Nat) : Site :=
  let bad := t.padBad (area + k * 8192) 8192
  let t := t.freshTile k
  { t.transferRead (area + k * 8192) 8192 [] with
      acc := sset zeroTile t.acc k (tileOf (t.padBytes (area + k * 8192) 8192))
      badRows := bad.foldl (fun l w => nins l (accRowKey k ((w.1 - (area + k * 8192) / 8) / 32))) t.badRows }

/-- Restore of the drive of a slot: its saved state, or a fresh start (R82); a poisoned word of the save area that is
read is recorded (R149). -/
def Site.restore (t : Site) (s area : Nat) (fresh : Seqr) : Site :=
  match slook t.saved s with
  | none => { t with seqr := fresh, races := List.replicate 8 [], node := { Node.empty with resendCount := t.node.resendCount }
                     live := [], owner := [] }
  | some r =>
    let t := r.live.foldl (fun t k => t.loadTile area k) t
    { t with seqr := r.seqr, races := r.races, node := r.node, live := r.live, owner := r.owner, saved := sdel t.saved s }

/-- The drive of a slot saved from a pen; its waits let their comparators go, and its feed flits are given up (R82,
R205). -/
def Device.savePen (d : Device) (n s : Nat) (v : Drive) : Device :=
  let d := (d.releaseWaits [n]).dropFeed n
  (d.onSite n (·.save s (saveArea v) d.free)).draw

/-- Class of a waiting command's comparator (table WATCH_CMP_USE): muster 0, tally 1, watch wait 2. -/
def waitClass : Body → Nat
  | .muster .. => 0
  | .tallyWait .. => 1
  | _ => 2

/-- Waits of a resumed pen: V extended by the ticks stopped, a WATCH_WAIT's too (DEDUCED, log entry 122), comparators
asked for again, a V already passed served at once (R205, R285). -/
def Device.rejoin (d : Device) (n stopped : Nat) : Device :=
  (d.site n).seqr.act.foldl (fun d a =>
    match a.want, a.phase with
    | some v, .waiting =>
      let v := v + stopped
      match d.watch.join v (waitClass a.cmd.body) (d.site n).fold (.wait n (a.q = .bwd) a.id) with
      | some w =>
        let d := ({ d with watch := w }).onAct n a.id fun a => { a with want := some v, joined := true }
        if v ≤ d.now then ({ d with watch := d.watch.release fun u => decide (u = CmpUser.wait n (decide (a.q = Queue.bwd)) a.id) } : Device).waitFires n a else d
      | none => (d.event .watchNoneFree [n, v]).onAct n a.id fun a => { a with
          want := match a.cmd.body with | .watchWait _ => some v | _ => none, joined := false, asked := d.now }
    | _, _ => d) d

/-- A drive that a pre-emption stopped resumes: its waits are extended by the ticks for which it was stopped (R205), its end
is looked for, which what its pens had handed on may have brought about meanwhile (R166), and its drove moves on (R120). -/
def Device.resumeWaits (d : Device) (f s : Nat) : Device :=
  match d.drive f s with
  | none => d
  | some v =>
    let d := d.onDrive f s fun v => { v with paused := none }
    let d := match v.paused with
      | some t => (d.foldSites f).foldl (fun (d : Device) n => d.rejoin n (d.now - t)) d
      | none => d
    (d.endCheck f).settle f

/-- What a pen holds of a resident drive is saved before another takes the pen (R82, R166). -/
def Device.vacate (d : Device) (f s n : Nat) : Device :=
  match (d.fold f).occ with
  | none => d
  | some o =>
    match d.drive f o with
    | some w => if o = s then d else d.savePen n o w
    | none => d

/-- A pen takes up the drive of a slot. -/
def Device.load (d : Device) (f s n : Nat) (v : Drive) : Device :=
  let d := d.vacate f s n
  let x := v.entryAt (d.penOf n)
  let d := d.onSite n fun t => (t.restore s (saveArea v) (v.fresh x (d.streamLimit n v x))).unstop .drive
  if (d.site n).level = 0 ∧ (d.site n).stops = [] ∧ (d.site n).fold = f then d.inject (stopOf n) (.rampReq n true) else d

/-- The drive of a slot begins to run on a fold whose pens are free (R415, R421). -/
def Device.startDrive (d : Device) (f s : Nat) : Device :=
  match d.drive f s with
  | none => d
  | some v =>
    let d := d.onFold f fun o => { o with running := some s }
    let d := if (d.fold f).occ = some s then
        (d.foldSites f).foldl (fun d n => d.resumePen n .drive) d
      else (d.foldSites f).foldl (fun d n => d.load f s n v) d
    (d.onFold f fun o => { o with occ := some s }).resumeWaits f s

/-! ## PREEMPTION (R82, R84, R120, R205) -/

/-- The incoming drive of a switch runs once every pen holds it: its waits go on from where they were (R205, R421). -/
def Device.switched (d : Device) (f s : Nat) (v : Drive) : Device :=
  let d := d.onFold f fun o => { o with running := if v.stopped.isSome then none else some s, occ := some s, incoming := none }
  let d := (d.foldSites f).foldl (fun d m => (d.onSite m (·.unstop .drive)).resumePen m .preempt) d
  if v.stopped.isSome then d else d.resumeWaits f s

/-- PREEMPTION: a pen at level 0 saves the outgoing drive and restores the incoming one, billed with its
cycles; when every pen has, the incoming drive runs. -/
def Device.doPreempt (d : Device) (n cycles : Nat) : Device :=
  if !(d.site n).seated then d else
  let f := (d.site n).fold
  let t := d.site n
  match (d.fold f).occ, (d.fold f).incoming with
  | some s, some s' =>
    match d.drive f s, d.drive f s' with
    | some v, some v' =>
      if !t.stops.contains .preempt ∨ t.level ≠ 0 ∨ t.ramp.isSome ∨ (slook t.saved s).isSome then d else
      let d := d.savePen n s v
      let x := v'.entryAt (d.penOf n)
      let d := d.onSite n (·.restore s' (saveArea v') (v'.fresh x (d.streamLimit n v' x)))
      let d := d.onDrive f s' fun v => { v with usage := v.usage + cycles }
      if (d.foldSites f).all (fun m => (slook (d.site m).saved s).isSome) then d.switched f s' v'
      else d
    | _, _ => d
  | _, _ => d
/-- PREEMPTION. -/
def execPreemption (n cycles : Nat) (s : State) : Host.Outcome State Fault Refusal := s.act (·.doPreempt n cycles)

/-! ## Retirement and substitution (R23, R70 to R72, R125 to R129) -/

/-- Whether the pen's mismatches call for retirement (R70): the limit reached within some window, or eight failures of one
tile step in a row; limits above 16 act as 16, 0 turns the count off. -/
def Site.dueToRetire (t : Site) : Bool :=
  decide (8 ≤ t.inRow) ||
    (t.limit ≠ 0 && t.history.any fun h =>
      decide (min t.limit 16 ≤ (t.history.filter fun g => h ≤ g ∧ g < h + t.window * 1024).length))

/-- Spare sites: held back, none of them is available in bypass mode (R125). -/
def Device.spareSites (d : Device) : List Nat :=
  if d.bring.bypass then [] else (List.range 42).filter fun n => (d.site n).state = 1

/-- The pen of a site retires (R71, R72); with no spare the fold shrinks (R23, R128). -/
def Device.retirePen (d : Device) (n : Nat) : Device :=
  if !d.inFold n then d else
  let t := d.site n
  let d := d.stopPen n .retire
  let d := (d.onSite n fun t => { t with state := 2, replay := none, inRow := 0 }).event .penRetired [n, t.logical]
  let d := { d with persist := { d.persist with retired := nins d.persist.retired n } }
  if d.spareSites ≠ [] then
    (d.foldSites t.fold).foldl (fun d m => d.stopPen m .substitution) d
  else
    let d := d.onSite n fun t => { t with logical := 63 }
    ((d.fold t.fold).drives.map (·.1)).foldl (fun d s => d.stopOpen t.fold s 0x20) d

/-- PEN_RETIRE: the retirement condition holds. -/
def Device.doPenRetire (d : Device) (n : Nat) : Device :=
  if d.inFold n ∧ (d.site n).dueToRetire then d.retirePen n else d
/-- PEN_RETIRE. -/
def execPenRetire (n : Nat) (s : State) : Host.Outcome State Fault Refusal := s.act (·.doPenRetire n)

/-- Seam crossings when stepping down from site a by k sites. -/
def seams (a k : Nat) : Nat :=
  ((List.range k).filter fun j => let x := (a + 42 - j % 42) % 42; x = 21 ∨ x = 0).length

/-- Least return-lane latency between two sites: 4, one per site passed, two per seam crossed (R94). -/
def laneLatency (a b : Nat) : Nat :=
  let down (a b : Nat) : Nat := let k := (a + 42 - b) % 42; 4 + (k - 1) + 2 * seams a k
  min (down a b) (down b a)

/-- The spare with the least return-lane latency from a site, the lower number on a tie (table Spare
substitution, step 3). -/
def Device.bestSpare (d : Device) (n : Nat) : Option Nat :=
  d.spareSites.foldl (fun best m => match best with
    | none => some m
    | some b => if laneLatency n m < laneLatency n b then some m else some b) none

/-- Retired sites of a fold that still carry a logical number: their substitution is to come. -/
def Device.awaiting (d : Device) (f : Nat) : List Nat :=
  ((List.range 42).filter fun n => (d.site n).state = 2 ∧ (d.site n).fold = f ∧ (d.site n).logical < 40)

/-- Waits of a site passed to another. -/
def Watch.rename (w : Watch) (n m : Nat) : Watch :=
  { w with cmps := w.cmps.map fun o => match o with
      | some c => some { c with users := c.users.map fun u => match u with
          | .wait x b id => if x = n then .wait m b id else .wait x b id
          | u => u }
      | none => none }

/-- What the rings carry for a site, and the transfers it carries out, go over to another (R126; log entry 125). -/
def Device.renameFlights (d : Device) (n m : Nat) : Device :=
  let at_ (x : Nat) : Nat := if x = n then m else x
  let ring (x : Flight RingFlit) : Flight RingFlit := match x.flit with
    | .write f => if f.site = n then { x with flit := .write { f with site := m }, dst := stopOf m } else x
    | .order o => { x with flit := .order { o with site := at_ o.site }, dst := if x.dst = stopOf n then stopOf m else x.dst }
  { d with fabric := { d.fabric with
    bulk := d.fabric.bulk.map ring
    xfers := d.fabric.xfers.map fun e => (e.1, { e.2 with owner := e.2.owner.map fun o => (at_ o.1, o.2) }) } }

/-- SPARE_SUBSTITUTION: the retired pen with the lowest logical number of its fold is copied to a spare; after
the last copy the fold resumes in staggered order; a pre-emption under way completes first (R84, R126 to R129). -/
def Device.doSubstitute (d : Device) (n : Nat) : Device :=
  let t := d.site n
  let f := t.fold
  if !(d.awaiting f).contains n ∨ (d.awaiting f).any (fun m => (d.site m).logical < t.logical) ∨ (d.fold f).incoming.isSome then d else
  match d.bestSpare n with
  | none =>
    let d := d.onSite n fun t => { t with logical := 63 }
    let d := (d.foldSites f).foldl (fun d m => d.resumePen m .substitution) d
    ((d.fold f).drives.map (·.1)).foldl (fun d s => d.stopOpen f s 0x20) d
  | some m =>
    let d := d.dropFeed n
    let t := d.site n
    let d := d.onSite m fun u => { u with
      state := 0, logical := t.logical, fold := f, detour := true
      pad := t.pad, poison := t.poison, poisonMem := t.poisonMem, veil := t.veil, badRows := t.badRows, acc := t.acc.filter fun e => t.live.contains e.1
      live := t.live, owner := t.owner, tally := t.tally, handle := t.handle, races := t.races, arrived := t.arrived
      seqr := t.seqr, node := t.node, saved := t.saved, stops := t.stops.filter fun c => c ≠ .retire ∧ c ≠ .substitution
      level := 0, ramp := none, replay := none, inRow := 0, padCE := 0, padUE := 0, clearing := false }
    let d := d.onSite n fun t => { t with logical := 63 }
    let d := { d with watch := d.watch.rename n m }.renameFlights n m
    let d := d.event .penSubstituted [n, m]
    if d.awaiting f ≠ [] then d else
    (d.foldSites f).foldl (fun d k =>
      let d := d.onSite k (·.unstop .substitution)
      if (d.site k).stops = [] ∧ (d.goes k).isSome then d.onSite k (·.rampUp) else d) d
/-- SPARE_SUBSTITUTION. -/
def execSpareSubstitution (n : Nat) (s : State) : Host.Outcome State Fault Refusal := s.act (·.doSubstitute n)

end Sys2Proof.Machine
end

