-- ==== Sys2Proof/Machine/Rings.lean ====
section
/-!
DEFINITION. The on-die rings and the lottery: bulk flits, read orders, control flits by kind, musters at the
hub, setup and event flits, arbiter draws (05, R140 to R148; 06, R199, R201; 08, R240 to R256; 03, R79).
-/
namespace Sys2Proof.Machine

/-! ## Bulk ring (R140 to R143, R148, R158, R241 to R244) -/

/-- One word of a landing flit. -/
def Site.landWord (t : Site) (f : BulkFlit) (i : Nat) : Site :=
  if f.mask.getD i false then
    let a := f.off / 64 * 64 + 8 * i
    t.padWrite a (leBytes 8 (f.words.getD i 0#64).toNat)
      (if f.poison.getD i false then [(a / 8, if f.origin.getD i false then 1 else 0)] else [])
  else t

/-- Whether a flit lands: its site carries a pen of its fold, whose paddock is not being cleared (R138, R158). -/
def Device.lands (d : Device) (f : BulkFlit) : Bool :=
  (d.site f.site).seated && decide ((d.site f.site).fold = f.fold) && decide (f.off < padSize) && !(d.site f.site).clearing

/-- A flit has arrived, as part of a transfer or by itself: its valid words land; the last one increments the arrival tally of
a transfer that was not cut, none of whose writes has been discarded (R142, R158, R255). -/
def Device.landFlit (d : Device) (f : BulkFlit) (part : Nat) : Device :=
  if d.lands f then
    let d := (d.wake f.site).onSite f.site fun t => (List.range 8).foldl (fun t i => t.landWord f i) t
    if part ≠ 0 then d.partsDone part 1
    else if f.last ∧ !f.cut then d.tallyAdd f.fold f.tally f.inc else d
  else if part = 0 then d
  else ({ d with fabric := { d.fabric with xfers := d.fabric.xfers.map fun e =>
    if e.1 = part then (e.1, { e.2 with cut := true }) else e } } : Device).partsDone part 1

/-- BULK_WRITE_FLIT: a flit arrives, in the order of its lane (R242, R257); one not on the ring is injected with its arrival
(log entry 23). -/
def Device.doBulkFlit (d : Device) (f : BulkFlit) : Device :=
  match arriveGo (fun x => decide (x = .write f)) [] d.fabric.bulk with
  | some (x, l) => ({ d with fabric := { d.fabric with bulk := refill (d.room bulkRoom) x l } } : Device).landFlit f x.part
  | none => if d.fabric.bulk.any (·.flit = .write f) then d else d.landFlit f 0
/-- BULK_WRITE_FLIT. -/
def execBulkWriteFlit (f : BulkFlit) (s : State) : Host.Outcome State Fault Refusal := s.act (·.doBulkFlit f)

/-- Whether an order may be served: words, at most 1 MiB, out of one paddock of the fold, for a pen of the fold (R131, R138,
R244). -/
def Device.goodOrder (d : Device) (o : ReadOrder) : Bool :=
  (d.site o.site).seated && decide ((d.site o.site).fold = o.fold) && o.src % 8 = 0 && o.dst % 8 = 0 && o.len % 8 = 0 &&
    0 < o.len && o.len ≤ 2 ^ 20 && inWindow o.src && o.src % padSize + o.len ≤ padSize && d.owns o.fold o.src o.len &&
    d.owns o.fold o.dst o.len && (!inWindow o.dst || o.dst % padSize + o.len ≤ padSize)

/-- The remote-read service of a source serves an order: a read of a paddock is carried out as a write of its data, into a
paddock by flits of one line each, into LPDDR5X at once (R140, R244). -/
def Device.serveOrder (d : Device) (o : ReadOrder) (part : Nat) (errs : List (Nat × Ecc)) : Device :=
  if !d.goodOrder o then d else
  match d.place o.fold o.src, d.place o.fold o.dst with
  | some (.pad m _), some (.pad k off) =>
    let d := d.transferRead o.fold o.src o.len errs
    d.issueFlits (stopOf m) part (lineFlits (stopOf m) o.fold o.fold k off (d.readLocal o.fold o.src o.len)
      (d.poisonWords o.fold o.src o.len) o.tally o.inc (stileSplit (off, o.len)))
  | some (.pad _ _), some (.lp _) =>
    let d := d.moveRow o.fold o.src o.dst o.len errs
    if part ≠ 0 then d.partsDone part 1 else d.tallyAdd o.fold o.tally o.inc
  | _, _ => d

/-- REMOTE_READ_ORDER: an order reaches the station of its source, in the order of its lane, and is served; one not on the
ring is injected with its arrival (R242, R244, R257; log entry 23). -/
def Device.doReadOrder (d : Device) (o : ReadOrder) (errs : List (Nat × Ecc)) : Device :=
  match arriveGo (fun x => decide (x = .order o)) [] d.fabric.bulk with
  | some (x, l) => ({ d with fabric := { d.fabric with bulk := refill (d.room bulkRoom) x l } } : Device).serveOrder o x.part errs
  | none => if d.fabric.bulk.any (·.flit = .order o) then d else d.serveOrder o 0 errs
/-- REMOTE_READ_ORDER. -/
def execRemoteReadOrder (o : ReadOrder) (errs : List (Nat × Ecc)) (s : State) : Host.Outcome State Fault Refusal :=
  s.act (·.doReadOrder o errs)

/-! ## Control flits (R199, R201, R245) -/

/-- CONTROL_TALLY_ADD: kind 1 at its destination. -/
def Device.doCtlAdd (d : Device) (f id inc : Nat) : Device := d.onArrive (.tallyAdd f id inc) (·.tallyAdd f id inc)
/-- CONTROL_TALLY_ADD. -/
def execControlTallyAdd (f id inc : Nat) (s : State) : Host.Outcome State Fault Refusal := s.act (·.doCtlAdd f id inc)

/-- CONTROL_TALLY_SET: kind 2 at its destination. -/
def Device.doCtlSet (d : Device) (f id value : Nat) : Device :=
  d.onArrive (.tallySet f id value) fun d => match d.tallyAt f id with
    | some p => d.tallyPut p (BitVec.ofNat 32 value)
    | none => d
/-- CONTROL_TALLY_SET. -/
def execControlTallySet (f id value : Nat) (s : State) : Host.Outcome State Fault Refusal :=
  s.act (·.doCtlSet f id value)

/-- Release of a muster at the hub in a ramp-arbiter cycle: the round ends and a release flit goes to every pen; the pens
at level 0, in ascending logical order, begin 26 + k cycles later, and no other ramp is granted until 32 cycles after the
last of them (R79, R201). -/
def Device.releaseMuster (d : Device) (f slot group cycle : Nat) : Device :=
  let ss := d.foldSites f
  let idle := ss.filter fun n => (d.site n).level = 0
  let d := d.onFold f fun o => { o with musters := sdel o.musters (musterKey slot group) }
  let d := { d with fabric := { d.fabric with
    stagger := d.fabric.stagger ++ idle.zipIdx.map fun x => (x.1, cycle + 26 + x.2)
    holdTo := if idle = [] then d.fabric.holdTo else max d.fabric.holdTo (cycle + 26 + (idle.length - 1) + 32) } }
  ss.foldl (fun d n => d.inject hubStop (.musterRelease f slot group n (if idle.contains n then idle.idxOf n else 0))) d

/-- MUSTER_ARRIVE: the hub counts the pen's arrival in the round; the last one releases it (R201). -/
def Device.doMusterArrive (d : Device) (f slot group pen cycle : Nat) : Device :=
  d.onArrive (.musterArrive f slot group pen) fun d =>
    let m := (d.foldSites f).length
    if 4 ≤ slot ∨ 64 / d.foldCount ≤ group ∨ m ≤ pen then d else
    let key := musterKey slot group
    let here := nins (sget [] (d.fold f).musters key) pen
    let d := d.onFold f fun o => { o with musters := sput o.musters key here }
    if (List.range m).all (here.contains ·) then d.releaseMuster f slot group cycle else d
/-- MUSTER_ARRIVE. -/
def execMusterArrive (f slot group pen cycle : Nat) (s : State) : Host.Outcome State Fault Refusal :=
  s.act (·.doMusterArrive f slot group pen cycle)

/-- A staggered pen begins its ramp-up without a grant, unless it is told to stop (R79). -/
def Device.staggerUp (d : Device) (n cycle : Nat) : Device :=
  let d := { d with fabric := { d.fabric with
    stagger := d.fabric.stagger.filter (·.1 ≠ n), holdTo := max d.fabric.holdTo (cycle + 32) } }
  d.onSite n fun t => if t.stops = [] then t.rampUp else t

/-- MUSTER_RELEASE: the pen's wait is over, and a pen that was at level 0 when the muster was released begins its
staggered ramp-up, never before its own cycle (R79, R201). -/
def Device.doMusterRelease (d : Device) (f slot group n pos cycle : Nat) : Device :=
  let due := d.fabric.stagger.find? (·.1 = n)
  if !d.fabric.ctl.any (·.flit = .musterRelease f slot group n pos) ∨ due.any (cycle < ·.2) then d else
  d.onArrive (.musterRelease f slot group n pos) fun d =>
    let key := musterKey slot group
    let d := d.onSite n fun t => { t with arrived := ndel t.arrived key }
    let mine : Bool := match d.goes n with | some (s, _) => decide (s = slot) | none => false
    let d := if mine then d.onSite n (Site.onSeqr · fun q => { q with act := q.act.map fun a =>
        match a.cmd.body with
        | .muster g m _ => if g = group ∧ a.phase = .waiting ∧ (a.t = 1 ∨ m = 2) then { a with phase := .finished } else a
        | _ => a }) else d
    if due.isSome then d.staggerUp n cycle else d
/-- MUSTER_RELEASE. -/
def execMusterRelease (f slot group n pos cycle : Nat) (s : State) : Host.Outcome State Fault Refusal :=
  s.act (·.doMusterRelease f slot group n pos cycle)

/-- SETUP_ADDRESS: kind 5 names the register of a setup access under way (R245). -/
def Device.doSetupAddr (d : Device) (crook rd : Bool) (off : Nat) : Device :=
  d.onArrive (.setupAddr crook rd off) fun d => { d with fabric := { d.fabric with setup := some (crook, rd, off) } }
/-- SETUP_ADDRESS. -/
def execSetupAddress (crook rd : Bool) (off : Nat) (s : State) : Host.Outcome State Fault Refusal :=
  s.act (·.doSetupAddr crook rd off)

/-- SETUP_DATA: kind 6 carries the data or the refusal of the setup access, which ends (R245). -/
def Device.doSetupData (d : Device) (crook refused : Bool) (value : Nat) : Device :=
  d.onArrive (.setupData crook refused value) fun d => { d with fabric := { d.fabric with setup := none } }
/-- SETUP_DATA. -/
def execSetupData (crook refused : Bool) (value : Nat) (s : State) : Host.Outcome State Fault Refusal :=
  s.act (·.doSetupData crook refused value)

/-- EVENT_FRAGMENT: kind 9 reaches the crook, which consumes a source's record with its last fragment, the eighth at the
latest (R245). -/
def Device.doEventFrag (d : Device) (n value : Nat) (last : Bool) : Device :=
  d.onArrive (.eventFrag n value) fun d =>
    let fr := d.fabric.frags ++ [(n, value)]
    { d with fabric := { d.fabric with
        frags := if last || 8 ≤ (fr.filter (·.1 = n)).length then fr.filter (·.1 ≠ n) else fr } }
/-- EVENT_FRAGMENT. -/
def execEventFragment (n value : Nat) (last : Bool) (s : State) : Host.Outcome State Fault Refusal :=
  s.act (·.doEventFrag n value last)

/-! ## The lottery (R249 to R253) -/

/-- Step of an arbiter's generator (R251). -/
def lfsr (x : W32) : W32 :=
  (x <<< 1) ||| (if (x.getLsbD 31 ^^ x.getLsbD 21 ^^ x.getLsbD 1 ^^ x.getLsbD 0) then 1#32 else 0#32)

/-- Lowest requester whose running sum of tickets exceeds r. -/
def winner (r : Nat) : Nat → List (Nat × Nat) → Option Nat
  | _, [] => none
  | sum, (i, t) :: l => if r < sum + t then some i else winner r (sum + t) l

/-- One draw among the requesters, each with the beats of its burst (R252): by tickets, or in turn among those without. The
burst that held the port has ended; with no requester the port is idle (R253). -/
def Arbiter.draw (a : Arbiter) (tickets : List Nat) (req : List (Nat × Nat)) : Arbiter :=
  let asking := (List.range 16).filter fun i => req.any (·.1 = i)
  let ts := asking.map fun i => (i, tickets.getD i 0)
  let total := (ts.map (·.2)).sum
  let burst (i : Nat) : Nat × Nat := (i, ((req.find? (·.1 = i)).map (·.2)).getD 0)
  if 0 < total then
    let g := lfsr a.gen
    { a with gen := g, holder := (winner ((g.toNat / 65536 * total) / 65536) 0 ts).map burst }
  else
    match asking.find? (a.last < ·) <|> asking.head? with
    | some w => { a with last := w, holder := some (burst w) }
    | none => { a with holder := none }

/-- Tickets of the four classes of a bank port, by table Bank port requesters. -/
def bankTickets (v : Nat) : List Nat := [bits v 7 0, bits v 15 8, bits v 23 16, bits v 31 24]

/-- Whether a number names a bank arbiter (table Lottery-arbitrated ports). -/
def isBank (a : Nat) : Bool := 0x100 ≤ a && a < 0x100 + 42 * 0x80

/-- Beats of the largest burst of a port (table Lottery-arbitrated ports). -/
def largestBurst (a : Nat) : Nat := if isBank a then 1 else if a < 12 then 16 else 32

/-- ARBITER_DRAW: the next burst of a port is granted, among the requesters whose bursts the port takes (R250). -/
def Device.doDraw (d : Device) (a : Nat) (req : List (Nat × Nat)) : Device :=
  let req := req.filter fun x => 1 ≤ x.2 && x.2 ≤ largestBurst a
  if a < 18 then
    { d with fabric := { d.fabric with arbs := d.fabric.arbs.modify a fun x => x.draw x.tickets req } }
  else if isBank a then
    let n := (a - 0x100) / 0x80
    let wr := (a - 0x100) % 0x80 / 0x40 = 1
    let t := bankTickets (if wr then (d.site n).arbWr else (d.site n).arbRd)
    let x := (slook d.fabric.banks a).getD (.reset a)
    { d with fabric := { d.fabric with banks := sput d.fabric.banks a (x.draw t (req.filter (·.1 < 4))) } }
  else d
/-- ARBITER_DRAW. -/
def execArbiterDraw (a : Nat) (requesting : List (Nat × Nat)) (s : State) : Host.Outcome State Fault Refusal :=
  s.act (·.doDraw a requesting)

end Sys2Proof.Machine
end

