-- ==== Sys2Proof/Machine/Memory.lean ====
section
/-!
DEFINITION. Memory quarters and paddock upkeep: line reads and writes, patrol, refresh and power states,
scrubbing, clearing, row sparing (05, R149 to R158; 10, R290 to R311).
-/
namespace Sys2Proof.Machine

/-! ## Memory quarters (10) -/

/-- Whether a device data address is served now: the quarters are trained, the device is in full service (R291, R292). -/
def Device.serves (d : Device) (addr : Nat) : Bool :=
  d.full && d.mem.state = 2 && decide (addr < d.usable)

/-- MEMORY_READ: a quarter reads the line of a device data address. -/
def Device.doMemRead (d : Device) (addr : Nat) (lo hi : Ecc) : Device :=
  if !d.serves addr then d else
  ((d.touchMem (addr / 64 * 64) 64 false).checkHalf addr 0 0 lo).checkHalf addr 1 0 hi
/-- MEMORY_READ. -/
def execMemoryRead (addr : Nat) (lo hi : Ecc) (s : State) : Host.Outcome State Fault Refusal :=
  s.act (·.doMemRead addr lo hi)

/-- MEMORY_WRITE: a quarter accepts a write within one line of a fold's share, under the fold's key; a partial
line is merged (R297 to R301). -/
def Device.doMemWrite (d : Device) (f x : Nat) (bs : List Byte) : Device :=
  let a := f * d.share + x
  if d.foldCount ≤ f ∨ d.share < x + bs.length ∨ bs = [] ∨ 64 < x % 64 + bs.length ∨ !d.serves a then d
  else d.memWrite (d.fold f).key a bs []
/-- MEMORY_WRITE. -/
def execMemoryWrite (f addr : Nat) (data : List Byte) (s : State) : Host.Outcome State Fault Refusal :=
  s.act (·.doMemWrite f addr data)

/-- Chunks of a channel (R293, R296). -/
def Device.channelChunks (d : Device) : Nat := d.usable / 64 / 15 / 32

/-- MEM_PATROL: a channel's patrol reads its next chunk, correcting and poisoning with kind 1 (R305). -/
def Device.doPatrol (d : Device) (ch : Nat) (errs : List (Ecc × Ecc)) : Device :=
  if 32 ≤ ch ∨ !bit d.mem.scrub 31 ∨ d.mem.state ≠ 2 ∨ (d.quarter (ch / 8)).selfRef then d else
  let u := d.mem.patrol.getD ch 0
  let c := u * 32 + ch % 8 * 4 + ch / 8
  let d := (List.range 15).foldl (fun d j =>
    let a := (c * 15 + j) * 64
    let e := errs.getD j (.ok, .ok)
    (d.checkHalf a 0 1 e.1).checkHalf a 1 1 e.2) (d.useCheck c false)
  { d with mem := { d.mem with
      patrol := d.mem.patrol.set ch ((u + 1) % d.channelChunks), down := d.mem.down.set ch false } }
/-- MEM_PATROL. -/
def execMemPatrol (ch : Nat) (errs : List (Ecc × Ecc)) (s : State) : Host.Outcome State Fault Refusal :=
  s.act (·.doPatrol ch errs)

/-- The MR4 of a quarter's two packages is read: the rate of each package's refresh follows it; a report above the rated
range records MEM_HOT, at most once a second (R290, R306). -/
def Device.readMr4 (d : Device) (q : Nat) (hot : Bool × Bool) : Device :=
  let x := d.quarter q
  let due : Bool := match x.lastHot with | some t => t + 100000000 ≤ d.watch.age | none => true
  if 4 ≤ q then d
  else if (hot.1 || hot.2) && due then (d.onQuarter q fun x => { x with hot := hot, lastHot := some d.watch.age }).event .memHot [q]
  else d.onQuarter q fun x => { x with hot := hot }

/-- REFRESH: per-bank refresh at the rate that MR4 asks (R306). -/
def Device.doRefresh (d : Device) (q : Nat) (hot : Bool × Bool) : Device := d.readMr4 q hot
/-- REFRESH. -/
def execRefresh (q : Nat) (hot : Bool × Bool) (s : State) : Host.Outcome State Fault Refusal :=
  s.act (·.doRefresh q hot)

/-- RFM: the commands a package asks for change timing only (R307); its MR4 is read as at a refresh (R306). -/
def Device.doRfm (d : Device) (q : Nat) (hot : Bool × Bool) : Device := d.readMr4 q hot
/-- RFM. -/
def execRfm (q : Nat) (hot : Bool × Bool) (s : State) : Host.Outcome State Fault Refusal := s.act (·.doRfm q hot)

/-- WCK2DQ_CHECK: a channel that has drifted is retrained, with an event (R307). -/
def Device.doWck (d : Device) (q ch : Nat) (drifted : Bool) : Device :=
  if q < 4 ∧ ch < 8 ∧ drifted then d.event .memRetrain [q, ch] else d
/-- WCK2DQ_CHECK. -/
def execWck2dqCheck (q ch : Nat) (drifted : Bool) (s : State) : Host.Outcome State Fault Refusal :=
  s.act (·.doWck q ch drifted)

/-- CHANNEL_POWER_DOWN: an idle channel enters power-down (R308). -/
def Device.doChannelDown (d : Device) (ch : Nat) : Device :=
  if (d.quarter (ch / 8)).selfRef then d else { d with mem := { d.mem with down := d.mem.down.set ch true } }
/-- CHANNEL_POWER_DOWN. -/
def execChannelPowerDown (ch : Nat) (s : State) : Host.Outcome State Fault Refusal := s.act (·.doChannelDown ch)

/-- Whether a drive is resident on any fold. -/
def Device.anyDrive (d : Device) : Bool := d.folds.any fun o => o.drives ≠ []

/-- SELF_REFRESH_ENTRY: with MEM_CFG.idle_sr set, no drive resident and no request for 65,536 ticks, a quarter puts its
channels into self
refresh and, where HEFT_CTRL.gate_en is set, stops its heft's clock (R271, R308). Memory quarter q is heft 42 + q (R259). -/
def Device.doSelfRefIn (d : Device) (q : Nat) : Device :=
  if 4 ≤ q ∨ !d.mem.idleSr ∨ d.anyDrive ∨ (d.quarter q).selfRef ∨ d.watch.age < (d.quarter q).used + 65536 then d else
  (d.onQuarter q fun x => { x with selfRef := true }).onHeft (42 + q) fun h => { h with stopped := h.gateEn }
/-- SELF_REFRESH_ENTRY. -/
def execSelfRefreshEntry (q : Nat) (s : State) : Host.Outcome State Fault Refusal := s.act (·.doSelfRefIn q)

/-- SELF_REFRESH_EXIT: a request, raised as a wake, ends self refresh and restarts the heft's clock (R272,
R308). -/
def Device.doSelfRefOut (d : Device) (q : Nat) : Device :=
  if !(d.quarter q).selfRef then d else
  (d.onQuarter q fun x => { x with selfRef := false, used := d.watch.age }).onHeft (42 + q) fun h => { h with stopped := false }
/-- SELF_REFRESH_EXIT. -/
def execSelfRefreshExit (q : Nat) (s : State) : Host.Outcome State Fault Refusal := s.act (·.doSelfRefOut q)

/-! ## Scrubbing and clearing (R149 to R151, R157, R158) -/

/-- One word of a scrubbed line: a poisoned word is described, a fresh error is an event (R149, R151). -/
def Device.scrubWord (d : Device) (n word : Nat) (e : Ecc) : Device :=
  if (d.site n).poison.contains word then d.onSite n (·.padPoisoned word)
  else match e with
    | .ok => d
    | .corrected => d.onSite n fun t => { t with padCE := satAdd 32 t.padCE 1 }
    | .uncorrectable => (d.onSite n (·.padBroken word 1)).event .padUncorrectable [n, word, 1]

/-- PADDOCK_SCRUB: a bank's scrubber reads its next line, or defers it; a stopped heft wakes for it (R150, R151, R272). -/
def Device.doScrub (d : Device) (n bank : Nat) (granted : Bool) (errs : List Ecc) : Device :=
  if 42 ≤ n ∨ 64 ≤ bank ∨ !bit d.padScrub 31 then d
  else
  let d := d.wake n
  if !granted then { d with deferred := satAdd 32 d.deferred 1 }
  else
    let line := sget 0 (d.site n).scrub bank
    let d := (List.range 8).foldl (fun d i => d.scrubWord n (line * 512 + bank * 8 + i) (errs.getD i .ok)) d
    d.onSite n fun t => { t with scrub := sset 0 t.scrub bank ((line + 1) % 16384) }
/-- PADDOCK_SCRUB. -/
def execPaddockScrub (n bank : Nat) (granted : Bool) (errs : List Ecc) (s : State) : Host.Outcome State Fault Refusal :=
  s.act (·.doScrub n bank granted errs)

/-- A clear of a site's paddock begins: its heft runs at 425 MHz at least, to which it slews (R157, R263). -/
def Device.startClear (d : Device) (n : Nat) : Device :=
  let d := d.onSite n fun t => { t with clearing := true }
  (d.onHeft n fun h => { h with clear := true }.follow).supply

/-- PADDOCK_CLEAR: a clear under way ends with every word at zero and no poison (R149, R157); the heft goes
back to the step its limits ask. -/
def Device.doPadClear (d : Device) (n : Nat) : Device :=
  if !(d.site n).clearing then d else
  let d := d.onSite n fun t => { t.cleared with clearing := false }
  (d.onHeft n fun h => { h with clear := false }.follow).supply
/-- PADDOCK_CLEAR. -/
def execPaddockClear (n : Nat) (s : State) : Host.Outcome State Fault Refusal := s.act (·.doPadClear n)

/-! ## Row sparing (R152 to R156) -/

/-- Abandoned records: the open step of every drive is dropped without a completion, and a stopped-device
failure is reported (R11, R156; 12, the studbook record). The status it carries is open (log entry 11). -/
def Device.abandonRecords (d : Device) : Device :=
  ((List.range 8).flatMap fun f => (d.fold f).drives.filterMap fun e => e.2.opened.map fun r => (f, e.1, r)).foldl
    (fun d x =>
      let d := d.onDrive x.1 x.2.1 fun v => { v with opened := none, abandoned := true }
      if d.active then
        (d.tellBell (.failure d.flock.rank (.stopped (Config.unnamed d.free % 64) ((x.2.2.leaves.head?.map (·.leaf)).getD 0) x.2.2.number))).draw
      else d) d

/-- What an uncorrectable error of a row does to the work it touches (R64, R156). A stop that no stream command
raised has a free stream address (log entry 11). -/
def Device.rowBroken (d : Device) (st : RowStore) (row : Nat) : Device :=
  match st with
  | .acc n b =>
    let tile := (row / 16) * 8 + b
    ((d.event .accUncorrectable [n, tile, row % 16 * 2]).stopAt n 0x06 (Config.unnamed d.free)).draw
  | .tally n => (d.stopAt n 0x09 (Config.unnamed d.free)).draw
  | .global =>
    let f := row * 32 / d.globals
    match (d.fold f).running with
    | some s => d.stopOpen f s 0x09
    | none => d
  | .studbook => d.abandonRecords

/-- ROW_SPARE: a row reports an error (R154, R156). -/
def Device.doRowSpare (d : Device) (st : RowStore) (row : Nat) (e : Ecc) : Device :=
  if !st.ok ∨ st.rows ≤ row then d else
  (if e = .uncorrectable then d.rowBroken st row else d).rowReport st row e
/-- ROW_SPARE. -/
def execRowSpare (st : RowStore) (row : Nat) (e : Ecc) (s : State) : Host.Outcome State Fault Refusal :=
  s.act (·.doRowSpare st row e)

/-- ROW_REMAP_DONE: the copy ends and the map switches to the spare (R155), whose errors count from zero. -/
def Device.doRowRemap (d : Device) (st : RowStore) (row : Nat) : Device :=
  if !d.copyingRow st row then d else
  let k := st.key row
  let d := d.setRowCount st row 0
  match st with
  | .acc n _ | .tally n => d.onSite n fun t => { t with copying := ndel t.copying k, spared := nins t.spared k }
  | _ => { d with gateRows := { d.gateRows with
      copying := ndel d.gateRows.copying k, spared := nins d.gateRows.spared k } }
/-- ROW_REMAP_DONE. -/
def execRowRemapDone (st : RowStore) (row : Nat) (s : State) : Host.Outcome State Fault Refusal :=
  s.act (·.doRowRemap st row)

end Sys2Proof.Machine
end

