-- ==== Sys2Proof/Machine/Shears.lean ====
section
/-!
DEFINITION. The memory shears and what they share with the link shears: state blocks, copy records, the four
update rules (07, R210 to R238).
-/
namespace Sys2Proof.Machine

/-! ## Copy records (R213 to R216) -/

/-- Fields of the copy word I7 (table Copy word). -/
structure CopyWord where
  fmt : Nat
  scl : Bool
  sq  : Bool
  pair : Bool
  sr  : Bool
  en  : Bool
  root : Nat
  stat : Bool
  deriving DecidableEq, Repr

/-- The copy word of a SHEAR. -/
def Shear.copyWord (c : Shear) : CopyWord :=
  let w := (c.imms.getD 7 0#32).toNat
  ⟨bits w 3 0, bit w 4, bit w 5, bit w 6, bit w 7, bit w 8, bits w 10 9, bit w 11⟩

/-- Immediate i of a SHEAR. -/
def Shear.imm (c : Shear) (i : Nat) : W32 := c.imms.getD i 0#32

/-- A B-tile record of kn rows by 64 columns of values with their rounding modes (R174, R214): elements, then
scales by column, or by 32 x 32 square when `sq`. -/
def copyRecord (f : Fmt) (scl sq : Bool) (kn : Nat) (mds : List (Dec × RMode)) : List Byte :=
  if !scl then packBits f.width (mds.map fun p => (convElem f p.2 p.1).code) else
  let arr := mds.toArray
  let at_ (r c : Nat) : Dec × RMode := arr.getD (r * 64 + c) (.zeroD false, .nearest)
  let nb := kn / 32
  let cols : List (Nat × List Nat) :=
    if sq then (List.range nb).flatMap fun h => [0, 1].flatMap fun g =>
      let b := convBlock f ((List.range 32).flatMap fun c => (List.range 32).map fun r => at_ (32 * h + r) (32 * g + c))
      (chunks 32 33 b.2).map fun col => (b.1, col)
    else (List.range nb).flatMap fun h => (List.range 64).map fun c =>
      convBlock f ((List.range 32).map fun r => at_ (32 * h + r) c)
  let ca := (cols.map fun c => (c.1, c.2.toArray)).toArray
  let blk (h c : Nat) : Nat × Array Nat := ca.getD (h * 64 + c) (0, #[])
  packBits f.width ((List.range (kn * 64)).map fun i =>
      (blk (i / 64 / 32) (i % 64)).2.getD (i / 64 % 32) 0) ++
    (List.range (64 * nb)).map fun i => BitVec.ofNat 8 (blk (i % nb) (i / nb)).1

/-- Values of block b of a layer with their rounding modes (R215). -/
def copyModes (c : Shear) (key ctr b : Nat) (ws : List W32) : List (Dec × RMode) :=
  let sr := c.copyWord.sr
  ws.zipIdx.map fun p =>
    (f32 p.1, if sr then .stoch (draw16 key ctr (2 ^ 63 + c.layer) (b * 2048 + p.2)) else .nearest)

/-- The record of one block (R214), or of a pair of blocks as one 64 x 64 tile (R216). -/
def Shear.record (c : Shear) (key ctr b : Nat) (ws : List W32) (pairWs : List W32) : List Byte :=
  let w := c.copyWord
  match Fmt.ofCode w.fmt with
  | none => []
  | some f =>
    if w.pair then copyRecord f w.scl w.sq 64 (copyModes c key ctr b ws ++ copyModes c key ctr (b + 1) pairWs)
    else copyRecord f w.scl w.sq 32 (copyModes c key ctr b ws)

/-- A copy region: the record, zero beyond it (R210). -/
def padTo (n : Nat) (bs : List Byte) : List Byte := bs ++ List.replicate (n - bs.length) 0#8

/-! ## State blocks (R210) -/

/-- A state block. -/
structure StateBlock where
  w : List W32
  m : List W32
  v : List W32
  copy : List Byte
  deriving DecidableEq, Repr

/-- Words of bytes. -/
def wordsOfBytes (bs : List Byte) : List W32 := (chunks 4 (bs.length / 4) bs).map fun b => BitVec.ofNat 32 (leNat b)
/-- Bytes of words. -/
def bytesOfWords (ws : List W32) : List Byte := ws.flatMap fun w => leBytes 4 w.toNat

/-- Bytes of a state block. -/
def blockSize : Nat := 32768

/-- State block at a local address. -/
def Device.stateBlock (d : Device) (f x : Nat) : StateBlock :=
  ⟨wordsOfBytes (d.readLocal f x 8192), wordsOfBytes (d.readLocal f (x + 0x2000) 8192),
    wordsOfBytes (d.readLocal f (x + 0x4000) 8192), d.readLocal f (x + 0x6000) 8192⟩

/-- Bytes of a state block. -/
def StateBlock.bytes (b : StateBlock) : List Byte :=
  bytesOfWords b.w ++ bytesOfWords b.m ++ bytesOfWords b.v ++ padTo 8192 b.copy

/-- A write of state by the shears at its working address: dirty pages (R374), pages for the foster (R370). -/
def Device.noteWrite (d : Device) (r : ShearReq) (x len : Nat) : Device :=
  match d.drive r.fold r.slot with
  | none => d
  | some v =>
    let ps := v.pagesOf x len
    if ps = [] ∨ v.unlogged then d else
    let d := { d with recov := { d.recov with dirty := ps.foldl nins d.recov.dirty } }
    if r.cmd.snap then
      d.onDrive r.fold r.slot fun v => { v with
        written := ps.foldl (fun l p => if l.contains (r.step, p) then l else l ++ [(r.step, p)]) v.written }
    else d

/-- A write of state: working copy, and the snapshot copy on a snapshot step (R233). -/
def Device.writeState (d : Device) (r : ShearReq) (x : Nat) (bs : List Byte) : Device :=
  let d := (d.writeLocal r.fold x bs []).noteWrite r x bs.length
  match r.snap with
  | some off => d.writeLocal r.fold (x + off) bs []
  | none => d

/-- A write of a matrix rule to the factor region: offset, bytes, whether the working region takes it and
whether the snapshot copy of a snapshot step does (R233). -/
structure FactorWrite where
  off  : Nat
  data : List Byte
  work : Bool
  snap : Bool

/-- A write to a factor region: the working region, and the snapshot copy on a snapshot step (R229, R233). -/
def Device.writeFactor (d : Device) (r : ShearReq) (p : FactorWrite) : Device :=
  let x := r.cmd.factor + p.off
  let d := if !p.work then d
    else if p.snap then (d.writeLocal r.fold x p.data []).noteWrite r x p.data.length
    else d.writeLocal r.fold x p.data []
  match r.snap with
  | some off => if p.snap then d.writeLocal r.fold (x + off) p.data [] else d
  | none => d

/-- The drive of a request stops at MEMORY_UNCORRECTABLE (R238). -/
def Device.shearPoison (d : Device) (r : ShearReq) : Device := d.stopDrive r.fold r.slot 0 0x1E r.pen r.addr

/-- An increment sent by way of the hub: a control flit to a pen tally, at once to a global one (R206). -/
def Device.hubAdd (d : Device) (f id inc : Nat) : Device :=
  if inc = 0 then d else
  match d.tallyAt f id with
  | some (.pen _ _) => d.inject hubStop (.tallyAdd f id inc)
  | some (.global _) => d.tallyAdd f id inc
  | none => d

/-! ## Element rules (R220, R221) -/

/-- Element rule #0 or #1 on one element: gradient, w, m, v to new w, m, v. -/
def Shear.element (c : Shear) (grad w m v : W32) : W32 × W32 × W32 :=
  let i := c.imm
  let g := fmul grad (i 3)
  if c.rule = 0 then
    let m := ffma (i 1) m g
    let u := ffma (i 4) g (fmul (i 5) m)
    (ffma (fneg (i 0)) u (fmul (i 2) w), m, v)
  else
    let m := ffma (i 1) m (fmul (fsub one32 (i 1)) g)
    let v := ffma (i 5) v (fmul (fsub one32 (i 5)) (fmul g g))
    let q := fadd (fsqrt (fmul v (i 6))) (i 4)
    (ffma (fneg (i 0)) (fdiv m q) (fmul (i 2) w), m, v)

/-- A block's w, m and v by an element rule. -/
def Shear.blockRule (c : Shear) (grad : List W32) (b : StateBlock) : StateBlock :=
  let rs := (grad.zip (b.w.zip (b.m.zip b.v))).map fun x => c.element x.1 x.2.1 x.2.2.1 x.2.2.2
  { b with w := rs.map (·.1), m := rs.map (·.2.1), v := rs.map (·.2.2) }

/-- New copy regions of a run of blocks from index b on: one record per block, or per pair (R214 to R216). -/
def Shear.copies (c : Shear) (key ctr b : Nat) : List StateBlock → List StateBlock
  | [] => []
  | x :: rest =>
    if !c.copyWord.en then x :: rest
    else if c.copyWord.pair then
      match rest with
      | y :: _ => { x with copy := c.record key ctr b x.w y.w } :: rest.map fun z => { z with copy := [] }
      | [] => [x]
    else { x with copy := c.record key ctr b x.w [] } :: Shear.copies c key ctr (b + 1) rest

/-! ## Matrices (R211, R226, R227) -/

/-- Rows of a matrix. -/
abbrev Mat := List (List W32)

/-- Transpose of a matrix with n columns. -/
def matT (n : Nat) (m : Mat) : Mat :=
  let rows := (m.map (·.toArray)).toArray
  (List.range n).map fun j => rows.toList.map fun r => r.getD j 0#32
/-- A chain of fused multiply-adds (R226). -/
def chain (start : W32) (xs ys : List W32) : W32 := (xs.zip ys).foldl (fun acc p => ffma p.1 p.2 acc) start
/-- The product of rows and columns, each chain from +0. -/
def matMul (rows cols : Mat) : Mat := rows.map fun r => cols.map fun c => chain 0#32 r c
/-- The product with each chain from a start value. -/
def matMulFrom (start rows cols : Mat) : Mat :=
  (start.zip rows).map fun p => (p.1.zip cols).map fun q => chain q.1 p.2 q.2
/-- A map over entries. -/
def matMap (f : W32 → W32) (m : Mat) : Mat := m.map fun r => r.map f
/-- A map over two matrices. -/
def matMap2 (f : W32 → W32 → W32) (a b : Mat) : Mat := a.zipWith (fun r s => r.zipWith f s) b

/-- The rows x cols matrix held by blocks' lists of elements (R211). -/
def matOf (rows cols : Nat) (bs : List (List W32)) : Mat :=
  let a := (bs.map (·.toArray)).toArray
  (List.range rows).map fun i => (List.range cols).map fun j =>
    (a.getD (i / 32 * (cols / 64) + j / 64) #[]).getD (i % 32 * 64 + j % 64) 0#32
/-- Blocks' elements of a matrix (R211). -/
def blocksOf (rows cols : Nat) (m : Mat) : List (List W32) :=
  let a := (m.map (·.toArray)).toArray
  (List.range (rows / 32 * (cols / 64))).map fun b => (List.range 2048).map fun e =>
    (a.getD (b / (cols / 64) * 32 + e / 64) #[]).getD (b % (cols / 64) * 64 + e % 64) 0#32

/-- Sum of squares in 64 lanes, combined by the pairwise tree (R227). -/
def sumSquares (xs : List W32) : W32 :=
  treeFold fadd 6 ((chunks 64 (xs.length / 64 + 1) xs).foldl
    (fun acc r => acc.zipWith (fun a x => ffma x x a) (r ++ List.replicate (64 - r.length) 0#32))
    (List.replicate 64 0#32))

/-! ## Rule #2 (R228) -/

/-- One Newton-Schulz iteration: x' with the a and a2 it used. -/
def schulz (wide : Bool) (cols : Nat) (x : Mat) : Mat × Mat × Mat :=
  let xt := matT cols x
  let a := if wide then matMul x x else matMul xt xt
  let a2 := matMul a (matT a.length a)
  let a := matMap2 (fun s t => ffma 0x3EC00000#32 s (fmul 0xBFA00000#32 t)) a2 a
  let start := matMap (fmul 0x3FF00000#32) x
  let x' := if wide then matMulFrom start a xt else matMulFrom start x (matT a.length a)
  (x', a, a2)

/-- Iteration n times. -/
def schulzGo (wide : Bool) (cols : Nat) : Nat → Mat × Mat × Mat → Mat × Mat × Mat
  | 0, s => s
  | n + 1, s => schulzGo wide cols n (schulz wide cols s.1)

/-- Result of a matrix rule: new w and m, and writes to the factor region. -/
structure MatOut where
  w : Mat
  m : Mat
  writes : List FactorWrite

/-- Rule #2: orthogonalised momentum. -/
def Shear.rule2 (c : Shear) (grad w m : Mat) : MatOut :=
  let i := c.imm
  let g := matMap (fmul · (i 3)) grad
  let m := matMap2 (fun g m => ffma (i 1) m g) g m
  let x := matMap2 (fun g m => ffma (i 5) g (fmul (i 6) m)) g m
  let k := fdiv one32 (fadd (fsqrt (sumSquares x.flatten)) (i 4))
  let x := matMap (fmul · k) x
  let wide : Bool := c.rows ≤ c.cols
  let (x, a, a2) := schulzGo wide c.cols 5 (x, [], [])
  let n := c.rows * c.cols
  let mm := min c.rows c.cols
  let bytes (m : Mat) : List Byte := bytesOfWords m.flatten
  { w := matMap2 (fun x w => ffma (fneg (i 0)) x (fmul (i 2) w)) x w
    m := m
    writes := [⟨0, bytes x, true, false⟩, ⟨4 * n, bytes x, true, false⟩, ⟨8 * n, bytes a, true, false⟩,
      ⟨8 * n + 4 * mm * mm, bytes a2, true, false⟩] }

/-! ## Rule #3 (R229 to R232) -/

/-- Columns of the Cholesky factor, one per step: `rows` holds each row's entries so far; the failing pivot's
index and value otherwise (R230). -/
def choleskyGo (tau : W32) (s : Mat) : Nat → Nat → Mat → Option (Nat × W32)
  | 0, _, _ => none
  | n + 1, j, rows =>
    let sj := s.getD j []
    let rj := rows.getD j []
    let d := rj.foldl (fun acc x => ffma (fneg x) x acc) (sj.getD j 0#32)
    if !fle tau d then some (j, d) else
    let root := fsqrt d
    let rows := (rows.zip s).zipIdx.map fun p =>
      let i := p.2
      if i < j then p.1.1 ++ [0#32]
      else if i = j then p.1.1 ++ [root]
      else
        let e := (p.1.1.zip rj).foldl (fun acc x => ffma (fneg x.1) x.2 acc) (p.1.2.getD j 0#32)
        p.1.1 ++ [fdiv e root]
    choleskyGo tau s n (j + 1) rows

/-- A statistic with the damping on its diagonal. -/
def damped (s : Mat) (lam : W32) : Mat :=
  s.zipIdx.map fun p => p.1.zipIdx.map fun q => if q.2 = p.2 then fadd q.1 lam else q.1

/-- One step of the coupled Newton iteration (R231). -/
def newtonStep (n : Nat) (s : Mat × Mat) : Mat × Mat :=
  let (mt, x) := s
  let z := mt.zipIdx.map fun p => p.1.zipIdx.map fun q =>
    fmul 0x3E800000#32 (fsub (if q.2 = p.2 then 0x40A00000#32 else 0#32) q.1)
  let zt := matT n z
  let z2 := matMul z zt
  let inner := matMul z2 (matT n mt)
  (matMul z2 (matT n inner), matMul x zt)

/-- Twenty steps. -/
def newtonGo (n : Nat) : Nat → Mat × Mat → Mat × Mat
  | 0, s => s
  | k + 1, s => newtonGo n k (newtonStep n s)

/-- The coupled Newton iteration (R231). -/
def newton (s : Mat) : Mat :=
  let n := s.length
  let c := s.zipIdx.foldl (fun acc p => fadd acc (p.1.getD p.2 0#32)) 0#32
  let d := frsqrt (fsqrt c)
  let inv := fdiv one32 c
  (newtonGo n 20 (matMap (fmul · inv) s,
    (List.range n).map fun i => (List.range n).map fun j => if i = j then d else 0#32)).2

/-- An inverse root: the root or the failing pivot, with the last damping and the multiplications by 10. -/
structure RootOut where
  root : Option Mat
  pivot : Nat × W32
  lam  : W32
  mults : Nat

/-- Attempts at an inverse root (R230). -/
def rootGo (tau : W32) (s : Mat) : Nat → Nat → W32 → RootOut
  | 0, mults, lam => ⟨none, (0, 0#32), lam, mults⟩
  | n + 1, mults, lam =>
    match choleskyGo tau (damped s lam) s.length 0 (s.map fun _ => []) with
    | none => ⟨some (newton (damped s lam)), (0, 0#32), lam, mults⟩
    | some p => if n = 0 then ⟨none, p, lam, mults⟩ else rootGo tau s n (mults + 1) (fmul 0x41200000#32 lam)

/-- What rule #3 leaves beside the matrices: multiplications of the damping and, after a failure, factor,
damping and pivot. -/
structure RootNote where
  mults : Nat
  fail  : Option (Nat × W32 × Nat × W32)

/-- Rule #3: l and r statistics, pl and pr roots. -/
def Shear.rule3 (c : Shear) (grad w m l r pl pr : Mat) : MatOut × RootNote :=
  let i := c.imm
  let cw := c.copyWord
  let g := matMap (fmul · (i 3)) grad
  let gt := matT c.cols g
  let b := fsub one32 (i 4)
  let l := if cw.stat then matMulFrom (matMap (fmul (i 4)) l) (matMap (fmul b) g) g else l
  let r := if cw.stat then matMulFrom (matMap (fmul (i 4)) r) (matMap (fmul b) gt) gt else r
  let ro (on : Bool) (s : Mat) : Option RootOut := if on then some (rootGo (i 6) s 5 0 (i 5)) else none
  let left := ro (bit cw.root 0) l
  let leftBad : Bool := match left with | some o => o.root.isNone | none => false
  let right := if leftBad then none else ro (bit cw.root 1) r
  let rightBad : Bool := match right with | some o => o.root.isNone | none => false
  let ok := !leftBad && !rightBad
  let pick (o : Option RootOut) (old : Mat) : Mat := match o with | some o => o.root.getD old | none => old
  let pl := if ok then pick left pl else pl
  let pr := if ok then pick right pr else pr
  let m := matMap2 (fun g m => ffma (i 1) m g) g m
  let mid := matMul pl (matT c.cols m)
  let u := if ok then matMul mid (matT c.cols pr) else m
  let bytes (m : Mat) : List Byte := bytesOfWords m.flatten
  let rr := 4 * c.rows * c.rows
  let cc := 4 * c.cols * c.cols
  let n := max c.rows c.cols
  let count (o : Option RootOut) : Nat := match o with | some o => o.mults | none => 0
  let note (f : Nat) (o : Option RootOut) : Option (Nat × W32 × Nat × W32) :=
    o.map fun o => (f, o.lam, o.pivot.1, o.pivot.2)
  ({ w := matMap2 (fun u w => ffma (fneg (i 0)) u (fmul (i 2) w)) u w
     m := m
     writes := [⟨0, bytes l, cw.stat, true⟩, ⟨rr, bytes r, cw.stat, true⟩,
       ⟨rr + cc, bytes pl, ok && left.isSome, true⟩, ⟨2 * rr + cc, bytes pr, ok && right.isSome, true⟩] ++
       (if ok then [⟨2 * rr + 2 * cc + 20 * n * n, bytes mid, true, false⟩] else []) },
   ⟨count left + count right, if leftBad then note 1 left else if rightBad then note 2 right else none⟩)

/-! ## MEMORY_SHEARS_UPDATE (R218 to R238) -/

/-- Blocks of an elementwise request in order, or pairs of them; a block that needs an uncorrectable word stops
the drive before it is written (R212, R237). -/
def Device.shearBlocks (r : ShearReq) (step : Nat) : Nat → Device → Nat → Device × Bool
  | 0, d, _ => (d, true)
  | n + 1, d, b =>
    let c := r.cmd
    if c.count / 2048 ≤ b then (d, true) else
    let x := c.state + b * blockSize
    let d := (d.transferRead r.fold x (step * blockSize) []).transferRead r.fold (c.grad + b * 8192) (step * 8192) []
    if d.poisonLocal r.fold x (step * blockSize) ∨ d.poisonLocal r.fold (c.grad + b * 8192) (step * 8192) then
      (d.shearPoison r, false)
    else
      let bs := (List.range step).map fun i =>
        c.blockRule (wordsOfBytes (d.readLocal r.fold (c.grad + (b + i) * 8192) 8192)) (d.stateBlock r.fold (x + i * blockSize))
      let bs := c.copies r.key r.ctr b bs
      Device.shearBlocks r step n
        (bs.zipIdx.foldl (fun d p => d.writeState r (x + p.2 * blockSize) p.1.bytes) d) (b + step)

/-- A matrix at a local address, row-major. -/
def Device.matAt (d : Device) (f x rows cols : Nat) : Mat :=
  chunks cols rows (wordsOfBytes (d.readLocal f x (4 * rows * cols)))

/-- The four matrices of a rule #3 factor region: offset, bytes, and whether the command itself reads it: a
statistic it advances or takes the root of, a root that it does not recompute (R229). -/
def Shear.factorParts (c : Shear) : List (Nat × Nat × Bool) :=
  let w := c.copyWord
  let rr := 4 * c.rows * c.rows
  let cc := 4 * c.cols * c.cols
  [(0, rr, w.stat || bit w.root 0), (rr, cc, w.stat || bit w.root 1),
    (rr + cc, rr, !bit w.root 0), (2 * rr + cc, cc, !bit w.root 1)]

/-- A matrix request: everything is read, then everything is written. -/
def Device.shearMatrix (d : Device) (r : ShearReq) : Device × Bool :=
  let c := r.cmd
  let nb := c.count / 2048
  let rr := 4 * c.rows * c.rows
  let cc := 4 * c.cols * c.cols
  let parts := if c.rule = 3 then c.factorParts.filter fun p => p.2.2 || r.snap.isSome else []
  let d := parts.foldl (fun d p => d.transferRead r.fold (c.factor + p.1) p.2.1 [])
    ((d.transferRead r.fold c.state (nb * blockSize) []).transferRead r.fold c.grad (nb * 8192) [])
  let bad := d.poisonLocal r.fold c.state (nb * blockSize) || d.poisonLocal r.fold c.grad (nb * 8192) ||
    parts.any fun p => d.poisonLocal r.fold (c.factor + p.1) p.2.1
  if bad then (d.shearPoison r, false) else
  let old := (List.range nb).map fun b => d.stateBlock r.fold (c.state + b * blockSize)
  let grad := matOf c.rows c.cols ((List.range nb).map fun b => wordsOfBytes (d.readLocal r.fold (c.grad + b * 8192) 8192))
  let w := matOf c.rows c.cols (old.map (·.w))
  let m := matOf c.rows c.cols (old.map (·.m))
  let out : MatOut × RootNote :=
    if c.rule = 2 then (c.rule2 grad w m, ⟨0, none⟩)
    else c.rule3 grad w m (d.matAt r.fold c.factor c.rows c.rows) (d.matAt r.fold (c.factor + rr) c.cols c.cols)
      (d.matAt r.fold (c.factor + rr + cc) c.rows c.rows) (d.matAt r.fold (c.factor + 2 * rr + cc) c.cols c.cols)
  let d := out.1.writes.foldl (fun d p => d.writeFactor r p) d
  let n := max c.rows c.cols
  let d := if c.rule = 3 ∧ c.copyWord.root ≠ 0 then
      (d.writeLocal r.fold (c.factor + 2 * rr + 2 * cc) ((List.range (20 * n * n)).map (Config.undefinedByte d.free)) []).draw
    else d
  let bs := (old.zip ((blocksOf c.rows c.cols out.1.w).zip (blocksOf c.rows c.cols out.1.m))).map fun p =>
    { p.1 with w := p.2.1, m := p.2.2 }
  let bs := c.copies r.key r.ctr 0 bs
  let d := bs.zipIdx.foldl (fun d p => d.writeState r (c.state + p.2 * blockSize) p.1.bytes) d
  let d := d.onFold r.fold fun o => { o with damp := satAdd 32 o.damp out.2.mults }
  match out.2.fail with
  | none => (d, true)
  | some (f, lam, j, v) =>
    ((d.onFold r.fold fun o => { o with
        fbCount := satAdd 32 o.fbCount 1, fbValid := true, fbFactor := f, fbLayer := c.layer }).event .shearFallback
      [r.fold, c.layer, f, r.step, lam.toNat, j, v.toNat], true)

/-- MEMORY_SHEARS_UPDATE: memory shears u runs its oldest request, which then adds its done increment and with which its
drive may end, whichever drive runs (R166, R206, R218, R236). -/
def Device.doMemShears (d : Device) (u : Nat) : Device :=
  match d.shears.mem.getD u [] with
  | [] => d
  | r :: rest =>
    let d := { d with shears := { d.shears with mem := d.shears.mem.set u rest } }
    let (d, done) :=
      if r.cmd.rule = 0 ∨ r.cmd.rule = 1 then
        Device.shearBlocks r (if r.cmd.copyWord.pair ∧ r.cmd.copyWord.en then 2 else 1) (r.cmd.count / 2048) d 0
      else d.shearMatrix r
    if done then (d.hubAdd r.fold r.done r.inc).endCheck r.fold else d
/-- MEMORY_SHEARS_UPDATE. -/
def execMemoryShearsUpdate (u : Nat) (s : State) : Host.Outcome State Fault Refusal := s.act (·.doMemShears u)

end Sys2Proof.Machine
end

