-- ==== Sys2Proof/Machine/Collect.lean ====
section
/-!
DEFINITION. The collective engine and the link shears: plan runs, the canonical tree, gathers, broadcasts,
multicast and laggards (07, R222 to R225; 11, R334 to R346).
-/
namespace Sys2Proof.Machine

/-! ## The canonical tree (R334, R335) -/

/-- Largest power of two below n, for n at least 2. -/
def halfOf (n : Nat) : Nat := 2 ^ Nat.log2 (n - 1)

/-- Parent of a node of tree(lo, n): the parent's lo and n, by descent. -/
def parentGo (lo n : Nat) : Nat → Nat → Nat → Option (Nat × Nat)
  | 0, _, _ => none
  | k + 1, plo, pn =>
    if pn ≤ 1 then none else
    let h := halfOf pn
    if (lo = plo ∧ n = h) ∨ (lo = plo + h ∧ n = pn - h) then some (plo, pn)
    else if lo < plo + h then parentGo lo n k plo h
    else parentGo lo n k (plo + h) (pn - h)

/-- FP32 addition of two runs of bytes, element by element (R334). -/
def addBytes (a b : List Byte) : List Byte := bytesOfWords ((wordsOfBytes a).zipWith fadd (wordsOfBytes b))

/-- A partial joined with its sibling as long as one is held: the partials left. -/
def joinGo (leaves : Nat) : Nat → List Partial → Partial → List Partial
  | 0, ps, p => ps ++ [p]
  | k + 1, ps, p =>
    match parentGo p.lo p.n 8 0 leaves with
    | none => ps ++ [p]
    | some (lo, n) =>
      let h := halfOf n
      let sib : Nat × Nat := if p.lo = lo then (lo + h, n - h) else (lo, h)
      match ps.find? fun q => q.off = p.off ∧ q.lo = sib.1 ∧ q.n = sib.2 with
      | none => ps ++ [p]
      | some q =>
        let sum := if p.lo = lo then addBytes p.data q.data else addBytes q.data p.data
        joinGo leaves k (ps.erase q) ⟨lo, n, p.off, sum⟩

/-! ## Plan runs -/

/-- The running plan by number: its VC3 slot and the run. -/
def Device.runOf (d : Device) (plan : Nat) : Option (Nat × RunC) := d.coll.slots.find? fun x => x.2.coll.plan = plan

/-- The entry of a plan. -/
def Device.planOf (d : Device) (plan : Nat) : Option PlanE := slook d.coll.plans plan

/-- Change of a run. -/
def Device.onRun (d : Device) (slot : Nat) (g : RunC → RunC) : Device :=
  match slook d.coll.slots slot with
  | some r => { d with coll := { d.coll with slots := sput d.coll.slots slot (g r) } }
  | none => d

/-- A run with nothing left to write and nothing held ends and frees its slot (R340). -/
def Device.endRun (d : Device) (slot : Nat) : Device :=
  match slook d.coll.slots slot with
  | some r =>
    if r.due = 0 ∧ r.partials = [] ∧ r.blocks = [] then
      { d with coll := { d.coll with
        slots := sdel d.coll.slots slot, ended := sput d.coll.ended r.coll.plan (sget 0 d.coll.ended r.coll.plan + 1) } }
    else d
  | none => d

/-- Shard s (0 for a broadcast) is written here: the plan's tally, once for a shard (R337, R345). -/
def Device.shardDone (d : Device) (slot f s : Nat) (p : PlanE) : Device :=
  if ((slook d.coll.slots slot).map (·.counted.contains s)).getD false then d else
  ((d.tallyAdd f p.tally p.inc).onRun slot fun r => { r with due := r.due - 1, counted := s :: r.counted }).endRun slot

/-- Egresses on which a multicast packet leaves: the tree's ports but the one it came by (R342, R343). -/
def GroupE.outs (e : GroupE) (fromPort : Option Nat) : List Nat :=
  let all := e.egress ++ (if e.ingress < 6 then [e.ingress] else [])
  match fromPort with
  | some k => if k = e.ingress then e.egress else all.filter (· ≠ k)
  | none => all

/-- Bytes of a plan sent to every other active device: one copy per link with a group, one per member without
(R342). `last` marks the end of a shard or of the broadcast. -/
def Device.spread (d : Device) (slot plan leaf : Nat) (p : PlanE) (off : Nat) (bs : List Byte) (last : Bool) : Device :=
  let mark (q : Packet) : Packet := if last then { q with tally := p.tally, inc := 1 } else q
  match p.group.bind fun g => (slook d.coll.groups g).map (g, ·) with
  | some (g, e) =>
    let parts := chunks 4096 ((bs.length + 4095) / 4096) bs
    parts.zipIdx.foldl (fun d x =>
      (e.outs none).foldl (fun d k =>
        let q : Packet := { d.packetTo d.flock.rank 3 8 with
          group := some g, slot := slot, plan := plan, leaf := leaf, data := x.1, offset := off + 4096 * x.2
          cls := d.classOut none 0 k }
        d.sendOn k (if x.2 + 1 = parts.length then mark q else q)) d) d
  | none =>
    (d.activeRanks.filter (· ≠ d.flock.rank)).foldl (fun d r =>
      d.sendData { d.packetTo r 3 7 with slot := slot, plan := plan, leaf := leaf } off bs mark) d

/-! ## Reduced chunks (R223, R337, R338) -/

/-- Two halves of a state block's gradient that are both reduced go to the link shears (R223). -/
def RunC.takeBlocks (r : RunC) (leaves first : Nat) (b : Nat) : RunC :=
  match r.partials.find? (fun q => q.n = leaves ∧ q.off = b * 8192), r.partials.find? (fun q => q.n = leaves ∧ q.off = b * 8192 + 4096) with
  | some x, some y => { r with
      partials := (r.partials.erase x).erase y, blocks := r.blocks ++ [(b - first, x.data ++ y.data)] }
  | _, _ => r

/-- A chunk of an own shard has its root value. -/
def Device.rootChunk (d : Device) (slot : Nat) (p : PlanE) (c : Partial) : Device :=
  match slook d.coll.slots slot with
  | none => d
  | some r =>
    let f := r.coll.fold
    let size := d.shardSize p
    let s := c.off / size
    if p.shears then
      d.onRun slot fun r => ({ r with partials := r.partials ++ [c] }).takeBlocks d.leafCount (d.leaf0 * size / 8192) (c.off / 8192)
    else
      let have_ := sget 0 r.got s + c.data.length
      let d := d.onRun slot fun r => { r with got := sset 0 r.got s have_ }
      let whole := decide (size ≤ have_)
      if p.op = 1 then
        let d := d.writeLocal f (p.out + (c.off - d.leaf0 * size)) c.data []
        if whole then d.shardDone slot f s p else d
      else
        let d := d.writeLocal f (p.out + c.off) c.data []
        let d := d.spread slot r.coll.plan s p c.off c.data whole
        if whole then d.shardDone slot f s p else d

/-- A partial for an own shard joins the tree (R335). -/
def Device.addPartial (d : Device) (slot : Nat) (p : PlanE) (x : Partial) : Device :=
  match slook d.coll.slots slot with
  | none => d
  | some r =>
    let leaves := d.leafCount
    let same := r.partials.filter fun q => q.off = x.off ∧ q.n ≠ leaves
    let rest := r.partials.filter fun q => !(q.off = x.off ∧ q.n ≠ leaves)
    let joined := joinGo leaves 8 same x
    let d := d.onRun slot fun r => { r with partials := rest ++ joined.filter (·.n ≠ leaves) }
    (joined.filter (·.n = leaves)).foldl (fun d c => d.rootChunk slot p c) d

/-! ## COLLECTIVE_START (R335 to R340) -/

/-- Local partials of a chunk: every node whose leaves this device hosts entirely (R335). -/
def Device.localPartials (d : Device) (c : Coll) (p : PlanE) (off len : Nat) : List Partial :=
  d.leavesHosted.zipIdx.foldl (fun ps x =>
    joinGo d.leafCount 8 ps ⟨x.1, 1, off, d.readLocal c.fold (c.buf + x.2 * p.size + off) len⟩) []

/-- Shards this device must see written, or the broadcast. -/
def Device.dueOf (d : Device) (p : PlanE) : Nat :=
  if p.op = 3 then 1 else if p.op = 1 ∧ !p.shears then d.leavesHosted.length else d.leafCount

/-- The partials of every shard: kept where the shard's leaf is hosted here, sent to its host otherwise. -/
def Device.startReduce (d : Device) (slot : Nat) (c : Coll) (p : PlanE) : Device :=
  let size := d.shardSize p
  (List.range d.leafCount).foldl (fun d s =>
    (List.range ((size + 4095) / 4096)).foldl (fun d j =>
      let off := s * size + 4096 * j
      let len := min 4096 (size - 4096 * j)
      (d.localPartials c p off len).foldl (fun d x =>
        if d.hostOf s = d.flock.rank then d.addPartial slot p x
        else d.sendTo { d.packetTo (d.hostOf s) 3 6 with
          slot := slot, plan := c.plan, leaf := x.lo, node := x.n, offset := off, data := x.data }) d) d) d

/-- COLLECTIVE_START: the oldest accepted COLLECT starts in the lowest free plan slot; its done tally follows
when its buffer has been read (R207). -/
def Device.doCollStart (d : Device) (errs : List (Nat × Ecc)) : Device :=
  match d.coll.queue, [0, 1, 2, 3].find? fun i => (slook d.coll.slots i).isNone with
  | c :: rest, some slot =>
    match d.planOf c.plan with
    | none => d
    | some p =>
      let d := d.transferRead c.fold c.buf c.bytes errs
      let bad := d.poisonWords c.fold c.buf c.bytes
      if bad ≠ [] then
        ({ d with coll := { d.coll with queue := rest } }).stopDrive c.fold c.slot 0
          (if bad.any (·.2 = 1) then 0x1E else 0x12) c.pen c.addr
      else
      let d := { d with coll := { d.coll with
        queue := rest, slots := sput d.coll.slots slot ⟨c, [], d.dueOf p, [], [], [], []⟩ } }
      let size := d.shardSize p
      let d :=
        if p.op ≤ 1 then d.startReduce slot c p
        else if p.op = 2 then
          d.leavesHosted.zipIdx.foldl (fun d x =>
            let bs := d.readLocal c.fold (c.buf + x.2 * size) size
            let d := d.writeLocal c.fold (p.out + x.1 * size) bs []
            (d.spread slot c.plan x.1 p (x.1 * size) bs true).shardDone slot c.fold x.1 p) d
        else if d.leavesHosted.contains p.root then
          let bs := d.readLocal c.fold c.buf p.size
          let d := d.writeLocal c.fold p.out bs []
          (d.spread slot c.plan p.root p 0 bs true).shardDone slot c.fold 0 p
        else d
      (d.hubAdd c.fold c.done c.inc).endCheck c.fold
  | _, _ => d
/-- COLLECTIVE_START. -/
def execCollectiveStart (errs : List (Nat × Ecc)) (s : State) : Host.Outcome State Fault Refusal :=
  s.act (·.doCollStart errs)

/-! ## Collective packets (R335, R337, R343 to R346) -/

/-- The credits of a packet are withheld while a final gradient block of its plan has no request (R224). -/
def Device.withhold (d : Device) (slot k : Nat) (p : Packet) : Device :=
  match slook d.coll.slots slot with
  | some r =>
    if d.unmatched r then
      (d.onLink k fun l => { l with owed := l.owed.modify p.pool (· - p.slots) }).onRun slot fun r =>
        { r with held := r.held ++ [(k, p.pool, p.slots)] }
    else d
  | none => d

/-- REDUCE_DATA: a partial for a shard of this device. -/
def Device.doReduce (d : Device) (k : Nat) (p : Packet) : Device :=
  match d.runOf p.plan, d.planOf p.plan with
  | some (slot, _), some e =>
    if d.hostOf (p.offset / d.shardSize e) ≠ d.flock.rank then d else
    d.deliver k p fun d => ((d.addPartial slot e ⟨p.leaf, p.node, p.offset, p.data⟩).withhold slot k p).endRun slot
  | _, _ => d
/-- REDUCE_DATA. -/
def execReduceData (k : Nat) (p : Packet) (s : State) : Host.Outcome State Fault Refusal := s.act (·.doReduce k p)

/-- The shard that a stream offset of a plan lies in; a broadcast is one. -/
def Device.shardAt (d : Device) (e : PlanE) (off : Nat) : Nat := if e.op = 3 then 0 else off / d.shardSize e

/-- Bytes of a gather, a broadcast or a repair written to the result area; the last packet counts the shard. -/
def Device.landGather (d : Device) (slot f : Nat) (e : PlanE) (p : Packet) : Device :=
  let d := d.writeLocal f (e.out + p.offset) p.data []
  if p.inc ≠ 0 then d.shardDone slot f (d.shardAt e p.offset) e else d

/-- GATHER_DATA: a shard's bytes land in the result area (R337, R338). -/
def Device.doGather (d : Device) (k : Nat) (p : Packet) : Device :=
  match d.runOf p.plan, d.planOf p.plan with
  | some (slot, r), some e => d.deliver k p fun d => d.landGather slot r.coll.fold e p
  | _, _ => d
/-- GATHER_DATA. -/
def execGatherData (k : Nat) (p : Packet) (s : State) : Host.Outcome State Fault Refusal := s.act (·.doGather k p)

/-- The laggard state of a group. -/
def Device.lagOf (d : Device) (g : Nat) : Option Lag := d.coll.lags.find? (·.group = g)
/-- Change of a group's laggard state. -/
def Device.setLag (d : Device) (g : Nat) (l : Option Lag) : Device :=
  { d with coll := { d.coll with lags := d.coll.lags.filter (·.group ≠ g) ++ l.toList } }
/-- LAGGARD.limit in ticks: 0 acts as 1. -/
def Device.laggardLimit (d : Device) : Nat := max 1 (bits d.flock.laggard 23 0)

/-- A member without room for a packet holds the stream back and times the hold with a comparator of class 5;
without one the group waits without a limit (R344). -/
def Device.holdBack (d : Device) (g k : Nat) (p : Packet) : Device :=
  match d.lagOf g with
  | some _ => d
  | none =>
    let v := d.now + d.laggardLimit
    match d.watch.join v 5 0 (.laggard g) with
    | some w => ({ d with watch := w }).setLag g (some ⟨g, p.plan, p.offset, k, p, false, 0, false⟩)
    | none => d.event .watchNoneFree [g, v]

/-- A hold that local delivery alone had made ends: its comparator is given back (R344). -/
def Device.stopHold (d : Device) (g : Nat) : Device :=
  match d.lagOf g with
  | some l => if l.det then d else
    ({ d with watch := d.watch.release (fun u => decide (u = CmpUser.laggard g)) }).setLag g none
  | none => d

/-- Whether every egress of a group's entry may take a packet that came by a port (R343). -/
def Device.egressReady (d : Device) (e : GroupE) (k : Nat) (p : Packet) : Bool :=
  (e.outs (some k)).all fun o => (d.link o).maySend { p with cls := d.classOut (some k) p.cls o }

/-- MULTICAST_DATA: delivered locally and forwarded on the group's ports, only while every egress holds credits
and local delivery has room, which takes that the device runs the plan (R343); a detached member forwards alone
(R344). A packet whose tag fails goes on marked for discard, and its link is taken down (R322, R323). -/
def Device.doMulticast (d : Device) (k : Nat) (p : Packet) (room : Bool) : Device :=
  match p.group.bind fun g => (slook d.coll.groups g).map (g, ·) with
  | none => d
  | some (g, e) =>
    if !(d.link k).receives then d else
    let marked := bit p.status 7
    let fail := !marked && !p.tagOk
    let run := match d.runOf p.plan, d.planOf p.plan with | some (slot, r), some pe => some (slot, r, pe) | _, _ => none
    let gone : Bool := match d.lagOf g with | some l => l.det | none => false
    let here := e.deliver && !gone && !marked && !fail
    if !d.egressReady e k p then d.stopHold g
    else if here ∧ (run.isNone ∨ !room) then d.holdBack g k p
    else
      let q : Packet := { p with tagOk := p.tagOk && !marked, status := if fail then p.status % 128 + 128 else p.status }
      let d := (e.outs (some k)).foldl (fun d o => d.transmit o { q with cls := d.classOut (some k) p.cls o }) (d.owe k p)
      if fail then d.tagFailed k
      else if !here then d else
      match run with
      | some (slot, r, pe) => (d.stopHold g).landGather slot r.coll.fold pe p
      | none => d
/-- MULTICAST_DATA. -/
def execMulticastData (k : Nat) (p : Packet) (room : Bool) (s : State) : Host.Outcome State Fault Refusal :=
  s.act (·.doMulticast k p room)

/-- The comparator of a held-back group fires: the member detaches, unless an egress lacks credits now (R344). -/
def Device.detach (d : Device) (g : Nat) : Device :=
  match d.lagOf g, slook d.coll.groups g with
  | some l, some e =>
    if l.det then d
    else if !d.egressReady e l.k l.held then d.stopHold g
    else (d.setLag g (some { l with det := true, since := d.watch.age })).event .laggard [g, l.off]
  | _, _ => d

/-- What a detached member misses of a plan run, by stream offset: the rest of a broadcast, or the shards not yet whole
here (R345). -/
def Device.missing (d : Device) (e : PlanE) (r : RunC) (off : Nat) : List Nat :=
  if e.op = 3 then [off] else ((List.range d.leafCount).filter fun s => !r.counted.contains s).map (· * d.shardSize e)

/-- REPAIR_REQUEST: a detached member with room again asks its foster for the missing range, or the group's
source where its foster is no member (R345); the request names the run of the plan (log entry 130). -/
def Device.doRepairRequest (d : Device) (g : Nat) : Device :=
  match d.lagOf g with
  | some l =>
    if !l.det ∨ l.asked then d else
    match d.runOf l.plan, d.planOf l.plan, slook d.coll.groups g with
    | some (slot, r), some e, some ge =>
      let server := match d.flock.foster with | some r => if bit ge.mask r then r else ge.src | none => ge.src
      (d.missing e r l.off).foldl (fun d o => d.sendTo { d.packetTo server 3 10 with
        slot := slot, plan := l.plan, group := some g, offset := o, tally := sget 0 d.coll.ended l.plan + 1 })
        (d.setLag g (some { l with asked := true }))
    | _, _, _ => d
  | none => d
/-- REPAIR_REQUEST. -/
def execRepairRequest (g : Nat) (s : State) : Host.Outcome State Fault Refusal := s.act (·.doRepairRequest g)

/-- The bytes of a repair from a stream offset to the end of its shard, or of the broadcast: the last packet counts it
(R345). -/
def Device.sendRepair (d : Device) (e : PlanE) (q : Packet) (off : Nat) : Device :=
  if e.size ≤ off then d else
  let ends := if e.op = 3 then e.size else min e.size ((off / d.shardSize e + 1) * d.shardSize e)
  d.sendData q off (d.readLocal 0 (e.out + off) (ends - off)) fun q => { q with tally := e.tally, inc := 1 }

/-- REPAIR: a packet with data delivers part of the missing range, and the detachment ends with the run; one without data asks
this device for the range, which it sends from its delivered copy once its own run has ended; a
device that is itself detached passes the request to the group's source (R345). -/
def Device.doRepair (d : Device) (k : Nat) (p : Packet) : Device :=
  match d.planOf p.plan with
  | none => d
  | some e =>
    if p.data = [] then
      let det : Bool := match p.group.bind d.lagOf with | some l => l.det | none => false
      let src := (p.group.bind fun g => (slook d.coll.groups g).map (·.src)).getD d.flock.rank
      if det ∧ src ≠ d.flock.rank then
        d.deliver k p fun d => d.sendTo { p with dst := src, addr := src * 2 ^ 46, tagOk := true }
      else if sget 0 d.coll.ended p.plan < p.tally then d
      else d.deliver k p fun d =>
        d.sendRepair e { d.packetTo p.src 3 10 with slot := p.slot, plan := p.plan, group := p.group } p.offset
    else
      match d.runOf p.plan with
      | none => d
      | some (slot, r) =>
        d.deliver k p fun d =>
          let d := d.landGather slot r.coll.fold e p
          match p.group with
          | some g => if (d.runOf p.plan).isNone then d.setLag g none else d
          | none => d
/-- REPAIR. -/
def execRepair (k : Nat) (p : Packet) (s : State) : Host.Outcome State Fault Refusal := s.act (·.doRepair k p)

/-- LAGGARD_FAIL: a repair not done 10 ms after detachment declares the member failed (R346, R379). -/
def Device.doLaggardFail (d : Device) (g : Nat) : Device :=
  match d.lagOf g with
  | some l =>
    if !l.det ∨ d.watch.age < l.since + 1000000 then d else ((d.setLag g none).event .laggardFail [g]).declareFailed
  | none => d
/-- LAGGARD_FAIL. -/
def execLaggardFail (g : Nat) (s : State) : Host.Outcome State Fault Refusal := s.act (·.doLaggardFail g)

/-! ## LINK_SHEARS_BLOCK_UPDATE (R222 to R225) -/

/-- Bytes of a block's copy record in the copy format; an odd block of a pair has none (R214, R216). -/
def Shear.recordBytes (c : Shear) (b : Nat) : Nat :=
  let w := c.copyWord
  match Fmt.ofCode w.fmt with
  | none => 0
  | some f =>
    if w.pair then (if b % 2 = 1 then 0 else 2048 + (if w.scl then 128 else 0))
    else elemBytes f 2048 + (if w.scl then 64 else 0)

/-- Whether a step is a foster step (R370). -/
def Device.fosterStep (d : Device) (k : Nat) : Bool :=
  let e := bits d.recov.cfg 7 0
  e ≠ 0 && k % e = 0

/-- A block's record handed to the all-gather of the plan: written at out and sent to every active device, at
the offset of the block's gradient (R223, R338). -/
def Device.handRecord (d : Device) (slot f plan : Nat) (p : PlanE) (b : Nat) (bs : List Byte) (last : Bool) : Device :=
  let d := d.writeLocal f (p.out + b * 8192) bs []
  d.spread slot plan (b * 8192 / d.shardSize p) p (b * 8192) bs last

/-- The closed foster step whose foster end is not sent yet (R370). -/
def Device.endOwed (d : Device) (v : Drive) : Option Nat :=
  match v.closed with
  | some k => if d.fosterStep k && decide (d.recov.fosterEnded ≠ some k) then some k else none
  | none => none

/-- New moments of a block for the foster (R339, R370): w, m and v in packets that ride with the plan where the foster
receives the block's copy record in its all-gather, that is an active device; the page whole where no packet of the plan is
bound there. -/
def Device.handFoster (d : Device) (slot plan : Nat) (r : ShearReq) (p : PlanE) (b x : Nat) : Device :=
  match d.flock.foster, d.drive r.fold r.slot with
  | some t, some v =>
    if !p.foster ∨ (d.endOwed v).isSome ∨ !r.cmd.snap ∨ !d.fosterStep r.step ∨ x < v.xbase ∨ v.xbase + v.xsize < x + blockSize then d else
    let page := (x - v.xbase) / 32768
    let d := if d.activeRanks.contains t ∧ r.cmd.copyWord.en then
        d.sendData { d.packetTo t 3 9 with slot := slot, plan := plan, node := 1, addr := t * 2 ^ 46 + b * 8192, tally := r.cmd.recordBytes b }
          (x - v.xbase) (d.readLocal r.fold x 0x6000) id
      else
        let n := v.xsize / 32768
        d.sendData { d.packetTo t 3 9 with
          slot := slot, plan := plan, addr := t * 2 ^ 46 + v.xbase % 2 ^ 46, tally := n % 2 ^ 17, inc := n / 2 ^ 17 }
          (x - v.xbase) (d.readLocal r.fold x blockSize) id
    let d := { d with recov := { d.recov with fosterSent := nins d.recov.fosterSent page } }
    d.onDrive r.fold r.slot fun v => { v with written := v.written.filter (· ≠ (r.step, page)) }
  | _, _ => d

/-- A block updated by class 1 shears written to its state, with its copies; the two blocks of a pair are written
together, once the second of them is updated (R216, R222, R223). -/
def Device.writeUpdated (d : Device) (r : ShearReq) (b0 j : Nat) (new : StateBlock) : Device :=
  let c := r.cmd
  let x := c.state + j * blockSize
  let mate := if j % 2 = 0 then j + 1 else j - 1
  if !(c.copyWord.pair && c.copyWord.en) then d.writeState r x ((c.copies r.key r.ctr (b0 + j) [new]).headD new).bytes
  else if !r.blocks.contains mate then d.writeState r x new.bytes
  else
    let other := d.stateBlock r.fold (c.state + mate * blockSize)
    (c.copies r.key r.ctr (b0 + min j mate) (if j < mate then [new, other] else [other, new])).zipIdx.foldl
      (fun d q => d.writeState r (c.state + (min j mate + q.2) * blockSize) q.1.bytes) d

/-- What an updated block i hands on: its copy record to the plan's all-gather, its moments to the foster's packets; the
last block of a shard counts the shard (R223, R339). -/
def Device.handBlock (d : Device) (slot plan : Nat) (r : ShearReq) (p : PlanE) (b0 i : Nat) (last : Bool) : Device :=
  let x := r.cmd.state + i * blockSize
  let d := if r.cmd.recordBytes i = 0 then d
    else d.handRecord slot r.fold plan p (b0 + i) (d.readLocal r.fold (x + 0x6000) (r.cmd.recordBytes i)) last
  let d := d.handFoster slot plan r p (b0 + i) x
  if last then d.shardDone slot r.fold (d.shardAt p ((b0 + i) * 8192)) p else d

/-- A class 1 request leaves the shears when all its blocks are updated, and its done tally counts (R222). -/
def Device.endLinkShear (d : Device) (r : ShearReq) (done : Nat) : Device :=
  if r.cmd.count / 2048 ≤ done then
    ({ d with shears := { d.shears with link := d.shears.link.filter fun q =>
      !(q.fold = r.fold ∧ q.slot = r.slot ∧ q.cmd = r.cmd ∧ q.addr = r.addr ∧ q.step = r.step) } }).hubAdd r.fold r.done r.inc |>.endCheck r.fold
  else d

/-- LINK_SHEARS_BLOCK_UPDATE: block j of a plan on this device, under the oldest class 1 request of the leaf in whose shard it
lies that names the plan: the shard's block j mod the blocks of a shard (R222). Without one the block waits (R224). -/
def Device.doLinkShears (d : Device) (k plan j : Nat) : Device :=
  match d.runOf plan, d.planOf plan with
  | some (slot, run), some p =>
    let per := max 1 (d.shardSize p / 8192)
    let leaf := d.leavesHosted.getD (j / per) 64
    match run.blocks.find? (·.1 = j), d.shears.link.find? fun q => q.cmd.plan = plan && q.leaf = leaf with
    | some (_, grad), some r =>
      let c := r.cmd
      let i := j % per
      let x := c.state + i * blockSize
      if 6 ≤ k then d
      else if c.count / 2048 ≤ i then d.stopDrive r.fold r.slot 0 0x03 r.pen r.addr
      else
      let d := d.transferRead r.fold x blockSize []
      if d.poisonLocal r.fold x blockSize then d.shearPoison r
      else
        let b0 := leaf * per
        let mate := if i % 2 = 0 then i + 1 else i - 1
        let new := c.blockRule (wordsOfBytes grad) (d.stateBlock r.fold x)
        let done := nins r.blocks i
        let ready : List Nat :=
          if !c.copyWord.pair then [i] else if r.blocks.contains mate then [min i mate, max i mate] else []
        let d := { d with shears := { d.shears with link := d.shears.link.map fun q =>
          if q = r then { q with blocks := done } else q } }
        let d := d.onRun slot fun q => { q with blocks := q.blocks.filter (·.1 ≠ j) }
        let d := d.writeUpdated r b0 i new
        let d := ready.foldl (fun d q => d.handBlock slot plan r p b0 q
          ((List.range per).all (fun q => done.contains q) && q = ready.headD q)) d
        (d.endLinkShear r done.length).endRun slot
    | _, _ => d
  | _, _ => d
/-- LINK_SHEARS_BLOCK_UPDATE. -/
def execLinkShearsBlockUpdate (k plan j : Nat) (s : State) : Host.Outcome State Fault Refusal :=
  s.act (·.doLinkShears k plan j)

end Sys2Proof.Machine
end

