-- ==== Sys2Proof/Machine/HostRing.lean ====
section
/-!
DEFINITION. Rings, doorbells and the descriptors that move data: ring setup, descriptor fetch, DMA, TALLY_ADD,
WAIT (13, R399 to R414, R425, R426).
-/
namespace Sys2Proof.Machine

/-! ## Ring registers (R403 to R405) -/

/-- Whether function fn sees ring n (R397, R403): PF0 sees every ring, a VF those its fold owns. -/
def Device.seesRing (d : Device) (fn n : Nat) : Bool := fn = 0 || (d.ring n).owner + 1 = fn

/-- CQ vectors that a ring may name: of the owner's function, or of the bellwether's PF0 (table RING_CFG). -/
def Device.vectors (d : Device) (owner : Nat) : Nat := if d.tunnelled ∨ owner = 8 then 512 else 64

/-- Rings of the same kind and owner, other than n, that are not disabled. -/
def Device.enabledOf (d : Device) (n owner : Nat) : Nat :=
  (d.rings.filter fun e => e.1 ≠ n ∧ (decide (e.1 < 512) = decide (n < 512)) ∧ e.2.owner = owner ∧ e.2.state ≠ 0).length

/-- Whether the function that serves an owner has a selective IDE stream of a User session; a tunnelled member
counts the bellwether's PF0 stream (R459). -/
def Device.ideOf (d : Device) (owner : Nat) : Bool :=
  if d.tunnelled then d.flock.bellIde else (d.fn (ownerFn owner)).ide

/-- Status that refuses the enabling of a disabled ring, 0 where it is enabled (R404, R459). -/
def Device.enableStatus (d : Device) (n owner link : Nat) : Nat :=
  let cq := d.ring (512 + link)
  if 64 ≤ d.enabledOf n owner then 0x05
  else if n < 512 ∧ (cq.state = 0 ∨ cq.owner ≠ owner) then 0x06
  else if owner < 8 ∧ !d.full then 0x02
  else if owner < 8 ∧ d.foldCount ≤ owner then 0x0A
  else if d.sec.approved ∧ !d.ideOf owner then 0x08
  else 0

/-- An SQ stops fetching: an entry asked for is not taken, and the completion entry reserved for it is free (R405, R409). -/
def Device.stopFetch (d : Device) (n : Nat) : Device :=
  if d.hport.fetching n then
    let c := 512 + (d.ring n).link
    (d.dropJobs fun j => decide (j = .fetch n)).setRing c { d.ring c with reserved := (d.ring c).reserved - 1 }
  else d

/-- One ring halts with a cause and an event. -/
def Device.haltOne (d : Device) (n cause : Nat) : Device :=
  let d := if n < 512 then d.stopFetch n else d
  (d.setRing n { d.ring n with state := 3, cause := cause }).event .ringHalted [n, cause]

/-- A ring halts with a cause and an event; SQs bound to a halting CQ halt with cause 3 (R407, R425; table
RING_STATE). -/
def Device.haltRing (d : Device) (n cause : Nat) : Device :=
  let d := d.haltOne n cause
  if n < 512 then d else
  ((d.rings.filter fun e => e.1 < 512 ∧ e.2.state = 1 ∧ 512 + e.2.link = n).map (·.1)).foldl (fun d m => d.haltOne m 3) d

/-- The enable bit of a disabled ring set: positions start at 0. -/
def Device.enableRing (d : Device) (n owner size link : Nat) : Device :=
  let d := d.setRing n { d.ring n with
    owner := owner, size := size, link := link, state := 1, cause := 0, pos := 0, host := 0, arm := false, reserved := 0, held := [] }
  if n < 512 ∧ (d.ring (512 + link)).state = 3 then d.haltRing n 3 else d

/-- The enable bit cleared: an SQ drains, or is disabled at once with nothing in progress (R405). -/
def Device.disableRing (d : Device) (n : Nat) : Device :=
  let d := if n < 512 then d.stopFetch n else d
  let r := d.ring n
  if r.state = 0 then d
  else if n < 512 ∧ d.descs.any (·.sq = n) then d.setRing n { r with state := 2, cause := 0, held := [] }
  else d.setRing n { r with state := 0, cause := 0, arm := false, reserved := 0, held := [] }

/-- BAR0 offset of a ring register. -/
def ringOffset (n word : Nat) : Nat := 0x110000 + 16 * n + 4 * word

/-- A write of RING_CFG (R403 to R405; table RING_CFG). -/
def Device.writeRingCfg (d : Device) (fn n value : Nat) : Device :=
  if 1024 ≤ n ∨ !d.seesRing fn n then d else
  let r := d.ring n
  let owner := if fn = 0 then bits value 30 27 else r.owner
  let size := bits value 26 22
  let link := bits value 21 13
  let off := ringOffset n 2
  if 8 < owner ∨ size < 6 ∨ 16 < size ∨ (512 ≤ n ∧ d.vectors owner ≤ link) then d.refuse fn 0x0A off false
  else if r.state ≠ 0 ∧ (owner ≠ r.owner ∨ size ≠ r.size ∨ link ≠ r.link) then d.refuse fn 0x07 off false
  else if bit value 31 then
    if r.state = 2 then d.refuse fn 0x07 off false
    else if r.state ≠ 0 then d
    else
      let st := d.enableStatus n owner link
      if st ≠ 0 then d.refuse fn st off false else d.enableRing n owner size link
  else if r.state ≠ 0 ∧ 512 ≤ n ∧ d.rings.any (fun e => decide (e.1 < 512) && decide (512 + e.2.link = n) && decide (e.2.state ≠ 0)) then
    d.refuse fn 0x07 off false
  else if r.state = 0 then d.setRing n { r with owner := owner, size := size, link := link }
  else d.disableRing n

/-- A write of RING_BASE_LO or RING_BASE_HI (R404). -/
def Device.writeRingBase (d : Device) (fn n word value : Nat) : Device :=
  if 1024 ≤ n ∨ !d.seesRing fn n then d else
  let r := d.ring n
  let r' := if word = 0 then { r with baseLo := value / 4096 % 2 ^ 20 * 4096 } else { r with baseHi := value % 2 ^ 32 }
  if r.state ≠ 0 ∧ r' ≠ r then d.refuse fn 0x07 (ringOffset n word) false else d.setRing n r'

/-- RING_ENABLE: RING_CFG written with its enable bit set. -/
def Device.doRingEnable (d : Device) (fn n value : Nat) : Device :=
  d.writeRingCfg fn n (value % 2 ^ 31 + 2 ^ 31)
/-- RING_ENABLE. -/
def execRingEnable (fn n value : Nat) (s : State) : Host.Outcome State Fault Refusal :=
  s.act (·.fromRegs fn (·.doRingEnable fn n value))

/-- RING_DISABLE: RING_CFG written with its enable bit clear. -/
def Device.doRingDisable (d : Device) (fn n value : Nat) : Device := d.writeRingCfg fn n (value % 2 ^ 31)
/-- RING_DISABLE. -/
def execRingDisable (fn n value : Nat) (s : State) : Host.Outcome State Fault Refusal :=
  s.act (·.fromRegs fn (·.doRingDisable fn n value))

/-! ## Doorbells (R407, R410) -/

/-- Position that a doorbell value names. -/
def Ring.posOf (r : Ring) (value : Nat) : Nat := bits value 16 16 * r.entries + bits value 15 0

/-- Whether a doorbell's position may be accepted (R407). -/
def Ring.accepts (r : Ring) (sq : Bool) (value : Nat) : Bool :=
  let p := r.posOf value
  decide (bits value 15 0 < r.entries) &&
    if sq then decide (r.dist r.pos p ≤ r.entries) && decide (r.dist r.pos r.host ≤ r.dist r.pos p)
    else decide (r.dist r.host p ≤ r.dist r.host r.pos)

/-- A doorbell of an SQ as it takes effect: the host's tail of an enabled ring, or a halt. -/
def Device.sqTail (d : Device) (n value : Nat) : Device :=
  let r := d.ring n
  if r.state ≠ 1 then d
  else if r.accepts true value then d.setRing n { r with host := r.posOf value }
  else d.haltRing n 1

/-- SQ_DOORBELL; one of a fold that is being cleared is held until the fold is ready (R22). -/
def Device.doSqDb (d : Device) (fn n width value : Nat) : Device :=
  let r := d.ring n
  if 512 ≤ n ∨ !d.seesRing fn n ∨ width ≠ 4 ∨ r.state ≠ 1 then d
  else if r.owner < 8 ∧ (d.fold r.owner).state = 1 then d.setRing n { r with held := r.held ++ [value] }
  else d.sqTail n value
/-- SQ_DOORBELL. -/
def execSqDoorbell (fn n width value : Nat) (s : State) : Host.Outcome State Fault Refusal :=
  s.act (·.fromRegs fn (·.doSqDb fn n width value))

/-- The doorbells held for a fold's SQs until it is ready, accepted in their order (R22). -/
def Device.ringHeld (d : Device) (f : Nat) : Device :=
  (d.rings.filter fun e => e.1 < 512 && e.2.owner = f && e.2.held ≠ []).foldl (fun d e =>
    e.2.held.foldl (fun d v => d.sqTail e.1 v) (d.setRing e.1 { e.2 with held := [] })) d

/-- CQ_DOORBELL: the host's head of an enabled ring, and its arm bit (R410). -/
def Device.doCqDb (d : Device) (fn n width value : Nat) : Device :=
  let c := 512 + n
  let r := d.ring c
  if 512 ≤ n ∨ !d.seesRing fn c ∨ width ≠ 4 ∨ r.state ≠ 1 then d
  else if r.accepts false value then
    let p := r.posOf value
    if !bit value 31 then d.setRing c { r with host := p }
    else if p = r.pos then d.setRing c { r with host := p, arm := true }
    else (d.setRing c { r with host := p, arm := false }).msix r
  else d.haltRing c 1
/-- CQ_DOORBELL. -/
def execCqDoorbell (fn n width value : Nat) (s : State) : Host.Outcome State Fault Refusal :=
  s.act (·.fromRegs fn (·.doCqDb fn n width value))

/-! ## DESCRIPTOR_FETCH (R400, R408, R409, R425) -/

/-- Unused entries of a CQ: neither written nor reserved. -/
def Ring.room (r : Ring) : Nat := r.entries - r.dist r.host r.pos - r.reserved

/-- DESCRIPTOR_FETCH: the next entry of an enabled SQ is asked of host memory, one at a time, and a completion entry is
reserved for it (R400, R408, R409). -/
def Device.doFetchDesc (d : Device) (sq : Nat) : Device :=
  let r := d.ring sq
  let c := 512 + r.link
  let cq := d.ring c
  if 512 ≤ sq ∨ r.state ≠ 1 ∨ r.pos = r.host ∨ cq.state ≠ 1 ∨ cq.room = 0 ∨ d.hport.fetching sq then d else
  (d.setRing c { cq with reserved := cq.reserved + 1 }).askRead (ownerFn r.owner) (.fetch sq) (r.base + 64 * r.index r.pos) 64
/-- DESCRIPTOR_FETCH. -/
def execDescriptorFetch (sq : Nat) (s : State) : Host.Outcome State Fault Refusal := s.act (·.doFetchDesc sq)

/-- The entry that an SQ asked for returns: a descriptor in progress, and the ring's entry is free; a failed read halts the
SQ with cause 2 (R408, R425). -/
def Device.landFetch (d : Device) (sq : Nat) (data : HostRead) : Device :=
  let r := d.ring sq
  match data with
  | .data bs =>
    let x : Desc := ⟨sq, r.index r.pos, bs, d.fetchOrder, false, 0⟩
    let d := { d with descs := d.descs ++ [x], fetchOrder := d.fetchOrder + 1 }
    Device.sweepGo 16 (d.setRing sq { r with pos := (r.pos + 1) % (2 * r.entries) }) sq
  | _ =>
    let c := 512 + r.link
    (d.setRing c { d.ring c with reserved := (d.ring c).reserved - 1 }).haltRing sq 2

/-! ## Admission (R411) -/

/-- Rows of a descriptor's table whose bits are not all used: offset, bytes, the bits that may be set. -/
def Desc.rows (x : Desc) : List (Nat × Nat × Nat) :=
  [(1, 1, 3), (2, 1, if x.onDrive then 3 else 0), (3, 1, 0)] ++
    match x.op with
    | 0x01 => [(16, 8, 2 ^ 46 - 1), (28, 4, 2 ^ 27 - 1), (32, 4, 2 ^ 17 - 1), (40, 24, 0)]
    | 0x02 => [(8, 4, 2 ^ 17 - 1), (16, 48, 0)]
    | 0x03 => [(8, 4, 2 ^ 17 - 1), (20, 44, 0)]
    | 0x11 => [(16, 8, 2 ^ 48 - 1), (32, 1, 1), (33, 31, 0)]
    | 0x12 => [(8, 56, 0)]
    | 0x20 => [(11, 1, 3), (12, 2, 2 ^ 9 - 1), (15, 1, 0), (24, 8, 2 ^ 46 - 1), (32, 4, 2 ^ 25 - 1), (36, 28, 0)]
    | 0x21 => [(8, 1, 0x3F), (9, 7, 0), (24, 40, 0)]
    | 0x22 => [(8, 2, 0xFF), (10, 54, 0)]
    | _ => [(16, 48, 0)]

/-- Whether the ring's owner and the stage admit a descriptor (table Descriptor opcodes). -/
def Device.admits (d : Device) (x : Desc) : Bool :=
  let owner := (d.ring x.sq).owner
  let st := d.bring.stage
  if x.op ≤ 0x03 then st = 3 || st = 4
  else if x.onDrive then st = 3 || (st = 4 && (decide (owner < 8) || d.foldCount = 1))
  else if x.op = 0x20 then st = 4
  else st = 4 && owner = 8

/-- Byte offset of the first faulty field of a descriptor. -/
def Device.badField (d : Device) (x : Desc) : Option Nat :=
  if !d.admits x then some 0
  else (x.rows.find? fun r => (x.u r.1 r.2.1) &&& (2 ^ (8 * r.2.1) - 1 - r.2.2) ≠ 0).map (·.1)

/-- Whether this device is the bellwether of a formed flock. -/
def Device.leads (d : Device) : Bool := d.flock.isBell && d.flock.state = 2

/-- Status of the checks that come before every other: a PLAN on a device with several folds, a group descriptor on a
management ring off the bellwether of a formed flock (R423, R424). -/
def Device.foremost (d : Device) (x : Desc) : Nat :=
  if x.op = 0x20 ∧ 1 < d.foldCount then 0x13
  else if (x.op = 0x21 ∨ x.op = 0x22) ∧ (d.ring x.sq).owner = 8 ∧ !d.leads then 0x15
  else 0

/-- A descriptor of a kind may start: a faulty one completes with BAD_DESCRIPTOR, else `g` carries it out. -/
def Device.begin (d : Device) (sq idx op : Nat) (g : Desc → Device) : Device :=
  match d.desc sq idx with
  | none => d
  | some x =>
    if x.op ≠ op ∨ !d.startable x then d else
    if d.foremost x ≠ 0 then d.complete sq idx (d.foremost x) 0 else
    match d.badField x with
    | some o => d.complete sq idx 0x01 o
    | none => g x

/-- A descriptor stands started, with the watch count (R414). -/
def Device.markStarted (d : Device) (sq idx : Nat) : Device :=
  { d with descs := d.descs.map fun x => if x.sq = sq ∧ x.idx = idx then { x with started := true, start := d.now } else x }

/-! ## DMA (R412, R413, R425, R426) -/

/-- DMA fields of a descriptor (table DMA). -/
def dmaOf (bs : List Byte) : DmaD :=
  let u (o n : Nat) : Nat := leNat ((bs.drop o).take n)
  { host := u 8 8, loc := u 16 8 % 2 ^ 46, len := u 24 4, tally := bits (u 28 4) 16 0, inc := bits (u 28 4) 24 17
    toHost := bit (u 28 4) 25, wt := bit (u 28 4) 26, wtally := bits (u 32 4) 16 0, wthr := u 36 4 }

/-- Fold-relative form of a range of local addresses named through PF0 on a device with one fold: its paddocks are
named by logical pen number; an address of no fold where a number is not carried (R23, R137). -/
def Device.pfLocal (d : Device) (x len : Nat) : Nat :=
  if !inWindow x then x else
  let q := x % padBase / padSize
  let n := (x % padBase + len - 1) / padSize + 1 - q
  match d.siteOf q with
  | some m =>
    if (List.range n).all fun i => (d.siteOf (q + i)).isSome then padBase + padSize * d.penOf m + x % padSize
    else 2 ^ 46
  | none => 2 ^ 46

/-- The DMA fields of a ring's descriptor, its local address fold-relative (R137). -/
def Device.dmaFor (d : Device) (sq : Nat) (bs : List Byte) : DmaD :=
  let m := dmaOf bs
  if (d.ring sq).owner < 8 then m else { m with loc := d.pfLocal m.loc m.len }

/-- Whether a fold has a tally of an identifier; a management ring of a device with several folds names none
(R138, R411). -/
def Device.ownsTally (d : Device) (f id : Nat) : Bool := (d.tallyAt f id).isSome
/-- Whether a ring's descriptors can name resources of its fold: not on a management ring of a device with
several folds (R411). -/
def Device.namesFold (d : Device) (sq : Nat) : Bool := (d.ring sq).owner < 8 || d.foldCount = 1

/-- Status of the checks before a DMA moves a byte, in their order: alignment, address, tally (R412). -/
def Device.dmaStatus (d : Device) (sq : Nat) (m : DmaD) : Nat :=
  let f := d.ringFold sq
  if m.host % 8 ≠ 0 ∨ m.loc % 8 ≠ 0 ∨ m.len % 8 ≠ 0 ∨ m.len = 0 then 0x03
  else if !d.namesFold sq ∨ !d.owns f m.loc m.len then 0x02
  else if (m.inc ≠ 0 ∧ !d.ownsTally f m.tally) ∨ (m.wt ∧ !d.ownsTally f m.wtally) then 0x18
  else 0

/-- Whether a piece lies in a paddock that is being cleared (R158). -/
def Device.clearingAt (d : Device) (f x : Nat) : Bool :=
  match d.place f x with
  | some (.pad n _) => (d.site n).clearing
  | _ => false

/-- Bytes landed piece by piece up to a paddock that is being cleared: how many, and whether all (R158). -/
def Device.landPieces (d : Device) (f : Nat) (bs : List Byte) (x0 : Nat) : List (Nat × Nat) → Nat → Device × Nat × Bool
  | [], moved => (d, moved, true)
  | (x, n) :: r, moved =>
    if d.clearingAt f x then (d, moved, false)
    else Device.landPieces (d.writeLocal f x ((bs.drop (x - x0)).take n) []) f bs x0 r (moved + n)

/-- Contents left undefined by a failed host read (R425; log entry 11). -/
def Device.undefine (d : Device) (f x n : Nat) : Device :=
  ((d.landPieces f ((List.range n).map (Config.undefinedByte d.free)) x (windowsOf x n) 0).1).draw

/-- Local addresses of the poisoned words of a range, in order. -/
def Device.poisonIn (d : Device) (f x n : Nat) : List Nat :=
  (windowsOf x n).flatMap fun p => (d.poisonWords f p.1 p.2).map fun w => p.1 / 8 * 8 + 8 * w.1

/-- Data of a DMA to the host moved: the device after it, its status and its detail. A poisoned word stops it before the
64-byte line that holds it (R426). -/
def Device.dmaOut (d : Device) (f : Nat) (m : DmaD) (errs : List (Nat × Ecc)) : Device × Nat × Nat :=
  let e := d.transferRead f m.loc m.len errs
  match e.poisonIn f m.loc m.len with
  | [] => (e.hostWrite m.host (e.readLocal f m.loc m.len), 0, m.len)
  | w :: _ =>
    let n := w / 64 * 64 - m.loc
    ((d.transferRead f m.loc (w + 8 - m.loc) errs).hostWrite m.host (d.readLocal f m.loc n), 0x10, n)

/-- The bytes of one request of a DMA from the host land. With the last of them, with a failed read, or at a paddock that is
being cleared, the DMA ends with a status and a detail (R158, R413, R425). -/
def Device.dmaIn (d : Device) (f : Nat) (m : DmaD) (r : HostReq) (data : HostRead) : Device × Option (Nat × Nat) :=
  let had := ((d.hport.moves.find? (·.1 = r.job)).map (·.2)).getD (r.len, 0)
  match data with
  | .abort => (d.undefine f m.loc m.len, some (0x0E, 0))
  | .timeout => (d.undefine f m.loc m.len, some (0x0F, 0))
  | .data bs =>
    match d.landPieces f bs (m.loc + r.off) (windowsOf (m.loc + r.off) bs.length) 0 with
    | (d, moved, false) => (d, some (0x19, had.2 + moved))
    | (d, _, true) =>
      if had.1 ≤ bs.length then (d, some (0, m.len))
      else ({ d with hport := { d.hport with
        moves := d.hport.moves.map fun e => if e.1 = r.job then (e.1, had.1 - bs.length, had.2 + bs.length) else e } }, none)

/-- DMA of a ring descriptor, once its wait is over: to the host at once, from the host by reads, whose completions land
it. -/
def Device.doDma (d : Device) (sq idx : Nat) (errs : List (Nat × Ecc)) : Device :=
  d.begin sq idx 0x01 fun x =>
    let m := d.dmaFor sq x.bytes
    let f := d.ringFold sq
    let st := d.dmaStatus sq m
    if st ≠ 0 then d.complete sq idx st 0
    else if m.wt ∧ !d.tallyReached f m.wtally m.wthr then d
    else if m.toHost then
      match d.dmaOut f m errs with
      | (d, st, detail) => (if st = 0 ∧ m.inc ≠ 0 then d.tallyAdd f m.tally m.inc else d).complete sq idx st detail
    else ((d.markStarted sq idx).noteDirty f m.loc m.len).askDma (ownerFn (d.ring sq).owner) (.ring sq idx) m.host m.len
/-- DMA. -/
def execDma (sq idx : Nat) (errs : List (Nat × Ecc)) (s : State) : Host.Outcome State Fault Refusal :=
  s.act (·.doDma sq idx errs)

/-- A request of a ring's DMA returns; the tally counts before the completion (R413). -/
def Device.landDma (d : Device) (sq idx : Nat) (r : HostReq) (data : HostRead) : Device :=
  match d.desc sq idx with
  | none => d
  | some x =>
    let m := d.dmaFor sq x.bytes
    let f := d.ringFold sq
    match d.dmaIn f m r data with
    | (d, none) => d
    | (d, some (st, detail)) => (if st = 0 ∧ m.inc ≠ 0 then d.tallyAdd f m.tally m.inc else d).complete sq idx st detail

/-! ## TALLY_ADD and WAIT (R414) -/

/-- Status of a descriptor that names one tally (R411, R412). -/
def Device.tallyStatus (d : Device) (sq id : Nat) : Nat :=
  if !d.namesFold sq then 0x02 else if !d.ownsTally (d.ringFold sq) id then 0x18 else 0

/-- TALLY_ADD descriptor: one increment (R199). -/
def Device.doTallyAddDesc (d : Device) (sq idx : Nat) : Device :=
  d.begin sq idx 0x02 fun x =>
    let id := x.u 8 4 % 2 ^ 17
    let st := d.tallyStatus sq id
    if st ≠ 0 then d.complete sq idx st 0
    else (d.tallyAdd (d.ringFold sq) id (x.u 12 4)).complete sq idx 0 0
/-- TALLY_ADD descriptor. -/
def execTallyAddDescriptor (sq idx : Nat) (s : State) : Host.Outcome State Fault Refusal :=
  s.act (·.doTallyAddDesc sq idx)

/-- WAIT: starts, or completes once its tally has reached the threshold. -/
def Device.doWait (d : Device) (sq idx : Nat) : Device :=
  match d.desc sq idx with
  | none => d
  | some x =>
    let id := x.u 8 4 % 2 ^ 17
    let met := d.tallyReached (d.ringFold sq) id (x.u 12 4)
    if x.op = 0x03 ∧ x.started then (if met then d.complete sq idx 0 0 else d)
    else d.begin sq idx 0x03 fun _ =>
      let st := d.tallyStatus sq id
      if st ≠ 0 then d.complete sq idx st 0
      else if met then d.complete sq idx 0 0
      else d.markStarted sq idx
/-- WAIT. -/
def execWait (sq idx : Nat) (s : State) : Host.Outcome State Fault Refusal := s.act (·.doWait sq idx)

/-- WAIT_TIMEOUT: a started WAIT's deadline has passed on the watch and its tally is short of the threshold; the
detail is the tally's value. -/
def Device.doWaitTimeout (d : Device) (sq idx : Nat) : Device :=
  match d.desc sq idx with
  | none => d
  | some x =>
    let f := d.ringFold sq
    let id := x.u 8 4 % 2 ^ 17
    let dl := x.u 16 4
    if x.op ≠ 0x03 ∨ !x.started ∨ dl = 0 ∨ d.now < x.start + dl ∨ d.tallyReached f id (x.u 12 4) then d
    else match d.tallyAt f id with
      | some p => d.complete sq idx 0x0D (d.tallyGet p).toNat
      | none => d
/-- WAIT_TIMEOUT. -/
def execWaitTimeout (sq idx : Nat) (s : State) : Host.Outcome State Fault Refusal := s.act (·.doWaitTimeout sq idx)

end Sys2Proof.Machine
end

