-- ==== Sys2Proof/Machine/Drives.lean ====
section
/-!
DEFINITION. Drives and their steps: LAUNCH, STEP, RUN, END, batch DMAs, opening and closing a step, the
studbook record, commits of a drive's own device, PLAN and groups (12, R352 to R366; 13, R415 to R425, R541).
-/
namespace Sys2Proof.Machine

/-! ## Host reads of a descriptor's blocks (R541) -/

/-- Outcome of preparing a step: a result; a ring status and detail; or nothing, where what the host
returned has not the length asked for (no such read exists). -/
abbrev Prep (α : Type) := Except (Option (Nat × Nat)) α

/-- Bytes of a host read of n bytes: a failed one is HOST_ABORT or HOST_TIMEOUT with detail 0. -/
def hostBytes (r : HostRead) (n : Nat) : Prep (List Byte) :=
  match r with
  | .data bs => if bs.length = n then .ok bs else .error none
  | .abort => .error (some (0x0E, 0))
  | .timeout => .error (some (0x0F, 0))

/-- Bytes of a host read made only when its condition holds. -/
def hostBytesIf (c : Bool) (r : HostRead) (n : Nat) : Prep (List Byte) := if c then hostBytes r n else .ok []

/-- A number among bytes. -/
def u (bs : List Byte) (off n : Nat) : Nat := leNat ((bs.drop off).take n)

/-! ## Snapshot and export marks (R362) -/

/-- D of RECOV_CFG.export_every: a value that is not a multiple of C acts as the next multiple. -/
def exportEvery (cfg : Nat) : Nat :=
  let c := bits cfg 19 8
  let x := bits cfg 31 20
  if c = 0 then x else (x + c - 1) / c * c
/-- Whether a step number is a due point of snapshots. -/
def snapPoint (cfg j : Nat) : Bool := bits cfg 19 8 ≠ 0 && j % bits cfg 19 8 = 0
/-- Whether a step number is a multiple of D. -/
def exportPoint (cfg j : Nat) : Bool := exportEvery cfg ≠ 0 && j % exportEvery cfg = 0

/-- Marks of a step: snapshot, export; due flags carried on; whether the due point passed before it. -/
structure Marks where
  snap : Bool
  exp  : Bool
  snapDue : Bool
  expDue : Bool
  late : Bool
  deriving DecidableEq, Repr

/-- Marks of step j, given the flags carried and whether a snapshot region is being read (R362). -/
def markOf (cfg j : Nat) (busy snapDue expDue : Bool) : Marks :=
  let s := snapDue || snapPoint cfg j
  let e := expDue || exportPoint cfg j
  if s && !busy then ⟨true, e, false, false, snapDue⟩ else ⟨false, false, s, e, false⟩

/-! ## Preparing a step (R387, R417, R418) -/

/-- A step-block entry and what its addresses name (table Step block entry). -/
structure Entry where
  leaf  : Nat
  count : Nat
  noteAt : Nat
  noteLen : Nat
  origAt : Nat
  step  : LeafStep
  deriving DecidableEq, Repr

/-- Entry of 128 bytes. -/
def entryOf (e : List Byte) : Entry :=
  { leaf := u e 0 2, count := u e 4 4, noteAt := u e 0x30 8, noteLen := u e 0x38 2, origAt := u e 0x40 8
    step := ⟨u e 0 2, u e 0x10 8, u e 0x18 16, u e 0x28 8, [], [], none⟩ }

/-- Whether a batch descriptor is a DMA with dir 0 and no reserved bit. -/
def batchOk (bs : List Byte) : Bool :=
  let x : Desc := ⟨0, 0, bs, 0, false, 0⟩
  x.op = 0x01 && !(dmaOf bs).toHost && x.rows.all fun r => (x.u r.1 r.2.1) &&& (2 ^ (8 * r.2.1) - 1 - r.2.2) = 0

/-- Status of a batch DMA: PADDOCK_ALIGN, ADDRESS_NOT_OWNED, PADDOCK_BOUNDS or BAD_TALLY, in that order; 0
where it may start (R418; the foster region by R372). -/
def Device.batchStatus (d : Device) (f : Nat) (v : Drive) (m : DmaD) : Nat :=
  let base := 2 ^ 30 * bits d.recov.fosterRegion 15 0
  let size := 2 ^ 30 * bits d.recov.fosterRegion 31 16
  let tallyOk (id : Nat) : Bool := d.ownsTally f id && tallyInExtent v id
  if m.host % 8 ≠ 0 ∨ m.loc % 8 ≠ 0 ∨ m.len % 8 ≠ 0 ∨ m.len = 0 then 0x03
  else if !d.owns f m.loc m.len ∨ (m.loc < d.share ∧ m.loc < base + size ∧ base < m.loc + m.len) then 0x02
  else if inWindow m.loc ∧ !(windowsOf m.loc m.len).all (fun p => inExtent v (p.1 % padSize) p.2) then 0x04
  else if (m.inc ≠ 0 ∧ !tallyOk m.tally) ∨ (m.wt ∧ !tallyOk m.wtally) then 0x18
  else 0

/-- Status of the first failing DMA in list order. -/
def Device.batchCheck (d : Device) (f : Nat) (v : Drive) (ms : List DmaD) : Prep Unit :=
  match (ms.map (d.batchStatus f v)).find? (· ≠ 0) with
  | some st => .error (some (st, 0))
  | none => .ok ()

/-- STEP_BAD with a case number. -/
def stepBad {α : Type} (c : Nat) : Prep α := .error (some (0x0A, c))

/-- A step prepared: its record and its batch DMAs in list order. -/
abbrev Prepared := StepRec × List DmaD

/-- One leaf's lists: batch list, annotation, original record. -/
def leafLists (active : Bool) (e : Entry) (lst note orig : HostRead) : Prep (Entry × List Byte × List Byte × Option (List Byte)) := do
  let l ← hostBytesIf (e.count ≠ 0) lst (64 * e.count)
  let n ← hostBytesIf (e.noteAt ≠ 0 && e.noteLen ≠ 0 && e.noteLen ≤ 3776) note e.noteLen
  let o ← hostBytesIf (active && e.origAt ≠ 0) orig 4096
  .ok (e, l, n, if active && e.origAt ≠ 0 then some o else none)

/-- The entries with what they name, in leaf order. -/
def leafListsAll (active : Bool) : List Entry → List HostRead → List HostRead → List HostRead →
    Prep (List (Entry × List Byte × List Byte × Option (List Byte)))
  | [], _, _, _ => .ok []
  | e :: es, ls, ns, os => do
    let x ← leafLists active e (ls.headD (.data [])) (ns.headD (.data [])) (os.headD (.data []))
    let xs ← leafListsAll active es ls.tail ns.tail os.tail
    .ok (x :: xs)

/-- Preparation of a step from what the host returned: cases 2 to 5 of R417, the reads of R541 and the batch
checks of R418. -/
def Device.prepStep (d : Device) (f : Nat) (v : Drive) (number starts : Nat) (restore : Bool)
    (desc : Option (Nat × Nat)) (r : StepReads) : Prep Prepared := do
  let leaves := d.leavesHosted
  let block ← hostBytes r.block (128 * leaves.length)
  let es := (chunks 128 leaves.length block).map entryOf
  if es.map (·.leaf) ≠ leaves then stepBad 2
  else if es.any (fun e => decide (1048576 < e.count)) then stepBad 3
  else
    let xs ← leafListsAll d.active es r.lists r.notes r.originals
    let batch := xs.flatMap fun x => chunks 64 x.1.count x.2.1
    if !batch.all batchOk then stepBad 3
    else if starts ≠ 0 ∧ restore then stepBad 4
    else if es.any (fun e => decide (3776 < e.noteLen)) then stepBad 5
    else
      let sb ← hostBytesIf (starts ≠ 0) r.starts (8 * v.pens)
      let ms := batch.map dmaOf
      d.batchCheck f v ms
      let st : StepRec :=
        { number := number
          leaves := xs.map fun x => { x.1.step with digest := sha512 x.2.1, note := x.2.2.1, original := x.2.2.2 }
          starts := if starts ≠ 0 then some ((chunks 8 v.pens sb).map leNat) else none
          restore := restore, snap := false, exp := false, shears := [], desc := desc }
      .ok (st, ms)

/-- Batch DMAs numbered by step and place. -/
def numberDmas (number : Nat) (ms : List DmaD) : List (Nat × DmaD) :=
  ms.zipIdx.map fun x => (number * 2 ^ 21 + x.2, x.1)

/-! ## Records (R352 to R358) -/

/-- Schedule digest of a step (pseudocode Schedule digest). -/
def scheduleDigest (ss : List ShearNote) : List Byte :=
  let layers := (ss.map (·.layer)).foldl nins []
  sha512 (layers.flatMap fun l =>
    match ss.find? (·.layer = l) with
    | some c => leBytes 2 l ++ [BitVec.ofNat 8 c.ctl] ++ c.imms.flatMap fun w => leBytes 4 w.toNat
    | none => [])

/-- Record digest of a leaf's previous record, or its chain seed. -/
def Drive.previous (v : Drive) (leaf : Nat) : List Byte := (slook v.chain leaf).getD []

/-- n zero bytes. -/
def zeros (n : Nat) : List Byte := List.replicate n 0#8

/-- A studbook record (table Studbook record). -/
def recordBytes (v : Drive) (r : StepRec) (count : Nat) (l : LeafStep) : List Byte :=
  leBytes 4 1 ++ zeros 4 ++ leBytes 8 (r.number % 2 ^ 48) ++ leBytes 2 l.leaf ++ leBytes 2 count ++ zeros 4 ++
  leBytes 8 l.sample ++ padTo 64 l.digest ++ leBytes 16 l.key ++ leBytes 8 l.ctr ++ zeros 8 ++
  scheduleDigest r.shears ++ padTo 64 v.digest ++ padTo 64 (v.previous l.leaf) ++ padTo 3776 l.note

/-- An entry written into the studbook region, the host area and the journal's queue (R357, R358, R377). -/
def Device.writeEntry (d : Device) (f s : Nat) (bs : List Byte) : Device :=
  match d.drive f s with
  | none => d
  | some v =>
    let d := d.writeLocal f (v.sbase + v.sbPos % (v.ssize / 4096) * 4096) bs []
    let d := d.hostWrite (v.hbase + v.hbPos % (v.hsize / 4096) * 4096) bs
    let d := d.onDrive f s fun v => { v with sbPos := v.sbPos + 1, hbPos := v.hbPos + 1 }
    { d with cote := { d.cote with waiting := d.cote.waiting ++ [(f, bs)] } }

/-- The original record of a replayed step: from the host copy an adopter's descriptor names, else from the
studbook region (R387). -/
def Device.originalOf (d : Device) (f : Nat) (v : Drive) (number : Nat) (l : LeafStep) : Option (List Byte) :=
  if !d.active then none else
  match l.original with
  | some o => some o
  | none =>
    if decide (number ≤ v.high.getD 0) && v.high.isSome then
      ((List.range (v.ssize / 4096)).map fun i => d.readLocal f (v.sbase + i * 4096) 4096).find? fun e =>
        u e 0 4 = 1 && u e 8 6 = number && u e 0x10 2 = l.leaf
    else none

/-- A drive rolled back to step k0: it goes on from there, each chain as it was then (R381, R384, R387). -/
def Drive.rollTo (v : Drive) (k0 : Nat) : Drive :=
  { v with
    last := k0, chain := (slook v.past k0).getD v.chain, past := v.past.filter (·.1 ≤ k0)
    closed := if k0 < v.first then none else v.closed.map (min k0) }

/-- A STUDBOOK_MISMATCH: an event and a report; the step is abandoned without a completion (R387). -/
def Device.bookMismatch (d : Device) (f s leaf number : Nat) : Device :=
  ((d.onDrive f s fun v => { v with opened := none, abandoned := true }).event .studbookMismatch [f, s, leaf, number]).tellBell
    (.failure d.flock.rank (.mismatch leaf number))

/-- The leaf whose batch digest differs from its original record's (R387). -/
def Device.digestBad (d : Device) (f : Nat) (v : Drive) (r : StepRec) : Option Nat :=
  (r.leaves.find? fun l => match d.originalOf f v r.number l with
    | some o => decide ((o.drop 0x20).take 64 ≠ l.digest)
    | none => false).map (·.leaf)

/-- The leaf whose record differs from its original (R387). -/
def Device.recordBad (d : Device) (f : Nat) (v : Drive) (r : StepRec) : Option Nat :=
  (r.leaves.find? fun l => match d.originalOf f v r.number l with
    | some o => decide (sha512 o ≠ sha512 (recordBytes v r d.leafCount l))
    | none => false).map (·.leaf)

/-! ## STEP (R417 to R419) -/

/-- STEP descriptors of a drive that have started and are neither prepared nor open. -/
def Device.stepsStarted (d : Device) (f s : Nat) (v : Drive) : List Desc :=
  let held (r : Option StepRec) (x : Desc) : Bool := match r with
    | some r => decide (r.desc = some (x.sq, x.idx))
    | none => false
  d.descs.filter fun x => x.op = 0x11 ∧ x.slot = s ∧ x.started ∧ d.ringFold x.sq = f ∧ !held v.opened x ∧ !held v.prepared x

/-- STEP descriptor: the step is reached in ring order; behind a step that is not open yet it waits its turn to be
prepared (R418), else its number is checked by R417 case 1 at once. -/
def Device.doStepDesc (d : Device) (sq idx : Nat) : Device :=
  d.begin sq idx 0x11 fun x =>
    let f := d.ringFold sq
    match d.drive f x.slot with
    | none => d.complete sq idx 0x09 0
    | some v =>
      if x.u 8 8 % 64 ≠ 0 then d.complete sq idx 0x01 8
      else if v.stopped.isSome then d.complete sq idx 0x0C 0
      else if d.stepsStarted f x.slot v ≠ [] ∨ v.prepared.isSome then d.markStarted sq idx
      else if x.u 16 8 ≠ (v.last + 1) % 2 ^ 48 then d.complete sq idx 0x0A 1
      else d.markStarted sq idx
/-- STEP descriptor. -/
def execStepDescriptor (sq idx : Nat) (s : State) : Host.Outcome State Fault Refusal := s.act (·.doStepDesc sq idx)

/-! ## Reads of host memory that return (R402, R413, R420, R425) -/

/-- A batch DMA ends: its tally counts, or the drive stops with its ring status and a stream address of zero (R420). -/
def Device.endBatch (d : Device) (f s k : Nat) (m : DmaD) (st : Nat) : Device :=
  let d := (d.dropJobs fun j => decide (j = .batch f s k)).onDrive f s fun v => { v with dmas := v.dmas.filter (·.1 ≠ k) }
  if st = 0 then (if m.inc ≠ 0 then d.tallyAdd f m.tally m.inc else d) else d.stopDrive f s 1 st 0 0

/-- Batch DMA k of a drive starts, once its wait is over; its reads are those of the fold's function, PF0 before full service
(DESIGN CHOICE, log entry 128). -/
def Device.startBatch (d : Device) (f s k : Nat) : Device :=
  match d.drive f s with
  | none => d
  | some v =>
    match slook v.dmas k with
    | none => d
    | some m =>
      if v.stopped.isSome ∨ d.hport.moves.any (·.1 = .batch f s k) ∨ (m.wt ∧ !d.tallyReached f m.wtally m.wthr) then d
      else if m.toHost then (match d.dmaOut f m [] with | (d, st, _) => d.endBatch f s k m st)
      else (d.noteDirty f m.loc m.len).askDma (if d.full then f + 1 else 0) (.batch f s k) m.host m.len

/-- Batch DMAs of a drive that may start do (R418). -/
def Device.startBatches (d : Device) (f s : Nat) : Device :=
  match d.drive f s with
  | some v => (v.dmas.map (·.1)).foldl (fun d k => d.startBatch f s k) d
  | none => d

/-- A request of a batch DMA returns. -/
def Device.landBatch (d : Device) (f s k : Nat) (r : HostReq) (data : HostRead) : Device :=
  match (d.drive f s).bind fun v => if v.stopped.isSome then none else slook v.dmas k with
  | some m =>
    match d.dmaIn f m r data with
    | (d, none) => d
    | (d, some (st, _)) => d.endBatch f s k m st
  | none => d.dropJobs fun j => decide (j = .batch f s k)

/-- The data of a member's read goes back to it in a packet of kind 2 under its own tag; the status says a failed one (R350;
log entry 128). -/
def Device.landMember (d : Device) (rank tag : Nat) (data : HostRead) : Device :=
  let p : Packet := { d.packetTo rank 2 2 with tally := tag }
  d.sendTo (match data with
    | .data bs => { p with data := bs }
    | .abort => { p with status := 1 }
    | .timeout => { p with status := 2 })

/-- What a read was for takes its data. -/
def Device.landRead (d : Device) (r : HostReq) (data : HostRead) : Device :=
  match r.job with
  | .fetch sq => d.landFetch sq data
  | .ring sq idx => d.landDma sq idx r data
  | .batch f s k => d.landBatch f s k r data
  | .member rank tag => d.landMember rank tag data

/-- The last completion of the read under a tag: the tag is free, what it was for takes the data, and reads that wait may go
(R402). -/
def Device.readDone (d : Device) (tag : Nat) (data : HostRead) : Device :=
  match slook d.hport.tags tag with
  | none => d
  | some (_, what) =>
    let fits : Bool := match what, data with | some r, .data bs => bs.length = r.len | _, _ => true
    if !fits then d else
    let d : Device := { d with hport := { d.hport with tags := d.hport.tags.filter fun e => e.1 ≠ tag } }
    let d := match what with | some r => d.landRead r data | none => d
    Device.serveReads 4096 d

/-- HOST_READ_COMPLETION: the last completion of a read of host memory arrives, or the read fails (R402, R425). -/
def Device.doHostRead (d : Device) (tag : Nat) (data : HostRead) : Device := d.readDone tag data
/-- HOST_READ_COMPLETION. -/
def execHostReadCompletion (tag : Nat) (data : HostRead) (s : State) : Host.Outcome State Fault Refusal :=
  s.act (·.doHostRead tag data)

/-! ## STEP_PREPARE (R418) -/

/-- Whether a function may read host memory now: the reads that a LAUNCH or a STEP makes one after another are taken with it
in one step, under one tag (R402; log entry 128). -/
def Device.mayRead (d : Device) (fn : Nat) : Bool := d.hport.may fn && !d.hport.waiting.any (·.src = fn)

/-- STEP_PREPARE: the first STEP that waits to be prepared: its number and the blocks it names are checked, and its
batch DMAs start (R417, R418). -/
def Device.doStepPrepare (d : Device) (sq idx : Nat) (r : StepReads) : Device :=
  match d.desc sq idx with
  | none => d
  | some x =>
    let f := d.ringFold sq
    match d.drive f x.slot with
    | none => d
    | some v =>
      if x.op ≠ 0x11 ∨ !x.started ∨ v.prepared.isSome ∨ v.abandoned ∨ (d.stepsStarted f x.slot v).head? ≠ some x ∨ !d.mayRead (ownerFn (d.ring sq).owner) then d else
      let number := x.u 16 8
      if number ≠ (v.last + 1) % 2 ^ 48 then d.complete sq idx 0x0A 1 else
      match d.prepStep f v number (x.u 24 8) (bit (x.u 32 1) 0) (some (sq, idx)) r with
      | .error none => d
      | .error (some (st, detail)) => d.complete sq idx st detail
      | .ok (st, ms) =>
        match d.digestBad f v st with
        | some leaf => d.bookMismatch f x.slot leaf number
        | none => (d.onDrive f x.slot fun v => { v with
            prepared := some st, last := number, dmas := v.dmas ++ numberDmas number ms }).startBatches f x.slot
/-- STEP_PREPARE. -/
def execStepPrepare (sq idx : Nat) (reads : StepReads) (s : State) : Host.Outcome State Fault Refusal :=
  s.act (·.doStepPrepare sq idx reads)

/-! ## Opening a step (R178, R179, R361 to R363, R418) -/

/-- The sequencer that holds a drive's stream on a site: the pen's, or the saved one. -/
def Device.seqrOf (d : Device) (f s n : Nat) : Option Seqr :=
  if (d.fold f).occ = some s then
    (match slook (d.site n).saved s with | some r => some r.seqr | none => some (d.site n).seqr)
  else (slook (d.site n).saved s).map (·.seqr)

/-- Change of the sequencer that holds a drive's stream on a site. -/
def Device.onStream (d : Device) (s n : Nat) (g : Seqr → Seqr) : Device :=
  d.onSite n fun t => match slook t.saved s with
    | some r => { t with saved := sput t.saved s { r with seqr := g r.seqr } }
    | none => t.onSeqr g

/-- Whether an active command is a STEP. -/
def Active.isStep (a : Active) : Bool := match a.cmd.body with | .step => true | _ => false

/-- Whether a stream has a STEP at the head of both its queues with every earlier command complete (R178,
R356): the two STEPs in its slots and nothing else. -/
def Seqr.atStep (x : Seqr) : Bool := x.act.length = 2 && x.act.all (·.isStep)

/-- The address a pen's stream goes on from after a STEP, none where it continues (R179). -/
def Drive.nextAt (v : Drive) (r : StepRec) (q : Nat) : Option Nat :=
  if r.restore then some (v.streams.getD q (0, 0)).2 else r.starts.map (·.getD q 0)

/-- A STEP completes in a pen: its commands leave, their increments follow, the stream goes on (R171, R178,
R179). -/
def Device.passStep (d : Device) (f s n : Nat) (v : Drive) (r : StepRec) : Device :=
  match d.seqrOf f s n with
  | none => d
  | some x =>
    let q := d.penOf n
    let g (y : Seqr) : Seqr :=
      let y := { y with act := y.act.filter fun a => !a.isStep, stepF := false, stepB := false }
      match v.nextAt r q with
      | some a => { y with pc := a, limit := (d.streamLimit n v a).getD a, fetched := [], ended := false }
      | none => y
    let d := d.onStream s n g
    let d := (x.act.filter (·.isStep)).foldl (fun d a => if a.cmd.inc = 0 then d else d.bump n f a.cmd.done a.cmd.inc) d
    d.pump n

/-- Whether a drain or an export reads a fold's snapshot region (R234, R362, R363). -/
def Device.reading (d : Device) (f : Nat) : Bool := d.recov.draining.contains f || d.recov.exporting.contains f

/-- Marks held for a step: those of COMMIT step - 2, from the flock or the drive's own device; none where the
COMMIT is not held (R361, R364). -/
def Device.marksHeld (d : Device) (v : Drive) (number : Nat) : Option (Bool × Bool) :=
  if v.unlogged ∨ number < v.first + 2 then some (false, false) else
  let cs := if d.active then d.recov.commits else v.commits
  (cs.find? (·.1 + 2 = number)).map (·.2)

/-- A snapshot trigger that has fired makes the step that opens a due point (R362). -/
def Device.openDue (d : Device) (f s : Nat) : Device :=
  let d := d.onDrive f s fun v => if v.trig then { v with trig := false, snapDue := true } else v
  if d.recov.trig then { d with recov := { d.recov with trig := false, snapDue := true } } else d

/-- A prepared step opens: its marks are fixed, the watch base is set, every pen's STEP completes. -/
def Device.openStep (d : Device) (f s : Nat) (r : StepRec) (m : Bool × Bool) : Device :=
  let r := { r with snap := m.1, exp := m.2 }
  let d := d.onDrive f s fun v => { v with opened := some r, prepared := none, watchBase := d.now }
  let d := d.openDue f s
  match d.drive f s with
  | some v => (d.foldSites f).foldl (fun d n => d.passStep f s n v r) d
  | none => d

/-- STEP_OPEN: the prepared step of a drive opens once the previous one has closed, its COMMIT is held and no
reading of the snapshot region delays a snapshot step; while the flock recovers none opens (R361, R363, R385). -/
def Device.doStepOpen (d : Device) (f s : Nat) : Device :=
  match d.drive f s with
  | none => d
  | some v =>
    match v.prepared with
    | none => d
    | some r =>
      if v.opened.isSome ∨ v.stopped.isSome ∨ v.abandoned ∨ d.flock.state = 3 then d else
      match d.marksHeld v r.number with
      | none => d
      | some m => if m.1 ∧ d.reading f then d else d.openStep f s r m
/-- STEP_OPEN. -/
def execStepOpen (f slot : Nat) (s : State) : Host.Outcome State Fault Refusal := s.act (·.doStepOpen f slot)

/-! ## Closing a step (R356 to R365) -/

/-- Whether every pen of a fold stands at the STEP and every SHEAR and COLLECT of the drive is done (R178, R356). -/
def Device.mayClose (d : Device) (f s : Nat) : Bool :=
  d.foldSites f ≠ [] &&
  (d.foldSites f).all (fun n => match d.seqrOf f s n with | some x => x.atStep | none => false) &&
  d.shears.mem.all (fun q => q.all fun r => !(r.fold = f && r.slot = s)) &&
  d.shears.link.all (fun r => !(r.fold = f && r.slot = s)) && d.coll.queue.all fun c => !(c.fold = f && c.slot = s)

/-- Image slot of a fold that does not hold its latest valid image (R375): key 2 f + slot. -/
def Cote.target (c : Cote) (f : Nat) : Nat :=
  match slook c.slots (2 * f), slook c.slots (2 * f + 1) with
  | some a, some b => if a.step < b.step then 2 * f else 2 * f + 1
  | some _, none => 2 * f + 1
  | none, _ => 2 * f

/-- The cote key of a fold under the current fold count (R446, R447). -/
def Device.coteKey (d : Device) (f : Nat) : Key := .cote d.sec.fuses.coteGen d.foldCount f (d.fold f).epoch

/-- The drain of a snapshot step begins: the image of the target slot is replaced (R375). -/
def Device.startDrain (d : Device) (f : Nat) (v : Drive) (step : Nat) : Device :=
  let slot := d.cote.target f
  let im : CoteImage :=
    { key := d.coteKey f, step := step, rank := d.flock.rank, first := d.leaf0, count := d.leavesHosted.length
      base := v.xbase, size := v.xsize, digest := [], records := v.chain.map (·.2), bytes := [] }
  { d with
    recov := { d.recov with draining := nins d.recov.draining f }
    cote := { d.cote with slots := sdel d.cote.slots slot, drain := sput d.cote.drain f (slot, 0, v.xbase + v.snap, im) } }

/-- The commit of a drive that takes its commits from its own device: step k is committed and k + 2 marked
(R362, R364, R542). -/
def Device.ownCommit (d : Device) (f s k : Nat) : Device :=
  match d.drive f s with
  | none => d
  | some v =>
    let m := markOf d.recov.cfg (k + 2) (d.reading f) v.snapDue v.expDue
    let d := d.onDrive f s fun v => { v with
      commits := v.commits ++ [(k, m.snap, m.exp)], snapDue := m.snapDue, expDue := m.expDue }
    let d := if m.snap ∧ m.late then d.event .snapshotDeferred [f, k + 2] else d
    let d := d.onFold f fun o => { o with commit := k }
    if f = 0 then { d with recov := { d.recov with commit := k } } else d

/-- Whether this device, as a foster, holds every page of its ward's step k with its foster end (R359); of a ward
whose copy it does not keep nothing is awaited (R372). -/
def Device.wardHeld (d : Device) (k : Nat) : Bool :=
  match d.flock.ward with
  | none => true
  | some r => !d.fosterStep k || d.recov.noCopy.contains r || (match d.recov.ward with
    | some w => w.rank = r && (match w.endStep with
      | some (j, n, _) => j = k && decide (n ≤ w.pages.length)
      | none => false)
    | none => false)

/-- Whether this device has sent every page that its foster is owed in step k, seeding included (R373). -/
def Device.seedSent (d : Device) (v : Drive) (k : Nat) : Bool :=
  !(d.active && d.recov.seeding && d.fosterStep k && d.flock.foster.isSome) ||
    decide (v.xsize / 32768 ≤ d.recov.fosterSent.length)

/-- DONE k goes to the bellwether once the step is closed here and the ward's pages are held (R359). -/
def Device.sendDone (d : Device) (k : Nat) : Device :=
  if d.wardHeld k then d.tellBell (.done k (d.recov.draining ≠ [] ∨ d.recov.exporting ≠ [])) else d

/-- The records of a closing step written (R352 to R358): each leaf's record, and its chain. -/
def Device.writeRecords (d : Device) (f s : Nat) (r : StepRec) : Device :=
  r.leaves.foldl (fun d l =>
    match d.drive f s with
    | some v =>
      let bs := recordBytes v r d.leafCount l
      (d.writeEntry f s bs).onDrive f s fun v => { v with chain := sput v.chain l.leaf (sha512 bs) }
    | none => d) d

/-- What follows the completion of a logged step: the drain of a snapshot step, an export, the commit or DONE,
a seal due, the end of a replay (R359, R364, R365, R375, R378, R387). -/
def Device.afterClose (d : Device) (f s : Nat) (r : StepRec) : Device :=
  let k := r.number
  let high := ((d.drive f s).bind (·.high)).getD k
  let d := if d.recov.state = 3 ∧ high ≤ k then
      { d with recov := { d.recov with state := if d.recov.seeding then 4 else 0 } } else d
  let d := match d.drive f s with | some v => if r.snap then d.startDrain f v k else d | none => d
  let d := if r.exp then ({ d with recov := { d.recov with
      exporting := nins d.recov.exporting f, exportReady := true } }).event .exportReady [f, k] else d
  let d := if (k % 1024 = 0 ∨ d.recov.signLate) ∧ !d.recov.sealDue.contains (f, s) then
      { d with recov := { d.recov with sealDue := d.recov.sealDue ++ [(f, s)] } } else d
  let d := { d with recov := { d.recov with signLate := false } }
  if d.active then d.sendDone k else d.ownCommit f s k

/-- The open step of a drive closes; its records are written, its STEP completes (R356, R419). -/
def Device.closeStep (d : Device) (f s : Nat) : Device :=
  match d.drive f s with
  | none => d
  | some v =>
    match v.opened with
    | none => d
    | some r =>
      if v.stopped.isSome ∨ !d.mayClose f s ∨ (!v.unlogged ∧ !d.seedSent v r.number) then d else
      let close (d : Device) : Device := d.onDrive f s fun v => { v with opened := none, closed := some r.number, past := v.past ++ [(r.number, v.chain)] }
      let detail := (if r.snap then 1 else 0) + (if r.exp then 2 else 0)
      if v.unlogged then (close d).completeStep (some r) 0 0 else
      match d.recordBad f v r with
      | some leaf => d.bookMismatch f s leaf r.number
      | none => ((close (d.writeRecords f s r)).completeStep (some r) 0 detail).afterClose f s r
/-- STEP_CLOSE; `err` is a row of the studbook buffer that reports an error while the records are written, of which an
uncorrectable one abandons them (R154, R156). -/
def Device.doStepClose (d : Device) (f s : Nat) (err : Option (Nat × Ecc)) : Device :=
  match err with
  | none => d.closeStep f s
  | some (row, e) =>
    if 2048 ≤ row then d else
    let d := if e = .uncorrectable then d.abandonRecords else d
    (d.rowReport .studbook row e).closeStep f s
/-- STEP_CLOSE. -/
def execStepClose (f slot : Nat) (err : Option (Nat × Ecc)) (s : State) : Host.Outcome State Fault Refusal :=
  s.act (·.doStepClose f slot err)

/-! ## LAUNCH (R415, R416) -/

/-- Fields of a launch block (table Launch block, 1,024 bytes). -/
def driveOf (b : List Byte) (leaves : List Nat) : Drive :=
  let pens := u b 0xE0 4
  { first := u b 0 8, pbase := u b 0x10 2, psize := u b 0x12 2, tfirst := u b 0x14 2, tcount := u b 0x16 2
    gfirst := u b 0x18 2, gcount := u b 0x1A 2, hfirst := u b 0x1C 2, hcount := u b 0x1E 2
    pstride := u b 0x20 4, tstride := u b 0x24 4, snap := u b 0x28 8, sbase := u b 0x30 8, ssize := u b 0x38 8
    hbase := u b 0x40 8, hsize := u b 0x48 8, xbase := u b 0x50 8, xsize := u b 0x58 8
    digest := (b.drop 0x60).take 64, pens := pens, unlogged := bit (u b 0xE4 4) 0
    streams := (List.range pens).map fun q => (u b (0x100 + 16 * q) 8, u b (0x108 + 16 * q) 8)
    watchBase := 0, paused := none, stopped := none, ended := false, opened := none, prepared := none, last := 0, closed := none
    high := none, chain := leaves.map fun l => (l, (b.drop 0xA0).take 64), past := [], sbPos := 0, hbPos := 0, usage := 0
    dmas := [], commits := [], snapDue := false, expDue := false, trig := false, abandoned := false, written := [] }

/-- Faults of a launch block in ascending offset: the offset, and whether the field is faulty (R310, R415, R416). -/
def Device.launchFaults (d : Device) (f : Nat) (v : Drive) (flags : Nat) : List (Nat × Bool) :=
  let mib := 2 ^ 20
  let logged := !v.unlogged
  let top := v.xbase + v.xsize
  [ (0x000, decide (2 ^ 48 ≤ v.first)),
    (0x010, decide (63 < v.pbase)),
    (0x012, decide (v.psize < 6 ∨ 64 < v.psize ∨ 64 < v.pbase + v.psize)),
    (0x014, decide (3071 < v.tfirst)),
    (0x016, decide (3072 < v.tfirst + v.tcount)),
    (0x018, decide (d.globals < v.gfirst)),
    (0x01A, decide (d.globals < v.gfirst + v.gcount)),
    (0x01C, decide (4095 < v.hfirst)),
    (0x01E, decide (4096 < v.hfirst + v.hcount)),
    (0x020, decide (v.pstride % 8 ≠ 0)),
    (0x028, logged && decide (v.snap % mib ≠ 0 ∨ d.share < top + v.snap)),
    (0x030, logged && decide (v.sbase % mib ≠ 0 ∨ d.share < v.sbase + v.ssize)),
    (0x038, logged && decide (v.ssize % mib ≠ 0 ∨ v.ssize = 0)),
    (0x040, logged && decide (v.hbase % 4096 ≠ 0)),
    (0x048, logged && decide (v.hsize % 4096 ≠ 0 ∨ v.hsize < 16384)),
    (0x050, logged && decide (v.xbase % 32768 ≠ 0 ∨ d.share < top)),
    (0x058, logged && decide (v.xsize % 32768 ≠ 0)),
    (0x0E0, decide (v.pens ≠ (d.foldSites f).length)),
    (0x0E4, decide (4 ≤ flags) || (v.unlogged == d.full)) ]

/-- Slot of the resident drive whose paddock extent a drive's overlaps (R139). -/
def Device.overlap (d : Device) (f : Nat) (v : Drive) : Option Nat :=
  ((d.fold f).drives.find? fun e => e.2.pbase < v.pbase + v.psize ∧ v.pbase < e.2.pbase + e.2.psize).map (·.1)

/-- A logged LAUNCH accepted while the trace runs stops it and clears the shared buffer (R496). -/
def Device.stopTrace (d : Device) : Device :=
  let d := if d.trace.enable then d.event .traceStopped [] else d
  { d with trace := { d.trace with enable := false, buf := [] } }

/-- The chain of a launched drive: an adopted leaf's starts at the digest of the foster header (R384). -/
def Device.adoptChain (d : Device) (v : Drive) : Drive :=
  if d.flock.state = 3 then
    { v with chain := v.chain.map fun e => (e.1, ((d.recov.heads.find? (·.1 = e.1)).map (·.2)).getD e.2) }
  else v

/-- The logged drive of fold 0 that an active member runs: its lowest resident slot. -/
def Device.flockDrive (d : Device) : Option (Nat × Drive) := (d.fold 0).drives.head?

/-- A member has loaded everything and, where it hosts leaves, holds a resident drive compiled for them: the
bellwether is told (R385). -/
def Device.sayLoaded (d : Device) : Device :=
  let fits : Bool := match d.flockDrive with
    | some (_, v) => v.chain.map (·.1) = d.leavesHosted
    | none => false
  if d.flock.state = 3 ∧ d.recov.state = 2 ∧ d.recov.loading = [] ∧ fits then
    d.tellBell (.manage (.loaded d.flock.rank))
  else d

/-- A drive becomes resident with its first step prepared; the step opens at once unless the flock recovers,
and the drive runs if no drive of the fold does (R415). COMMITs of its steps that an earlier drive has left are none of its
own (R361). -/
def Device.seat (d : Device) (f s : Nat) (v : Drive) (r : StepRec) (ms : List DmaD) : Device :=
  let cfg := d.recov.cfg
  let v := d.adoptChain { v with
    last := v.first, dmas := numberDmas v.first ms
    snapDue := snapPoint cfg v.first || snapPoint cfg (v.first + 1)
    expDue := exportPoint cfg v.first || exportPoint cfg (v.first + 1) }
  let v := { v with past := [(v.first - 1, v.chain)] }
  let d := d.onSites (d.foldSites f) fun t => { t with lostNan := 0 }
  let d := if v.unlogged then d else d.stopTrace
  let hold := d.flock.state = 3
  let others := (d.fold f).drives.any fun e => e.1 ≠ s && !e.2.unlogged
  let d := if v.unlogged ∨ others ∨ !d.active then d else
    { d with recov := { d.recov with commits := d.recov.commits.filter fun (e : Nat × Bool × Bool) => e.1 < v.first } }
  let v := if hold then { v with prepared := some r } else { v with opened := some r, watchBase := d.now }
  let d := d.onFold f fun o => { o with drives := sput o.drives s v }
  let d := if hold then d else d.openDue f s
  if (d.fold f).running.isNone then d.startDrive f s else d

/-- A launch takes its slot; on a recovering flock the bellwether hears of it once the loads are complete too
(R385). -/
def Device.install (d : Device) (f s : Nat) (v : Drive) (r : StepRec) (ms : List DmaD) : Device :=
  let e := (d.seat f s v r ms).startBatches f s
  if d.flock.state = 3 ∧ !v.unlogged then e.sayLoaded else e

/-- LAUNCH: its checks in the order of R415, then the drive is resident. -/
def Device.doLaunch (d : Device) (sq idx : Nat) (block : HostRead) (reads : StepReads) : Device :=
  d.begin sq idx 0x10 fun x =>
    let f := d.ringFold sq
    let s := x.slot
    if (d.fold f).state = 1 ∨ !d.mayRead (ownerFn (d.ring sq).owner) then d
    else if x.u 8 8 % 64 ≠ 0 then d.complete sq idx 0x01 8
    else if (d.drive f s).isSome then d.complete sq idx 0x08 0
    else match hostBytes block 1024 with
    | .error none => d
    | .error (some (st, detail)) => d.complete sq idx st detail
    | .ok b =>
      let v := driveOf b d.leavesHosted
      match (d.launchFaults f v (u b 0xE4 4)).find? (·.2) with
      | some e => d.complete sq idx 0x06 e.1
      | none =>
        match d.overlap f v with
        | some o => d.complete sq idx 0x07 o
        | none =>
          let restore := bit (u b 0xE4 4) 1
          match d.prepStep f v v.first 0 restore none reads with
          | .error none => d
          | .error (some (st, detail)) => d.complete sq idx st detail
          | .ok (r, ms) =>
            let r := if restore then r else { r with starts := some (v.streams.map (·.1)) }
            let bad := d.digestBad f v r
            let d := d.install f s v r ms
            (match bad with | some leaf => d.bookMismatch f s leaf v.first | none => d).complete sq idx 0 0
/-- LAUNCH. -/
def execLaunch (sq idx : Nat) (block : HostRead) (reads : StepReads) (s : State) : Host.Outcome State Fault Refusal :=
  s.act (·.doLaunch sq idx block reads)

/-! ## RUN (R82, R421) -/

/-- Detail of a drive stopped with a status: the status and the fold pen (R419). -/
def StopRec.detail (r : StopRec) : Nat := r.status + r.pen % 64 * 256

/-- RUN: the drive of its slot becomes the one that executes, pre-empting the running one, which is stopped from now on
(R205, R421). -/
def Device.doRun (d : Device) (sq idx : Nat) : Device :=
  d.begin sq idx 0x12 fun x =>
    let f := d.ringFold sq
    let s := x.slot
    match d.drive f s with
    | none => d.complete sq idx 0x09 0
    | some v =>
      match v.stopped with
      | some st => d.complete sq idx 0x0B st.detail
      | none =>
        if v.ended ∨ (d.fold f).running = some s then d.complete sq idx 0 0
        else if (d.fold f).incoming.isSome then d
        else if (d.fold f).running.isNone then
          let d := d.startDrive f s
          if (d.foldSites f).any (fun n => decide (0 < (d.site n).level)) then d.complete sq idx 0 0 else d.markStarted sq idx
        else
          let d := d.markStarted sq idx
          let d := match (d.fold f).running with
            | some o => d.onDrive f o fun v => { v with paused := some d.now }
            | none => d
          let d := d.onFold f fun o => { o with incoming := some s }
          (d.foldSites f).foldl (fun d n => d.stopPen n .preempt) d
/-- RUN. -/
def execRun (sq idx : Nat) (s : State) : Host.Outcome State Fault Refusal := s.act (·.doRun sq idx)

/-! ## END (R62, R422) -/

/-- A switch under way from a drive that is about to go completes at once: its pens take up the incoming one. -/
def Device.finishSwitch (d : Device) (f s : Nat) : Device :=
  match (d.fold f).occ, (d.fold f).incoming with
  | some o, some s' =>
    if o ≠ s then d else
    match d.drive f s' with
    | none => d.onFold f fun x => { x with incoming := none }
    | some v' =>
      let left := (d.foldSites f).filter fun n => (slook (d.site n).saved s).isNone
      let d := left.foldl (fun d n => d.onSite n fun t =>
        t.restore s' (saveArea v') (v'.fresh (v'.entryAt (d.penOf n)) (d.streamLimit n v' (v'.entryAt (d.penOf n))))) d
      d.switched f s' v'
  | _, _ => d

/-- Logging ends with the END of the last resident logged drive (R496). -/
def Device.logging (d : Device) : Bool := d.folds.any fun o => o.drives.any fun e => !e.2.unlogged

/-- A slot released: its drive, what the pens hold or saved of it, its comparators, its requests (R422). -/
def Device.releaseSlot (d : Device) (f s : Nat) : Device :=
  let d := d.finishSwitch f s
  let ss := d.foldSites f
  let d := (d.orphan ss s).dropJobs fun j => match j with | .batch g t _ => g = f && t = s | _ => false
  let d := if (d.fold f).occ = some s then
      (ss.foldl (fun d n => d.dropFeed n) (d.releaseWaits ss)).onSites ss fun t => { t with
        seqr := .empty, races := List.replicate 8 [], node := { Node.empty with resendCount := t.node.resendCount }, live := [], owner := [] }
    else d
  let d := d.onSites ss fun t => { t with
    saved := sdel t.saved s, arrived := t.arrived.filter fun k => k / 64 ≠ s, stops := t.stops.filter (· ≠ .drive), replay := none, inRow := 0 }
  let d := d.abandon f s
  d.onFold f fun o => { o with
    drives := sdel o.drives s, musters := o.musters.filter fun e => e.1 / 64 ≠ s
    streams := o.streams.filter (·.1 ≠ s)
    running := if o.running = some s then none else o.running
    occ := if o.occ = some s then none else o.occ
    incoming := if o.incoming = some s then none else o.incoming }

/-- A drive ended without a report: stopped without a status if it still went on, its STEPs aborted (R419,
R422). -/
def Device.endDrive (d : Device) (f s : Nat) : Device :=
  match d.drive f s with
  | none => d
  | some v =>
    let d := d.onDrive f s fun v => { v with stopped := some (v.stopped.getD ⟨0, 0, 0, 0, d.now⟩), opened := none, prepared := none }
    let d := d.abandon f s
    let d := if v.stopped.isSome then d else
      let ran := (d.fold f).running = some s
      let d := d.onFold f fun o => { o with running := if ran then none else o.running }
      if ran then d.onSites (d.foldSites f) (·.stop .drive) else d
    d.abortSteps f s 0x0C

/-- A drive report (table Drive report). The pen cycles used are those billed plus a free value: cycles are not
counted (log entry 11). -/
def Device.driveReport (d : Device) (v : Drive) : List Byte :=
  let r := v.stopped.getD ⟨0, 0, 0, 0, 0⟩
  leBytes 8 ((v.usage + Config.unnamed d.free) % 2 ^ 64) ++ leBytes 8 (v.closed.getD 0 % 2 ^ 48) ++
  leBytes 1 r.status ++ leBytes 1 (if r.source = 0 then r.pen else 0) ++ leBytes 1 r.source ++ zeros 5 ++
  leBytes 8 r.addr ++ leBytes 8 r.watch ++ zeros 24

/-- END: the drive ends, its report is written, its slot is free (R422). -/
def Device.doEndDesc (d : Device) (sq idx : Nat) : Device :=
  d.begin sq idx 0x13 fun x =>
    let f := d.ringFold sq
    match d.drive f x.slot with
    | none => d.complete sq idx 0x09 0
    | some _ =>
      if x.u 8 8 % 64 ≠ 0 then d.complete sq idx 0x01 8 else
      let d := d.endDrive f x.slot
      let d := match d.drive f x.slot with
        | some v => if x.u 8 8 = 0 then d else (d.hostWrite (x.u 8 8) (d.driveReport v)).draw
        | none => d
      (d.releaseSlot f x.slot).complete sq idx 0 0
/-- END. -/
def execEndDescriptor (sq idx : Nat) (s : State) : Host.Outcome State Fault Refusal := s.act (·.doEndDesc sq idx)

/-! ## PLAN and groups (R342, R423, R424) -/

/-- Offset of the field that breaks the table Plan entry. -/
def Device.planFault (d : Device) (x : Desc) : Option Nat :=
  let op := x.u 9 1
  let l := d.leafCount
  [ (9, decide (3 < op)),
    (10, decide (op ≤ 1 ∧ x.u 10 1 ≠ 8) || (Fmt.ofCode (x.u 10 1)).isNone),
    (12, decide (op = 1) && bit (x.u 12 2) 8),
    (14, decide (op = 3 ∧ l ≤ x.u 14 1)),
    (16, decide (op ≤ 1 ∧ x.u 16 8 % (64 * l) ≠ 0)),
    (32, decide (bits (x.u 32 4) 24 17 ≠ 0) && !d.ownsTally 0 (bits (x.u 32 4) 16 0)) ].find? (·.2) |>.map (·.1)

/-- Whether an accepted COLLECT of a plan has not finished (R423). -/
def Device.planBusy (d : Device) (plan : Nat) : Bool :=
  d.coll.queue.any (fun c => c.plan = plan) || d.coll.slots.any fun e => e.2.coll.plan = plan

/-- PLAN: writes the plan entry (R423). -/
def Device.doPlan (d : Device) (sq idx : Nat) : Device :=
  d.begin sq idx 0x20 fun x =>
    let p := x.u 8 1
    if 1 < d.foldCount then d.complete sq idx 0x13 0
    else if !d.active ∨ d.flock.state ≠ 2 then d.complete sq idx 0x15 0
    else if d.planBusy p then d.complete sq idx 0x14 0
    else match d.planFault x with
    | some o => d.complete sq idx 0x01 o
    | none =>
      let e : PlanE :=
        { op := x.u 9 1, fmt := x.u 10 1, shears := bit (x.u 11 1) 0, foster := bit (x.u 11 1) 1
          group := if bit (x.u 12 2) 8 then some (x.u 12 1) else none, root := x.u 14 1, size := x.u 16 8
          out := x.u 24 8, tally := bits (x.u 32 4) 16 0, inc := bits (x.u 32 4) 24 17 }
      let d := { d with coll := { d.coll with plans := sput d.coll.plans p e } }
      (if d.flock.isBell then d else d.tellBell (.manage (.planGroup d.flock.rank p e.group))).complete sq idx 0 0
/-- PLAN. -/
def execPlan (sq idx : Nat) (s : State) : Host.Outcome State Fault Refusal := s.act (·.doPlan sq idx)

/-- Hops of the dimension-ordered route between two ranks: each rank with its egress port (R326). -/
def Device.pathGo (d : Device) : Nat → Nat → Nat → List (Nat × Nat)
  | 0, _, _ => []
  | k + 1, a, b => match d.hopTo a b with
    | none => []
    | some p => (a, p) :: Device.pathGo d k (d.neighbour a p) b

/-- Ranks of a mask. -/
def ranksOf (mask : Nat) : List Nat := (List.range 64).filter fun r => bit mask r

/-- The entry of a group's tree on a rank, none where the rank is not on it (R342). -/
def Device.groupEntry (d : Device) (src mask r : Nat) : Option (Nat × List Nat × Bool × Nat × Nat) :=
  let hops := (ranksOf mask).flatMap fun m => d.pathGo 7 src m
  let egress := ((hops.filter (·.1 = r)).map (·.2)).foldl nins []
  let arrival := hops.find? fun h => d.neighbour h.1 h.2 = r
  let ingress := if r = src then 6 else match arrival with | some h => peerOf h.2 | none => 6
  if bit mask r ∨ r = src ∨ egress ≠ [] then some (ingress, egress, bit mask r, src, mask) else none

/-- A group entry set or removed on this device. -/
def Device.setGroup (d : Device) (g : Nat) (e : Option (Nat × List Nat × Bool × Nat × Nat)) : Device :=
  { d with coll := { d.coll with groups := match e with
    | some (i, out, here, src, mask) => sput d.coll.groups g ⟨i, out, here, src, mask⟩
    | none => sdel d.coll.groups g } }

/-- A management message to every other admitted rank. -/
def Device.tellMembers (d : Device) (g : Nat → Option FlockMsg) : Device :=
  ((ranksOf d.flock.members).filter (· ≠ d.flock.rank)).foldl (fun d r =>
    match g r with | some m => d.tell r (.manage m) | none => d) d

/-- GROUP_OPEN: a group's tree is built and its entries written on every member and transit device (R342). -/
def Device.doGroupOpen (d : Device) (sq idx : Nat) : Device :=
  d.begin sq idx 0x21 fun x =>
    if !d.leads then d.complete sq idx 0x15 0 else
    match (List.range 256).find? fun g => (slook d.coll.live g).isNone with
    | none => d.complete sq idx 0x16 0
    | some g =>
      let src := x.u 8 1
      let mask := x.u 16 8
      let d := { d with
        coll := { d.coll with live := sput d.coll.live g (ranksOf mask) }
        flock := { d.flock with groupsLive := d.flock.groupsLive + 1 } }
      let d := match d.groupEntry src mask d.flock.rank with | some e => d.setGroup g (some e) | none => d
      let d := d.tellMembers fun r => (d.groupEntry src mask r).map fun e => .group g (some e)
      d.complete sq idx 0 g
/-- GROUP_OPEN. -/
def execGroupOpen (sq idx : Nat) (s : State) : Host.Outcome State Fault Refusal := s.act (·.doGroupOpen sq idx)

/-- GROUP_CLOSE: a group that no plan of a member names is freed on every member (R424). -/
def Device.doGroupClose (d : Device) (sq idx : Nat) : Device :=
  d.begin sq idx 0x22 fun x =>
    let g := x.u 8 1
    if !d.leads then d.complete sq idx 0x15 0
    else if d.coll.plans.any (fun e => e.2.group = some g) || d.coll.named.any (fun e => e.2.2 = g) then d.complete sq idx 0x17 0
    else
      let was := (slook d.coll.live g).isSome
      let d := { d with
        coll := { d.coll with live := sdel d.coll.live g }
        flock := { d.flock with groupsLive := if was then d.flock.groupsLive - 1 else d.flock.groupsLive } }
      let d := (d.setGroup g none).tellMembers fun _ => some (.group g none)
      d.complete sq idx 0 0
/-- GROUP_CLOSE. -/
def execGroupClose (sq idx : Nat) (s : State) : Host.Outcome State Fault Refusal := s.act (·.doGroupClose sq idx)

end Sys2Proof.Machine
end

