-- ==== Sys2Proof/Machine/Flock.lean ====
section
/-!
DEFINITION. The flock: routes, leaves, fosters, formation, dissolution, readmission, heartbeats (11, R324 to
R333; 12, R367, R380, R390; 14, R439, R441).
-/
namespace Sys2Proof.Machine

/-! ## Measurement registers (R439) -/

/-- A measurement register extended with a value. -/
def Device.extendBy (d : Device) (i : Nat) (m : List Byte) : Device :=
  { d with sec := { d.sec with measure := d.sec.measure.modify i fun r => sha512 (r ++ m) } }
/-- A measurement register extended with the value that stands for a content (log entry 11). -/
def Device.measure (d : Device) (i : Nat) (content : List Nat) : Device :=
  d.extendBy i ((List.range 64).map (Config.measured i content))

/-! ## Routes (R326, R327) -/

/-- Devices of the shape. -/
def Device.shape (d : Device) : Nat := d.dim 0 * d.dim 1 * d.dim 2

/-- Hops along dimension i from rank a to the coordinate of rank b, upward or downward: each as rank and port. Fuel is the
size of a dimension. -/
def Device.legGo (d : Device) (i : Nat) (up : Bool) (b : Nat) : Nat → Nat → List (Nat × Nat)
  | 0, _ => []
  | n + 1, a =>
    if d.coord a i = d.coord b i then [] else
    let port := 2 * i + (if up then 0 else 1)
    (a, port) :: d.legGo i up b n (d.neighbour a port)

/-- The dimension-ordered path from rank a to rank b with a direction for each dimension. -/
def Device.ordered (d : Device) (a b : Nat) (dirs : List Bool) : List (Nat × Nat) :=
  let x := d.legGo 0 (dirs.getD 0 true) b 4 a
  let a' := d.withCoord a 0 (d.coord b 0)
  let y := d.legGo 1 (dirs.getD 1 true) b 4 a'
  x ++ y ++ d.legGo 2 (dirs.getD 2 true) b 4 (d.withCoord a' 1 (d.coord b 1))

/-- Directions for each dimension, the shorter one first in each, the positive one on a tie (R326). -/
def Device.dirsTo (d : Device) (a b : Nat) : List (List Bool) :=
  let pick (i : Nat) : List Bool :=
    let up := (d.coord b i + d.dim i - d.coord a i) % d.dim i
    if up ≤ d.dim i - up then [true, false] else [false, true]
  (pick 0).flatMap fun x => (pick 1).flatMap fun y => (pick 2).map fun z => [x, y, z]

/-- Paths from rank a to rank b, in order of preference: the dimension-ordered ones, then those that first step aside by one
port, then by two (R326). -/
def Device.pathsTo (d : Device) (a b : Nat) : List (List (Nat × Nat)) :=
  let direct (a : Nat) : List (List (Nat × Nat)) := (d.dirsTo a b).map (d.ordered a b)
  let aside (a : Nat) : List (Nat × Nat) := ([0, 1, 2, 3, 4, 5].filter fun p => 1 < d.dim (p / 2)).map (a, ·)
  direct a ++ (aside a).flatMap (fun h => (direct (d.neighbour h.1 h.2)).map (h :: ·)) ++
    (aside a).flatMap fun h => (aside (d.neighbour h.1 h.2)).flatMap fun g =>
      (direct (d.neighbour g.1 g.2)).map fun p => h :: g :: p

/-- Whether a path may be used: it ends at its destination, comes to no rank twice, and passes no failed link
and no rank that is not admitted. -/
def Device.pathOk (d : Device) (a b : Nat) (path : List (Nat × Nat)) : Bool :=
  let ends := path.map fun h => d.neighbour h.1 h.2
  ends.getLast? = some b && !ends.contains a && decide ends.Nodup &&
  path.all (fun h => !d.flock.badLinks.contains h && !d.flock.badLinks.contains (d.neighbour h.1 h.2, peerOf h.2)) &&
  ends.all fun r => r = b || bit d.flock.members r

/-- Ports by which a rank may be reached, in order of preference. -/
def Device.portsTo (d : Device) (a b : Nat) : List Nat :=
  ((d.pathsTo a b).filter (d.pathOk a b)).filterMap fun p => p.head?.map (·.2)

/-- Routing entry of rank a for rank b: the primary, and an alternate with another first hop (R326). -/
def Device.routeOf (d : Device) (a b : Nat) : Route :=
  if !bit d.flock.members b then ⟨false, 0, 0⟩
  else if a = b then ⟨true, 0, 0⟩
  else match d.portsTo a b with
    | [] => ⟨false, 0, 0⟩
    | p :: rest => ⟨true, p, (rest.find? (· ≠ p)).getD p⟩

/-- This device's own routing table computed. -/
def Device.ownRoutes (d : Device) : Device :=
  let mine := (List.range 64).filterMap fun b =>
    let t := d.routeOf d.flock.rank b
    if t.valid then some (b, t) else none
  { d with flock := { d.flock with routes := mine } }

/-- Every routing table computed and written: this device's, and a message per entry to the others. -/
def Device.writeRoutes (d : Device) : Device :=
  let d := d.ownRoutes
  ((ranksOf d.flock.members).filter (· ≠ d.flock.rank)).foldl (fun d r =>
    (List.range 64).foldl (fun d b =>
      let t := d.routeOf r b
      d.tell r (.manage (.route b t.prim t.alt t.valid))) d) d

/-! ## Leaves and fosters (R333, R367) -/

/-- Leaf runs of the active ranks, in ascending rank: the first L mod A host one leaf more (R333). -/
def leafRuns (l : Nat) (ranks : List Nat) : List (Nat × Nat × Nat) :=
  let active := ranks.take l
  let a := active.length
  active.zipIdx.map fun x =>
    let big := l % a
    let n := l / a
    (x.1, x.2 * n + min x.2 big, if x.2 < big then n + 1 else n)

/-- Foster of a rank: the first admitted, not failed device with a fold count of 1 met going +x round its ring
(R367). -/
def Device.fosterOf (d : Device) (r : Nat) : Option Nat :=
  ((List.range (d.dim 0 - 1)).map fun i => d.withCoord r 0 ((d.coord r 0 + i + 1) % d.dim 0)).find? fun q =>
    bit d.flock.members q && !d.flock.failed.contains q && sget 0 d.flock.folds q = 1

/-- A device takes its leaf state from the flock's leaves and the foster it is given; a changed foster is to be
seeded (R333, R367, R373). -/
def Device.takeState (d : Device) (standby : Bool) (foster ward : Option Nat) : Device :=
  let mine := d.flock.hosted d.flock.rank
  let seed := foster ≠ d.flock.foster && mine ≠ [] && foster.isSome && bits d.recov.cfg 7 0 ≠ 0
  { d with
    flock := { d.flock with leafCount := mine.length, firstLeaf := mine.headD 0, standby := standby, foster := foster, ward := ward }
    recov := { d.recov with
      ward := d.recov.ward.map fun w => { w with fostering := w.fostering && ward = some w.rank }
      seeding := d.recov.seeding || seed, fosterOk := if seed then false else d.recov.fosterOk } }

/-- Leaves, leaf state and fosters written on every member (R333, R367, R382). -/
def Device.writeLeaves (d : Device) : Device :=
  let active := (d.flock.leaves.map (·.1)).foldl nins []
  let d := d.tellMembers fun _ => some (.members d.flock.members)
  let d := d.tellMembers fun _ => some (.leaves d.flock.leaves)
  let d := d.tellMembers fun r =>
    some (.assign (!active.contains r) (d.fosterOf r) (active.find? fun q => d.fosterOf q = some r))
  d.takeState (!active.contains d.flock.rank) (d.fosterOf d.flock.rank)
    (active.find? fun q => d.fosterOf q = some d.flock.rank)

/-- The bellwether learns of a member's fold count, and chooses fosters afresh (R367). -/
def Device.takeFolds (d : Device) (rank n : Nat) : Device :=
  if !d.flock.isBell ∨ (d.flock.state ≠ 2 ∧ d.flock.state ≠ 3) ∨ !bit d.flock.members rank then d
  else ({ d with flock := { d.flock with folds := sput d.flock.folds rank n } }).writeLeaves

/-- A member's own fold count has changed: the bellwether is told (R367; log entry 131). -/
def Device.tellFolds (d : Device) (n : Nat) : Device :=
  if d.flock.isBell then d.takeFolds d.flock.rank n else d.tellBell (.manage (.folds d.flock.rank n))

/-! ## Formation (R330 to R333) -/

/-- This device's owner key hash as a report gives it (table Attestation report). -/
def Device.ownerField (d : Device) : List Byte := if d.sec.fuses.owner then d.sec.fuses.ownerHash else List.replicate 64 0#8

/-- The approved flag of this device's report (R454). -/
def Device.approvedFlag (d : Device) : Bool := d.sec.approved && !d.sec.lost

/-- Whether the bellwether's crook accepts a report: it verifies, its nonce is the one sent, and its owner key hash, approved
flag and measurement register 1 are the bellwether's own (R441). -/
def Device.reportOk (d : Device) (r : Report) : Bool :=
  r.verified && r.nonceOk && decide (r.ownerHash = d.ownerField) && r.approved == d.approvedFlag &&
    decide (r.register1 = d.sec.measure.getD 1 [])

/-- Whether a device passes R331 and R441 but for its watch and a rank already taken. -/
def Device.admissible (d : Device) (m : MemberInfo) : Bool :=
  m.stage = 4 && m.idrev / 2 ^ 16 = 0x57B4 && bits m.idrev 7 4 = 1 && decide (m.rank < d.shape) && d.reportOk m.report

/-- Whether one device alone can form the flock: no more than one passes R331 but for its watch. -/
def Device.aloneIn (d : Device) (ms : List MemberInfo) : Bool := decide ((ms.filter d.admissible).length ≤ 1)

/-- The devices discovered, in turn, as admitted or refused: each passes R331, one per rank. -/
def Device.sortMembers (d : Device) (ms : List MemberInfo) : List MemberInfo × List MemberInfo :=
  ms.foldl (fun x m =>
    if d.admissible m && (m.watchLocked || (d.aloneIn ms && m.watchFree)) && !x.1.any (·.rank = m.rank) then (x.1 ++ [m], x.2)
    else (x.1, x.2 ++ [m])) ([], [])

/-- Formation ends in the state failed with a reason (R330; table FLOCK_STATUS). -/
def Device.formFailed (d : Device) (reason : Nat) : Device :=
  { d with flock := { d.flock with state := 4, reason := reason } }

/-- Flock state cleared but for the setup registers (R332): routes, leaves, groups, plans, fosters. -/
def Device.clearFlock (d : Device) : Device :=
  { d with
    flock := { Flock.reset d.flock.rank with
      cfg := d.flock.cfg, standbyLo := d.flock.standbyLo, standbyHi := d.flock.standbyHi, laggard := d.flock.laggard }
    coll := .reset
    recov := { d.recov with
      state := 0, ward := none, fosterOk := false, seeding := false, fosterSent := [], fosterEnded := none, dirty := [], commits := []
      dones := [], k0 := 0, seen := [], loading := [], hdr := none, waitPages := [], heads := [], awaited := [], noCopy := [], handover := none } }

/-- Steps 4 to 6 of formation with the devices admitted and the active ranks. -/
def Device.formWith (d : Device) (ok : List MemberInfo) (actives : List Nat) : Device :=
  let me := d.flock.rank
  let d := { d with
    coll := .reset
    flock := { d.flock with
      isBell := true, state := 2, reason := 0
      members := (ok.map fun (m : MemberInfo) => 2 ^ m.rank).sum
      folds := ok.foldl (fun (l : Sparse Nat) (m : MemberInfo) => sput l m.rank m.folds) []
      heard := ok.foldl (fun (l : Sparse Nat) (m : MemberInfo) => sput l m.rank d.watch.age) []
      leaves := leafRuns (bits d.flock.cfg 12 6) actives, failed := [], silent := [], zeroised := false, declared := false } }
  let d := d.ownRoutes
  let d := d.tellMembers fun _ => some (.config d.flock.cfg d.recov.cfg)
  let d := d.writeRoutes.writeLeaves
  let d := d.tellMembers fun _ => some (.state 2 0)
  (d.event .flockFormed [me]).measure 5 [me, d.flock.cfg]

/-- Formation from what was discovered, on the bellwether: devices are refused by name (R331), and what stops it ends it with a
reason (R330; table FLOCK_STATUS). -/
def Device.form (d : Device) (ms : List MemberInfo) : Device :=
  let l := bits d.flock.cfg 12 6
  let me := d.flock.rank
  if l < 16 ∨ 64 < l ∨ bits d.flock.cfg 5 4 = 3 ∨ bits d.flock.cfg 3 2 = 3 ∨ bits d.flock.cfg 1 0 = 3 then d.formFailed 8
  else match ms.find? (·.rank = me) with
  | none => d
  | some own =>
    let ok := (d.sortMembers ms).1
    let d := (d.sortMembers ms).2.foldl (fun d m => d.event .flockRefused [m.rank]) d
    let e : Device := { d with flock := { d.flock with members := (ok.map fun (m : MemberInfo) => 2 ^ m.rank).sum } }
    if !own.watchLocked ∧ !(own.watchFree ∧ d.aloneIn ms) then d.formFailed 7
    else if !d.reportOk own.report then d.formFailed 4
    else if !ok.any (·.rank = me) then d.formFailed 2
    else if !ok.all (·.keysOk) then d.formFailed 5
    else if ok.any fun m => !(e.routeOf me m.rank).valid then d.formFailed 6
    else
      let standby := d.flock.standbyHi * 2 ^ 32 + d.flock.standbyLo
      let actives := (List.range 64).filter fun r => ok.any (fun m => m.rank = r && m.folds = 1) && !bit standby r
      if actives = [] then d.formFailed 3 else d.formWith ok actives

/-- Whether this member's bellwether has failed (R351). -/
def Device.orphaned (d : Device) : Bool :=
  d.flock.state = 3 && !d.flock.isBell && d.flock.failed.contains d.bellRank

/-- FLOCK_FORM: FLOCK_CTRL.form written through PF0 of the device that FLOCK_CFG names, and ignored elsewhere. The
flock is forming until its bellwether has discovered at least itself. -/
def Device.doFlockForm (d : Device) (fn : Nat) (ms : List MemberInfo) : Device :=
  if fn ≠ 0 ∨ !d.full ∨ d.bellRank ≠ d.flock.rank ∨ d.flock.state = 2 ∨ d.flock.state = 3 then d else
  let d := if d.flock.state = 1 then d else
    let c := d.clearFlock
    ({ c with flock := { c.flock with state := 1, since := d.watch.age, isBell := true } } : Device).checkAll
  d.form ms
/-- FLOCK_FORM. -/
def execFlockForm (fn : Nat) (members : List MemberInfo) (s : State) : Host.Outcome State Fault Refusal :=
  s.act (·.fromRegs fn (·.doFlockForm fn members))

/-- FORMATION_TIMEOUT: a flock still forming 200,000,000 ticks after its start has failed with reason 1 (R330). -/
def Device.doFormTimeout (d : Device) : Device :=
  if d.flock.state = 1 ∧ d.flock.isBell ∧ d.flock.since + 200000000 ≤ d.watch.age then d.formFailed 1 else d
/-- FORMATION_TIMEOUT. -/
def execFormationTimeout (s : State) : Host.Outcome State Fault Refusal := s.act (·.doFormTimeout)

/-- A flock ends on this device: keys, routes, plans and groups are discarded (R332). -/
def Device.leaveFlock (d : Device) : Device :=
  let content := [d.flock.rank, d.flock.cfg]
  let d := d.clearFlock
  let d : Device := { d with links := d.links.map fun (l : Link) => { l with keyed := false } }
  d.measure 5 content

/-- FLOCK_DISSOLVE: refused with FLOCK_BUSY while a drive is resident on any member; `resident` names the other members that
hold one, as the bellwether's crook finds (R332; log entry 131). A member whose bellwether has failed leaves the flock by
itself, so that a new one can be formed (R351). -/
def Device.doDissolve (d : Device) (fn : Nat) (resident : List Nat) : Device :=
  if fn ≠ 0 ∨ (!d.flock.isBell ∧ !d.orphaned) ∨ (d.flock.state ≠ 2 ∧ d.flock.state ≠ 3 ∧ d.flock.state ≠ 4) then d
  else if d.anyDrive ∨ (d.flock.isBell ∧ resident.any fun r => bit d.flock.members r) then d.refuse fn 0x04 0x100004 false
  else if d.flock.isBell then (d.tellMembers fun _ => some (.state 0 0)).leaveFlock
  else d.leaveFlock
/-- FLOCK_DISSOLVE. -/
def execFlockDissolve (fn : Nat) (resident : List Nat) (s : State) : Host.Outcome State Fault Refusal :=
  s.act (·.fromRegs fn (·.doDissolve fn resident))

/-- ROUTE_UPDATE: a port of a rank has failed; the bellwether rewrites every routing table (R326). -/
def Device.doRouteUpdate (d : Device) (rank port : Nat) : Device :=
  if !d.flock.isBell ∨ (d.flock.state ≠ 2 ∧ d.flock.state ≠ 3) then d else
  let bad := if d.flock.badLinks.contains (rank, port) then d.flock.badLinks else d.flock.badLinks ++ [(rank, port)]
  ({ d with flock := { d.flock with badLinks := bad } }).writeRoutes
/-- ROUTE_UPDATE. -/
def execRouteUpdate (rank port : Nat) (s : State) : Host.Outcome State Fault Refusal :=
  s.act (·.doRouteUpdate rank port)

/-- RECOV_READMIT: on the bellwether, formation steps 1 to 4 are repeated for a rank, which joins as a standby
(R390). -/
def Device.doReadmit (d : Device) (fn rank : Nat) (m : MemberInfo) : Device :=
  if fn ≠ 0 ∨ !d.leads ∨ bit d.flock.members rank then d else
  if m.rank ≠ rank ∨ !d.admissible m ∨ !m.watchLocked ∨ !m.keysOk then d.event .flockRefused [rank] else
  let d := { d with flock := { d.flock with
    members := d.flock.members ||| 2 ^ rank, failed := ndel d.flock.failed rank, silent := ndel d.flock.silent rank
    folds := sput d.flock.folds rank m.folds, heard := sput d.flock.heard rank d.watch.age
    badLinks := d.flock.badLinks.filter fun l => l.1 ≠ rank ∧ d.neighbour l.1 l.2 ≠ rank } }
  let d := d.ownRoutes.tell rank (.manage (.config d.flock.cfg d.recov.cfg))
  (d.writeRoutes.writeLeaves).tell rank (.manage (.state 2 0))
/-- RECOV_READMIT. -/
def execRecovReadmit (fn rank : Nat) (info : MemberInfo) (s : State) : Host.Outcome State Fault Refusal :=
  s.act (·.fromRegs fn (·.doReadmit fn rank info))

/-- HEARTBEAT: a member sends its own; the bellwether notes when another rank's arrived (R380). -/
def Device.doHeartbeat (d : Device) (v : Via) (rank : Nat) : Device :=
  d.hear v fun d =>
    if d.flock.state ≠ 2 ∧ d.flock.state ≠ 3 then d
    else if v = .own ∧ rank = d.flock.rank ∧ !d.flock.isBell then d.tellBell .heartbeat
    else if d.flock.isBell ∧ bit d.flock.members rank then
      { d with flock := { d.flock with heard := sput d.flock.heard rank d.watch.age } }
    else d
/-- HEARTBEAT. -/
def execHeartbeat (v : Via) (rank : Nat) (s : State) : Host.Outcome State Fault Refusal :=
  s.act (·.doHeartbeat v rank)

end Sys2Proof.Machine
end

