-- ==== Sys2Proof/Machine/Recovery.lean ====
section
/-!
DEFINITION. Fosters, commits, seals, the cote, and the recovery sequence (12, R359 to R394).
-/
namespace Sys2Proof.Machine

/-! ## Foster copies (R367 to R374) -/

/-- Base of the foster region, and its size in bytes (FOSTER_REGION). -/
def Device.fosterBase (d : Device) : Nat := 2 ^ 30 * bits d.recov.fosterRegion 15 0
/-- Size of the foster region in bytes. -/
def Device.fosterSize (d : Device) : Nat := 2 ^ 30 * bits d.recov.fosterRegion 31 16
/-- Offset of a page's slot in the foster region (table Foster region). -/
def fosterSlot (page slot : Nat) : Nat := 65536 + 32768 * (2 * page + slot)

/-- Base and size of a ward's extent: carried by a packet sent apart from a plan, else from this device's own
drive by R369. -/
def Device.wardExtent (d : Device) (p : Packet) : Option (Nat × Nat) :=
  if p.node = 0 then some (p.addr % 2 ^ 46, (p.tally + p.inc * 2 ^ 17) * 32768)
  else d.flockDrive.map fun e => (e.2.xbase, e.2.xsize / (max 1 d.leavesHosted.length) * (d.flock.hosted p.src).length)

/-- The record of a ward, new where this device held none of it. -/
def Device.wardOf (d : Device) (rank base size : Nat) : Ward :=
  match d.recov.ward with
  | some w => if w.rank = rank ∧ w.size = size then w else ⟨rank, base, size, none, d.flock.hosted rank, [], [], [], none, true⟩
  | none => ⟨rank, base, size, none, d.flock.hosted rank, [], [], [], none, true⟩

/-- A message to the bellwether and to the ward on whether its foster holds a committed copy. -/
def Device.tellWard (d : Device) (ward : Nat) (ok : Bool) : Device :=
  (d.tellBell (.manage (.fosterState ward ok))).tell ward (.manage (.fosterState ward ok))

/-- DONE for the ward's foster step goes out once everything of it is held: on a standby alone, on an active
device once its own step has closed (R359). -/
def Device.wardDone (d : Device) (was : Bool) (k : Nat) : Device :=
  if was ∨ !d.wardHeld k then d
  else if d.flock.standby ∨ (d.fold 0).drives.any (fun e => match e.2.closed with | some c => decide (k ≤ c) | none => false) then
    d.tellBell (.done k (d.recov.draining ≠ [] ∨ d.recov.exporting ≠ []))
  else d

/-- Step of the foster end held. -/
def Device.endHeld (d : Device) : Nat :=
  match d.recov.ward with
  | some w => (match w.endStep with | some (k, _, _) => k | none => 0)
  | none => 0

/-- A foster packet lands in the slot of its page that is not current (R371); moments that ride with a plan are
joined by the copy record of the plan's all-gather (R370). -/
def Device.landFoster (d : Device) (p : Packet) : Device :=
  match d.wardExtent p with
  | none => d
  | some (base, size) =>
    if d.fosterSize < 65536 + 2 * size + size / 262144 then
      if d.recov.noCopy.contains p.src then d
      else
        let k := (d.flockDrive.bind (·.2.closed)).getD 0
        let was := d.flock.standby || d.wardHeld k
        ((({ d with recov := { d.recov with noCopy := nins d.recov.noCopy p.src } }).event .fosterTooSmall [p.src]).tellWard
          p.src false).wardDone was k
    else
      let was := d.wardHeld d.endHeld
      let w := d.wardOf p.src base size
      let page := p.offset / 32768
      let slot := if w.current.contains page then 0 else 1
      let x := d.fosterBase + fosterSlot page slot
      let d := d.writeLocal 0 (x + p.offset % 32768) p.data []
      let fin : Bool := p.offset % 32768 + p.data.length = (if p.node = 1 then 0x6000 else 32768)
      let d := if fin ∧ p.node = 1 then
          match d.planOf p.plan with
          | some e => d.writeLocal 0 (x + 0x6000) (padTo 8192 (d.readLocal 0 (e.out + p.addr % 2 ^ 46) p.tally)) []
          | none => d
        else d
      let w := if fin then { w with pages := nins w.pages page } else w
      ({ d with recov := { d.recov with ward := some w } }).wardDone was d.endHeld

/-- Whether a foster end is held whose step is not committed: the pages of the next step wait for its COMMIT, since a
page has two slots (R371). -/
def Device.endWaits (d : Device) : Bool := match d.recov.ward with | some w => w.endStep.isSome | none => false

/-- Credits of a packet of the ward that waits are withheld, or owed when it is taken (R318). -/
def Device.holdCredits (d : Device) (k : Nat) (p : Packet) : Device :=
  d.onLink k fun l => { l with owed := l.owed.modify p.pool (· - p.slots) }

/-- What a packet of the ward's copy says: pages, moments, or the foster end with step, page count and record digests (R370). -/
def Device.takeFoster (d : Device) (p : Packet) : Device :=
  if p.node ≠ 2 then d.landFoster p else
  match d.recov.ward with
  | none => d
  | some w =>
    if d.flock.ward ≠ some w.rank ∨ p.src ≠ w.rank ∨ d.recov.noCopy.contains w.rank then d else
    let u (o n : Nat) : Nat := leNat ((p.data.drop o).take n)
    let digests := chunks 64 (p.data.length / 64) (p.data.drop 16)
    let d := { d with recov := { d.recov with ward := some { w with endStep := some (u 0 8, u 8 8, digests) } } }
    d.wardDone false (u 0 8)

/-- A packet of the ward's copy arrives; behind a foster end whose step is not committed it waits, and its credits with it,
since a page has two slots (R371; log entry 130). -/
def Device.fosterComes (d : Device) (k : Nat) (p : Packet) : Device :=
  if d.flock.state ≠ 2 ∧ d.flock.state ≠ 3 then d else
  d.deliver k p fun d =>
    if d.endWaits ∨ d.recov.waitPages ≠ [] then
      let d := d.holdCredits k p
      { d with recov := { d.recov with waitPages := d.recov.waitPages ++ [(k, p)] } }
    else d.takeFoster p

/-- FOSTER: a packet of the ward's foster copy (R371). -/
def Device.doFoster (d : Device) (k : Nat) (p : Packet) : Device := if p.node = 2 then d else d.fosterComes k p
/-- FOSTER. -/
def execFoster (k : Nat) (p : Packet) (s : State) : Host.Outcome State Fault Refusal := s.act (·.doFoster k p)

/-- FOSTER_END: the packet of the ward's foster end (R370, R371). -/
def Device.doFosterEnd (d : Device) (k : Nat) (p : Packet) : Device := if p.node = 2 then d.fosterComes k p else d
/-- FOSTER_END. -/
def execFosterEnd (k : Nat) (p : Packet) (s : State) : Host.Outcome State Fault Refusal := s.act (·.doFosterEnd k p)

/-- Packets of the ward that waited are taken, up to the next foster end (R371). Fuel is their number. -/
def Device.takeWaitingPages : Nat → Device → Device
  | 0, d => d
  | n + 1, d =>
    match d.recov.waitPages with
    | [] => d
    | (k, p) :: rest =>
      if d.endWaits then d else
      let d := { d with recov := { d.recov with waitPages := rest } }
      Device.takeWaitingPages n ((d.owe k p).takeFoster p)

/-- A page of a drive's persistent extent sent whole to its foster (R370). -/
def Device.sendPage (d : Device) (f t : Nat) (v : Drive) (page : Nat) : Device :=
  let n := v.xsize / 32768
  let p : Packet := { d.packetTo t 3 9 with
    addr := t * 2 ^ 46 + v.xbase % 2 ^ 46, tally := n % 2 ^ 17, inc := n / 2 ^ 17 }
  let d := d.sendData p (page * 32768) (d.readLocal f (v.xbase + page * 32768) 32768) id
  { d with recov := { d.recov with fosterSent := nins d.recov.fosterSent page } }

/-- FOSTER_SEND: the pages written in a foster step go to the foster; when it is being seeded, every other page
too once the step's SHEARs are done; after the last page of a closed step, the foster end, before any page of the
next step (R370, R373). -/
def Device.doFosterSend (d : Device) (f : Nat) : Device :=
  match d.flock.foster, d.flockDrive with
  | some t, some (s, v) =>
    if f ≠ 0 ∨ !d.active ∨ d.flock.state ≠ 2 ∨ v.stopped.isSome then d else
    let owed := d.endOwed v
    let now : Nat × Nat → Bool := fun e => d.fosterStep e.1 && (match owed with | some k => decide (e.1 ≤ k) | none => true)
    let own := (v.written.filter now).map (·.2)
    let seed := match v.opened with
      | some r => if owed.isNone && d.recov.seeding && d.fosterStep r.number && d.mayClose f s then
          (List.range (v.xsize / 32768)).filter fun p => !d.recov.fosterSent.contains p && !own.contains p else []
      | none => []
    let pages := own ++ seed
    if pages.any fun p => d.poisonLocal f (v.xbase + p * 32768) 32768 then d.stopOpen f s 0x1E else
    let d := pages.foldl (fun d p => d.sendPage f t v p) d
    let d := d.onDrive f s fun v => { v with written := v.written.filter fun e => !now e }
    match owed with
    | some k =>
      let body := leBytes 8 k ++ leBytes 8 d.recov.fosterSent.length ++ v.chain.flatMap (·.2)
      let d := d.sendData { d.packetTo t 3 9 with node := 2 } 0 body id
      { d with recov := { d.recov with fosterEnded := some k, fosterSent := [] } }
    | none => d
  | _, _ => d
/-- FOSTER_SEND. -/
def execFosterSend (f : Nat) (s : State) : Host.Outcome State Fault Refusal := s.act (·.doFosterSend f)

/-! ## DONE and COMMIT (R359 to R362, R371, R374) -/

/-- Ranks whose DONE k the bellwether awaits: the active devices and, on a foster step, the fosters that keep their
wards' copies (R359, R360, R372). -/
def Device.awaitsDone (d : Device) (k : Nat) : List Nat :=
  let fosters := if d.fosterStep k then (d.activeRanks.filter fun r => !d.recov.noCopy.contains r).filterMap d.fosterOf else []
  fosters.foldl nins d.activeRanks

/-- A message to every admitted rank, this one included. -/
def Device.tellAll (d : Device) (m : Vc0) : Device :=
  (ranksOf d.flock.members).foldl (fun d r => d.tell r m) d

/-- Recovery begins (R381): the flock is recovering and every member is told to abort. -/
def Device.beginRecovery (d : Device) (lost layer : Nat) : Device :=
  let d := { d with
    flock := { d.flock with state := 3 }
    recov := { d.recov with state := 1, layer := layer, lost := lost, restarts := 0, dones := [], awaited := [] } }
  (d.tellMembers fun _ => some (.state 3 0)).tellAll (.abort d.recov.k0)

/-- COMMIT k: sent to every member with the marks of step k + 2 (R360, R362); a pending handover follows a
foster step's (R390). -/
def Device.issueCommit (d : Device) (k : Nat) : Device :=
  let cfg := d.recov.cfg
  let busy := d.recov.dones.any fun e => e.2.1 = k && e.2.2
  let first : Bool := match d.flockDrive with
    | some (_, v) => if d.active then decide (k = v.first) else !d.recov.commits.any (·.1 + 1 = k)
    | none => !d.recov.commits.any (·.1 + 1 = k)
  let due := d.recov.snapDue || (d.recov.trig && !d.active) || (first && (snapPoint cfg k || snapPoint cfg (k + 1)))
  let exp := d.recov.expDue || (first && (exportPoint cfg k || exportPoint cfg (k + 1)))
  let m := markOf cfg (k + 2) busy due exp
  let d := { d with recov := { d.recov with
    snapDue := m.snapDue, expDue := m.expDue, trig := d.recov.trig && d.active
    dones := d.recov.dones.filter fun e => e.2.1 ≠ k
    k0 := if d.fosterStep k then k else d.recov.k0 } }
  let d := if m.snap ∧ m.late then d.event .snapshotDeferred [0, k + 2] else d
  let d := d.tellAll (.commit k m.snap m.exp)
  match d.recov.handover with
  | some r => if d.fosterStep k then ({ d with recov := { d.recov with k0 := k } }).beginRecovery r 1 else d
  | none => d

/-- DONE: the bellwether holds DONE k of a rank, and sends COMMIT k when it holds every one (R360). -/
def Device.doDone (d : Device) (v : Via) (rank step : Nat) (reading : Bool) : Device := d.hear v fun d =>
  if !d.leads ∨ !bit d.flock.members rank then d else
  let ds := (d.recov.dones.filter fun e => !(e.1 = rank && e.2.1 = step)) ++ [(rank, step, reading)]
  let d := { d with recov := { d.recov with dones := ds } }
  if (d.awaitsDone step).all fun r => ds.any fun e => e.1 = r && e.2.1 = step then d.issueCommit step else d
/-- DONE. -/
def execDone (v : Via) (rank step : Nat) (reading : Bool) (s : State) : Host.Outcome State Fault Refusal :=
  s.act (·.doDone v rank step reading)

/-- Bit of the slot bitmap set or cleared (table Foster region). -/
def Device.setSlotBit (d : Device) (w : Ward) (page : Nat) (v : Bool) : Device :=
  let x := d.fosterBase + 65536 + 2 * w.size + page / 8
  let b := (d.readLocal 0 x 1).headD 0#8
  let m := BitVec.ofNat 8 (2 ^ (page % 8))
  d.writeLocal 0 x [if v then b ||| m else b &&& ~~~m] []

/-- A foster flips the slots of the pages received and records the step and the digests in the header, whose
layout the spec leaves open (R371; log entry 11). -/
def Device.commitWard (d : Device) (k : Nat) : Device :=
  match d.recov.ward with
  | none => d
  | some w =>
    match w.endStep with
    | none => d
    | some (j, n, ds) =>
      if j ≠ k ∨ w.pages.length < n then d else
      let d := w.pages.foldl (fun d p => d.setSlotBit w p (!w.current.contains p)) d
      let flip (l : List Nat) (p : Nat) : List Nat := if l.contains p then ndel l p else nins l p
      let w := { w with current := w.pages.foldl flip w.current, pages := [], step := some k, digests := ds, endStep := none
                        leaves := d.flock.hosted w.rank }
      let d := (d.writeLocal 0 d.fosterBase ((List.range 65536).map (Config.undefinedByte d.free)) []).draw
      ({ d with recov := { d.recov with ward := some w } }).tellWard w.rank true

/-- COMMIT: the steps it allows may open; on a foster step the dirty bits clear, a foster commits its ward's copy,
a seeded foster is seeded (R361, R371, R373, R374). -/
def Device.doCommit (d : Device) (v : Via) (k : Nat) (snap exp : Bool) : Device := d.hear v fun d =>
  if d.flock.state ≠ 2 then d else
  let d := { d with recov := { d.recov with commits := (d.recov.commits.filter fun (e : Nat × Bool × Bool) => e.1 ≠ k) ++ [(k, snap, exp)] } }
  let d := if d.active then
      ({ d with recov := { d.recov with commit := k } }).onFold 0 fun o => { o with commit := k }
    else d
  if !d.fosterStep k then d else
  let seeded := d.recov.seeding && d.recov.fosterEnded = some k
  let d := { d with recov := { d.recov with
    k0 := k, dirty := [], seeding := d.recov.seeding && !seeded
    state := if seeded ∧ d.recov.state = 4 then 0 else d.recov.state } }
  let d := d.commitWard k
  Device.takeWaitingPages d.recov.waitPages.length d
/-- COMMIT. -/
def execCommit (v : Via) (step : Nat) (snap exp : Bool) (s : State) : Host.Outcome State Fault Refusal :=
  s.act (·.doCommit v step snap exp)

/-! ## ABORT (R381) -/

/-- Whether a status of a stop names an uncorrectable error. -/
def uncorrectable (r : StopRec) : Bool := r.source = 0 && [0x06, 0x09, 0x12, 0x18, 0x1E].contains r.status

/-- The first pen of a fold at which a MUSTER of the drive in the pens waits, with its stream address. -/
def Device.musterWait (d : Device) (f s : Nat) : Option (Nat × Nat) :=
  (d.foldSites f).findSome? fun n =>
    match d.seqrOf f s n with
    | some x => (x.act.find? fun a => a.phase = .waiting && match a.cmd.body with | .muster .. => true | _ => false).map
        fun a => (d.penOf n, a.cmd.addr)
    | none => none

/-- A sequencer emptied, awaiting a step. -/
def Seqr.await (x : Seqr) : Seqr :=
  { Seqr.empty with pc := x.pc, limit := x.limit, ended := false, stepF := true, stepB := true }

/-- A pen's part of a drive reset: queues, races, drove streams, tallies, live accumulators, saved state. -/
def Site.resetDrive (t : Site) (s : Nat) (v : Drive) (holds : Bool) : Site :=
  let t := { t with
    saved := sdel t.saved s, arrived := t.arrived.filter fun k => k / 64 ≠ s
    tally := t.tally.filter fun e => !(v.tfirst ≤ e.1 && e.1 < v.tfirst + v.tcount) }
  if holds then { t with
    seqr := t.seqr.await, races := List.replicate 8 [], node := { Node.empty with resendCount := t.node.resendCount }
    live := [], owner := [], stops := t.stops.filter (· ≠ .drive), replay := none, inRow := 0 }
  else t

/-- A drive reset by a recovery abort: its STEPs complete with ABORTED, its musters end with MUSTER_ABORTED, and
it stays resident awaiting a step descriptor. After an uncorrectable error every page is to be restored, after a step abandoned
for a broken studbook-buffer row too (R381, R384, R419). -/
def Device.resetDrive (d : Device) (f s k0 : Nat) : Device :=
  match d.drive f s with
  | none => d
  | some v =>
    let d := d.onDrive f s fun v => { v with opened := none, prepared := none }
    let d := d.abortSteps f s 0x0C
    let d := match d.musterWait f s with
      | some (pen, addr) => d.stopDrive f s 0 0x0E pen addr
      | none => d.abandon f s
    let holds := decide ((d.fold f).occ = some s)
    let ss := d.foldSites f
    let d := (d.orphan ss s).dropJobs fun j => match j with | .batch g t _ => g = f && t = s | _ => false
    let d := if holds then ss.foldl (fun d n => d.dropFeed n) d else d
    let d := (d.releaseWaits (if holds then ss else [])).onSites (d.foldSites f) (·.resetDrive s v holds)
    let g := f * d.globals + v.gfirst
    let d := { d with gtally := d.gtally.filter fun e => !(g ≤ e.1 && e.1 < g + v.gcount) }
    let high : Option Nat := match v.high, v.closed with
      | some a, some b => some (max a b)
      | none, c => c
      | h, none => h
    let bad := v.abandoned || match v.stopped with | some r => uncorrectable r | none => false
    let d := if bad then { d with recov := { d.recov with
        dirty := (List.range (v.xsize / 32768)).foldl nins d.recov.dirty } } else d
    let d := d.onDrive f s fun v =>
      let v : Drive := v.rollTo k0
      { v with
        stopped := none, paused := none, ended := false, high := high, dmas := [], abandoned := false
        written := v.written.filter fun e => decide (e.1 ≤ k0) }
    d.onFold f fun o => { o with
      running := if holds then some s else o.running
      musters := o.musters.filter fun e => e.1 / 64 ≠ s, streams := o.streams.filter (·.1 ≠ s) }

/-- ABORT: every member stops and resets its drives and takes k0 (R381). -/
def Device.doAbort (d : Device) (v : Via) (k0 : Nat) : Device := d.hear v fun d =>
  if d.flock.state ≠ 2 ∧ d.flock.state ≠ 3 then d else
  let d := [0, 1, 2, 3].foldl (fun d i => d.giveBack i) d
  let d := d.recov.waitPages.foldl (fun d e => d.owe e.1 e.2) d
  let d := { d with
    flock := { d.flock with state := 3 }
    recov := { d.recov with
      state := 1, k0 := k0, commits := (d.recov.commits.filter fun (e : Nat × Bool × Bool) => e.1 ≤ k0)
      fosterSent := [], fosterEnded := some k0, waitPages := []
      ward := d.recov.ward.map fun (w : Ward) => { w with pages := [], endStep := none }
      layer := if d.recov.layer = 0 then 1 else d.recov.layer }
    coll := { d.coll with queue := [], slots := [], lags := [], ended := [] }
    links := d.links.map fun (l : Link) => { l with waiting := l.waiting.filter fun (p : Packet) => p.vc ≠ 3 }
    watch := d.watch.release fun u => match u with | .laggard _ => true | _ => false }
  ((d.fold 0).drives.map (·.1)).foldl (fun d s => d.resetDrive 0 s k0) d
/-- ABORT. -/
def execAbort (v : Via) (k0 : Nat) (s : State) : Host.Outcome State Fault Refusal := s.act (·.doAbort v k0)

/-! ## Failures (R379, R380, R389, R391 to R393) -/

/-- The flock falls back to the next layer; beyond the shared store, recovery is exhausted (R391 to R393). -/
def Device.nextLayer (d : Device) : Device :=
  if d.recov.layer = 1 then { d with recov := { d.recov with layer := 2 } }
  else if d.recov.layer = 2 then { d with recov := { d.recov with layer := 3 } }
  else ({ d with recov := { d.recov with state := 5 } }).event .recoveryExhausted [d.recov.k0]

/-- A failure during recovery restarts it at assignment; the third restart stops the layer (R389). -/
def Device.restart (d : Device) : Device :=
  let n := d.recov.restarts + 1
  let d := { d with recov := { d.recov with restarts := min n 7, state := 1, awaited := [] } }
  if n = 3 then d.nextLayer else d

/-- A rank is lost: no longer admitted. -/
def Device.loseRank (d : Device) (r : Nat) : Device :=
  { d with coll := { d.coll with named := d.coll.named.filter (·.1 ≠ r) }, flock := { d.flock with
    failed := nins d.flock.failed r
    members := if bit d.flock.members r then d.flock.members - 2 ^ r else d.flock.members } }

/-- A failure of a class taken up by the bellwether: a rank lost, or none; whether it asks for a deeper layer. -/
def Device.failure (d : Device) (lost : Option Nat) (deeper : Bool) : Device :=
  if d.recov.state = 5 then d else
  let d := match lost with | some r => d.loseRank r | none => d
  if d.flock.state = 2 then
    let d := d.beginRecovery (lost.getD 63) 1
    if deeper then d.nextLayer else d
  else
    let d := { d with recov := { d.recov with lost := lost.getD d.recov.lost } }
    let d := d.restart
    if deeper ∧ d.recov.restarts ≠ 3 then d.nextLayer else d

/-- Whether a rank's heartbeats still arrive (R380). -/
def Device.beats (d : Device) (r : Nat) : Bool :=
  match slook d.flock.heard r with
  | some t => decide (d.watch.age < t + 3000000)
  | none => false

/-- The bellwether itself has failed: a member is recovering, and no step of it opens any more (R351). -/
def Device.loseBell (d : Device) : Device :=
  if d.flock.state = 2 ∨ d.flock.state = 3 then
    { d with flock := { d.flock with state := 3, failed := nins d.flock.failed d.bellRank } }
  else d

/-- DEVICE_FAILURE: the bellwether receives a report about a rank and classifies it (R379); the failure of the
bellwether is taken up by each member (R351). -/
def Device.takeFailure (d : Device) (rank : Nat) (c : FailCause) : Device :=
  if rank = d.bellRank ∧ (!d.flock.isBell ∨ c = .declared) then d.loseBell
  else if !d.flock.isBell ∨ (d.flock.state ≠ 2 ∧ d.flock.state ≠ 3) ∨ d.flock.failed.contains rank then d else
  match c with
  | .declared | .heartbeat => d.failure (some rank) false
  | .silent => if d.beats rank then d.failure none false else d.failure (some rank) false
  | .linkFailed => d.failure (if d.beats rank then none else some rank) false
  | .watchSkew => if d.watch.state = 1 then d.failure (some rank) false else d
  | .stopped st leaf step =>
    let again := d.recov.seen.contains (leaf, step, st)
    ({ d with recov := { d.recov with seen := d.recov.seen ++ [(leaf, step, st)] } }).failure none again
  | .mismatch _ _ => d.failure none true
  | .loadFailed => d.failure none true
/-- DEVICE_FAILURE: a report arrives. -/
def Device.doDeviceFailure (d : Device) (v : Via) (rank : Nat) (c : FailCause) : Device := d.hear v (·.takeFailure rank c)
/-- DEVICE_FAILURE. -/
def execDeviceFailure (v : Via) (rank : Nat) (cause : FailCause) (s : State) : Host.Outcome State Fault Refusal :=
  s.act (·.doDeviceFailure v rank cause)

/-- MEMBER_LOST: no heartbeat of a rank for 3,000,000 ticks (R380). -/
def Device.doMemberLost (d : Device) (rank : Nat) : Device :=
  if !d.flock.isBell ∧ rank = d.bellRank then d.loseBell
  else if d.flock.isBell ∧ bit d.flock.members rank ∧ rank ≠ d.flock.rank ∧ !d.beats rank then
    d.takeFailure rank .heartbeat
  else d
/-- MEMBER_LOST. -/
def execMemberLost (rank : Nat) (s : State) : Host.Outcome State Fault Refusal := s.act (·.doMemberLost rank)

/-! ## Assignment and loads (R382 to R384) -/

/-- The adopter of a rank's leaves: the admitted standby with a fold count of 1 fewest hops from the rank's
foster, the lowest rank on a tie, else the foster (R382). -/
def Device.adopterOf (d : Device) (lost : Nat) : Option Nat :=
  match d.fosterOf lost with
  | none => none
  | some t =>
    let standbys := (ranksOf d.flock.members).filter fun r =>
      !d.activeRanks.contains r && sget 0 d.flock.folds r = 1 && !d.flock.failed.contains r
    let hops (r : Nat) : Nat := (d.pathGo 8 r t).length
    match standbys.foldl (fun best r => match best with
      | none => some r
      | some b => if hops r < hops b then some r else some b) none with
    | some r => some r
    | none => some t

/-- Address of a page of an extent under the leaves now hosted: the same offset in its leaf's extent (R369,
R383); none where its leaf is not hosted here. -/
def Device.pageAddr (d : Device) (base size : Nat) (leaves : List Nat) (page : Nat) : Option Nat :=
  let e := size / max 1 leaves.length
  let leaf := leaves.getD (page * 32768 / max 1 e) 64
  let mine := d.leavesHosted
  if mine.contains leaf then some (base + mine.idxOf leaf * e + page * 32768 % max 1 e) else none

/-- The image of a fold of a snapshot step, valid and readable under its current cote key (R375, R391, R447). -/
def Device.imageAt (d : Device) (f step : Nat) : Option CoteImage :=
  ([2 * f, 2 * f + 1].filterMap fun i => slook d.cote.slots i).find? fun i => i.key = d.coteKey f ∧ i.step = step

/-- Page number of a load's header; as a page still to be loaded, it stands for those that no header has named yet. -/
def headerPage : Nat := 2 ^ 32 - 1

/-- A load cannot be served: the flock falls back to a deeper layer (R391). -/
def Device.loadFails (d : Device) : Device := d.tellBell (.failure d.flock.rank .loadFailed)

/-- A copy of pages from this device's own foster region into its extent: an adopter that is the lost device's
foster (R383). -/
def Device.copyWard (d : Device) (w : Ward) : Device :=
  (List.range (w.size / 32768)).foldl (fun d p =>
    match d.pageAddr w.base w.size w.leaves p with
    | some x =>
      let slot := if w.current.contains p then 1 else 0
      d.writeLocal 0 x (d.readLocal 0 (d.fosterBase + fosterSlot p slot) 32768) []
    | none => d) { d with recov := { d.recov with heads := d.recov.heads ++ w.leaves.zip w.digests } }

/-- Loads begin: the drives go on from k0, and so do the chains of the device's own leaves. -/
def Device.beginLoad (d : Device) (layer lost k0 : Nat) : Device :=
  let d := ((d.fold 0).drives.map (·.1)).foldl (fun d s => d.onDrive 0 s (·.rollTo k0)) d
  { d with recov := { d.recov with
    state := 2, layer := layer, lost := lost, k0 := k0, loading := [], hdr := none
    heads := match d.flockDrive with | some (_, v) => v.chain | none => [] } }

/-- A load awaited whose pages no header has named yet. -/
def Device.expectLoad (d : Device) : Device := { d with recov := { d.recov with loading := [headerPage] } }

/-- Pages of the device's own leaves asked of its own foster: the dirty ones, or all of them (R384). -/
def Device.pullOwn (d : Device) (all : Bool) (k0 : Nat) : Device :=
  match d.flockDrive, d.flock.foster with
  | some (_, v), some t =>
    let pages := if all then List.range (v.xsize / 32768) else d.recov.dirty
    let had := v.chain.map (·.1)
    let d := { d with recov := { d.recov with hdr := some (v.xbase, v.xsize, had), loading := pages } }
    if pages = [] then d.sayLoaded else d.tell t (.manage (.pull d.flock.rank d.flock.rank k0 pages))
  | _, _ => d.sayLoaded

/-- The foster layer on a device that hosts leaves: an adopter pulls from the lost device's foster, or copies from its
own foster region where it is that foster (R383, R384). -/
def Device.loadFoster (d : Device) (adopts : Bool) (lost k0 src : Nat) : Device :=
  if !adopts then d.pullOwn false k0
  else if src ≠ d.flock.rank then d.expectLoad.tell src (.manage (.pull d.flock.rank lost k0 []))
  else match d.recov.ward with
    | some w => if w.rank = lost ∧ w.step = some k0 then (d.copyWard w).pullOwn true k0 else d.loadFails
    | none => d.loadFails

/-- The cote layer: an adopter pulls from the lost device's cote, a survivor restores its whole extent from its own
(R391). -/
def Device.loadImage (d : Device) (adopts : Bool) (lost k0 : Nat) : Device :=
  if adopts then d.expectLoad.tell lost (.manage (.pull d.flock.rank lost k0 []))
  else match d.imageAt 0 k0 with
    | some i =>
      let d := (List.range (i.size / 32768)).foldl (fun d p =>
        d.writeLocal 0 (i.base + p * 32768) (i.bytes.bytes (p * 32768) 32768) []) d
      let heads := d.leavesHosted.zip i.records
      let d := ((d.fold 0).drives.map (·.1)).foldl (fun d s => d.onDrive 0 s fun v => { v with chain := heads }) d
      ({ d with recov := { d.recov with heads := heads } }).sayLoaded
    | none => d.loadFails

/-- Recovery step 4 on a member: what it restores from the layer, asked for from where it lies (R383, R384, R391);
at the shared-store layer it waits for host software (R392). -/
def Device.takeLoad (d : Device) (layer lost k0 src : Nat) : Device :=
  if d.flock.state ≠ 3 then d else
  let d := d.beginLoad layer lost k0
  let mine := if d.active then d.leavesHosted else []
  let adopts := mine.any fun l => !(d.recov.heads.map (·.1)).contains l
  if mine = [] then d
  else if layer = 3 then d.expectLoad
  else if layer = 1 then d.loadFoster adopts lost k0 src
  else d.loadImage adopts lost k0

/-- The latest snapshot step among those whose images each active device holds valid (R391). -/
def commonImage : List (List Nat) → Option Nat
  | [] => none
  | l :: ls => (l.filter fun k => ls.all (·.contains k)).foldl (fun best k => some (max k (best.getD 0))) none

/-- k0 of a deeper layer: at the cote layer the latest step whose image is valid on every active device, else the
flock falls back to the shared store, whose k0 is the latest export step held for every leaf (R391, R392). -/
def Device.deepen (d : Device) (gone : Bool) (images : List (List Nat)) (exported : Nat) : Device :=
  let d := if d.recov.layer ≠ 2 then d else
    match commonImage images with
    | some k => if gone then d.nextLayer else { d with recov := { d.recov with k0 := k } }
    | none => d.nextLayer
  if d.recov.layer = 3 then { d with recov := { d.recov with k0 := exported } } else d

/-- RECOVERY_ASSIGNMENT: the bellwether gives a lost rank's leaves to an adopter, recomputes routes and fosters, and
starts the loads (R382, R389 to R391). -/
def Device.doAssignment (d : Device) (lost : Nat) (images : List (List Nat)) (exported : Nat) : Device :=
  if !d.flock.isBell ∨ d.flock.state ≠ 3 ∨ d.recov.state ≠ 1 then d else
  let moved := d.recov.handover = some lost && !d.flock.failed.contains lost
  let runs := d.flock.leaves.filter (·.1 = lost)
  let runs := if moved then runs.drop 1 else if d.flock.failed.contains lost then runs else []
  let src := d.fosterOf lost
  let noFoster := runs ≠ [] && d.recov.layer = 1 && (src.isNone || d.recov.noCopy.contains lost)
  let d := if noFoster then d.nextLayer else d
  let d := d.deepen (runs ≠ [] ∧ !d.beats lost) images exported
  let d := match runs, d.adopterOf lost with
    | [], _ => d
    | _, some a => { d with flock := { d.flock with
        leaves := (d.flock.leaves.filter fun e => !runs.contains e) ++ runs.map fun (e : Nat × Nat × Nat) => (a, e.2) } }
    | _, none => d
  let d := { d with recov := { d.recov with handover := none, state := 2, awaited := d.activeRanks } }
  let d := d.writeRoutes.writeLeaves
  let m : FlockMsg := .load d.recov.layer lost d.recov.k0 (src.getD 63)
  (d.tellMembers fun _ => some m).takeLoad d.recov.layer lost d.recov.k0 (src.getD 63)
/-- RECOVERY_ASSIGNMENT. -/
def execRecoveryAssignment (lost : Nat) (images : List (List Nat)) (exported : Nat) (s : State) :
    Host.Outcome State Fault Refusal := s.act (·.doAssignment lost images exported)

/-- A page of a foster copy or its header lands where it is restored, part by part: the header when its last part is there
(R383). -/
def Device.landLoad (d : Device) (page off : Nat) (data : List Byte) : Device :=
  if page = headerPage then
    let data := d.recov.hdrPart ++ data
    if data.length < 20 ∨ data.length < 20 + 64 * u data 18 2 then { d with recov := { d.recov with hdrPart := data } } else
    let d := { d with recov := { d.recov with hdrPart := [] } }
    let base := u data 0 8
    let size := u data 8 8
    let leaves := (List.range (u data 18 2)).map (u data 16 2 + ·)
    let heads := leaves.zip (chunks 64 leaves.length (data.drop 20))
    let d := { d with recov := { d.recov with hdr := some (base, size, leaves), heads := d.recov.heads ++ heads } }
    { d with recov := { d.recov with
      loading := (List.range (size / 32768)).filter fun p => (d.pageAddr base size leaves p).isSome } }
  else match d.recov.hdr with
    | some (base, size, leaves) =>
      if !d.recov.loading.contains page then d else
      match d.pageAddr base size leaves page with
      | some x =>
        let d := d.writeLocal 0 (x + off) data []
        if off + data.length < 32768 then d
        else ({ d with recov := { d.recov with loading := ndel d.recov.loading page } }).sayLoaded
      | none => d
    | none => d

/-- RECOVERY_LOAD_PACKET: a packet of kind 12 reaches the device that restores; its status says poison, which fails the load
(R383, R391). -/
def Device.doLoadPacket (d : Device) (k : Nat) (p : Packet) : Device :=
  if d.flock.state ≠ 3 ∨ d.recov.state ≠ 2 then d else
  d.deliver k p fun d =>
    if bit p.status 0 then d.loadFails else d.landLoad (p.offset / 32768) (p.offset % 32768) p.data
/-- RECOVERY_LOAD_PACKET. -/
def execRecoveryLoadPacket (k : Nat) (p : Packet) (s : State) : Host.Outcome State Fault Refusal :=
  s.act (·.doLoadPacket k p)

/-- Routes of a recovery load from this device to a rank, by number and port: the primary, and those that leave through a y and
a z port where those are wired and up, in the direction of the rank (R320, R383). -/
def Device.loadRoutes (d : Device) (dest : Nat) : List (Nat × Nat) :=
  let prim := match d.portTo dest with | some k => [(0, k)] | none => []
  let by_ (r i : Nat) : List (Nat × Nat) :=
    match (d.pathsTo d.flock.rank dest).find? fun p =>
      d.pathOk d.flock.rank dest p && (match p.head? with | some h => h.2 / 2 = i && (d.link h.2).state = 2 | none => false) with
    | some p => if prim.any (fun x => p.head?.map (·.2) = some x.2) then [] else (p.head?.map fun h => (r, h.2)).toList
    | none => []
  prim ++ by_ 1 1 ++ by_ 2 2

/-- A page, or a header, sent in packets of kind 12 on one of the routes, each with the plan slot of its route; pages take the
routes in turn (R320, R383); `cote` marks those read from the cote (R497). -/
def Device.sendLoad (d : Device) (dest page : Nat) (bs : List Byte) (poison cote : Bool) : Device :=
  let rs := d.loadRoutes dest
  match rs[page % max 1 rs.length]? with
  | none => d
  | some (slot, port) =>
    (chunks 4096 ((bs.length + 4095) / 4096) bs).zipIdx.foldl (fun d x =>
      d.sendOn port { d.packetTo dest 3 12 with
        slot := slot, cls := d.classOut none 0 port, status := if poison then 1 else 0, node := if cote then 1 else 0
        data := x.1, offset := page * 32768 + 4096 * x.2 }) d

/-- Pages of this device's own image, or of its ward's committed copy, of a step sent to the device that restores: a header
first where every page is asked for; a load fails where none is held (R383, R391). -/
def Device.servePull (d : Device) (dest whose step : Nat) (pages : List Nat) : Device :=
  let head (base size : Nat) (leaves : List Nat) (ds : List (List Byte)) : List Byte :=
    leBytes 8 base ++ leBytes 8 size ++ leBytes 2 (leaves.headD 0) ++ leBytes 2 leaves.length ++ ds.flatMap id
  if whose = d.flock.rank then
    match d.imageAt 0 step with
    | some i =>
      let d := d.sendLoad dest headerPage (head i.base i.size ((List.range i.count).map (i.first + ·)) i.records) false true
      (List.range (i.size / 32768)).foldl (fun d p => d.sendLoad dest p (i.bytes.bytes (p * 32768) 32768) false true) d
    | none => d.loadFails
  else match d.recov.ward with
    | some w =>
      if w.rank ≠ whose ∨ w.step ≠ some step then d.loadFails else
      let d := if pages = [] then d.sendLoad dest headerPage (head w.base w.size w.leaves w.digests) false false else d
      (if pages = [] then List.range (w.size / 32768) else pages).foldl (fun d p =>
        let x := d.fosterBase + fosterSlot p (if w.current.contains p then 1 else 0)
        let bad := d.poisonLocal 0 x 32768
        (d.transferRead 0 x 32768 []).sendLoad dest p (d.readLocal 0 x 32768) bad false) d
    | none => d.loadFails

/-- RECOV_STATUS.state once the flock is formed again: a device that hosts leaves replays. -/
def Device.readyState (d : Device) : Nat := if d.leavesHosted = [] then 0 else 3

/-- RECOVERY_READY: every load is complete and every drive resident; the flock is formed again (R385). -/
def Device.doRecovReady (d : Device) : Device :=
  if !d.flock.isBell ∨ d.flock.state ≠ 3 ∨ d.recov.state ≠ 2 ∨ d.recov.awaited ≠ [] then d else
  let d := { d with flock := { d.flock with state := 2 }, recov := { d.recov with state := d.readyState, hdr := none, heads := [] } }
  (d.tellMembers fun _ => some (.state 2 0)).event .recoveryReady [d.recov.k0]
/-- RECOVERY_READY. -/
def execRecoveryReady (s : State) : Host.Outcome State Fault Refusal := s.act (·.doRecovReady)

/-! ## Registers of recovery that start something (R378, R390, R392) -/

/-- EXPORT_DONE: the export no longer reads the snapshot region; at the shared-store layer the image is written
and the bellwether resumes (R378, R392). -/
def Device.doExportDone (d : Device) (fn : Nat) : Device :=
  if fn ≠ 0 then d else
  let d := { d with recov := { d.recov with exportReady := false, exporting := [] } }
  if d.flock.state = 3 ∧ d.recov.layer = 3 ∧ d.recov.state = 2 then
    ({ d with recov := { d.recov with loading := [] } }).sayLoaded
  else d
/-- EXPORT_DONE. -/
def execExportDone (fn : Nat) (s : State) : Host.Outcome State Fault Refusal :=
  s.act (·.fromRegs fn (·.doExportDone fn))

/-- RECOV_HANDOVER: a foster's adopted leaves move to a standby after the next COMMIT of a foster step (R390). -/
def Device.doHandover (d : Device) (fn rank : Nat) : Device :=
  if fn ≠ 0 ∨ !d.leads ∨ (d.flock.leaves.filter (·.1 = rank)).length < 2 then d
  else { d with recov := { d.recov with handover := some rank } }
/-- RECOV_HANDOVER. -/
def execRecovHandover (fn rank : Nat) (s : State) : Host.Outcome State Fault Refusal :=
  s.act (·.fromRegs fn (·.doHandover fn rank))

/-- A signing point or a snapshot trigger that has come: every logged drive's seal is due, during recovery after the first
step opened afterwards (R388), or its snapshot, at the bellwether of a formed flock the flock's (R362, R365). -/
def Device.pointCome (d : Device) (cls : Nat) : Device :=
  if cls = 4 then
    if d.flock.state = 3 then { d with recov := { d.recov with signLate := true } } else
    let due : List (Nat × Nat) := (List.range 8).flatMap fun f =>
      (d.fold f).drives.filterMap fun e => if e.2.unlogged then none else some (f, e.1)
    { d with recov := { d.recov with sealDue := d.recov.sealDue ++ due.filter fun x => !d.recov.sealDue.contains x } }
  else if d.flock.isBell ∧ (d.flock.state = 2 ∨ d.flock.state = 3) then { d with recov := { d.recov with trig := true } }
  else { d with folds := d.folds.map fun (o : Fold) => { o with
    drives := o.drives.map fun (e : Nat × Drive) => (e.1, if e.2.unlogged then e.2 else { e.2 with trig := true }) } }

/-- A comparator armed for a signing point or a snapshot trigger, in place of the one armed before; a refusal is
flagged in RECOV_STATUS, and one whose V has passed fires at once (R285, R495). -/
def Device.armPoint (d : Device) (u : CmpUser) (cls v : Nat) : Device :=
  let w := d.watch.release fun x => decide (x = u)
  if v ≤ d.now then ({ d with watch := w } : Device).pointCome cls else
  match w.join v cls 0 u with
  | some w => { d with watch := w }
  | none => if cls = 4 then { d with watch := w, recov := { d.recov with signRefused := true } }
    else { d with watch := w, recov := { d.recov with snapRefused := true } }

/-- RECOV_SIGN_ARM: RECOV_SIGN_HI written. -/
def Device.doSignArm (d : Device) (fn value : Nat) : Device :=
  if fn ≠ 0 then d else
  let d := { d with recov := { d.recov with signHi := value % 2 ^ 32 } }
  d.armPoint .sign 4 (d.recov.signHi * 2 ^ 32 + d.recov.signLo)
/-- RECOV_SIGN_ARM. -/
def execRecovSignArm (fn value : Nat) (s : State) : Host.Outcome State Fault Refusal :=
  s.act (·.fromRegs fn (·.doSignArm fn value))

/-- RECOV_SNAPAT_ARM: RECOV_SNAPAT_HI written; it arms a comparator on the bellwether, and on a device that gives
its own commits (R362, R364). -/
def Device.doSnapatArm (d : Device) (fn value : Nat) : Device :=
  if fn ≠ 0 then d else
  let d := { d with recov := { d.recov with snapHi := value % 2 ^ 32 } }
  if d.flock.isBell ∨ !d.active then d.armPoint .snapshot 3 (d.recov.snapHi * 2 ^ 32 + d.recov.snapLo) else d
/-- RECOV_SNAPAT_ARM. -/
def execRecovSnapatArm (fn value : Nat) (s : State) : Host.Outcome State Fault Refusal :=
  s.act (·.fromRegs fn (·.doSnapatArm fn value))

/-! ## Seals and the cote (R365, R366, R375 to R377) -/

/-- A seal over a drive's chains (table Seal); the signature is a free value. -/
def Device.sealBytes (d : Device) (v : Drive) : List Byte :=
  leBytes 4 2 ++ leBytes 1 d.flock.rank ++ leBytes 1 v.chain.length ++ leBytes 2 ((v.chain.map (·.1)).headD 0) ++
  leBytes 8 (v.closed.getD 0 % 2 ^ 48) ++ leBytes 8 d.now ++ sha512 (v.chain.flatMap (·.2)) ++
  randomBytes d.free (66 + 66) ++ certHash ++ zeros 3844

/-- SEAL: the crook signs the oldest seal due, over the latest step closed now (R365, R366). -/
def Device.doSeal (d : Device) : Device :=
  match d.recov.sealDue with
  | [] => d
  | (f, s) :: rest =>
    let d := { d with recov := { d.recov with sealDue := rest } }
    match d.drive f s with
    | some v => if v.unlogged ∨ v.closed.isNone then d else ((d.writeEntry f s (d.sealBytes v)).draw).draw
    | none => d
/-- SEAL. -/
def execSeal (s : State) : Host.Outcome State Fault Refusal := s.act (·.doSeal)

/-- A drain abandoned: its image gets no header, and the snapshot is lost (R376). -/
def Device.loseDrain (d : Device) (f : Nat) : Device :=
  match slook d.cote.drain f with
  | none => d
  | some (_, _, _, i) =>
    ({ d with
      cote := { d.cote with drain := sdel d.cote.drain f }
      recov := { d.recov with draining := ndel d.recov.draining f } }).event .snapshotLost [f, i.step]

/-- Whether a recovery load still reads the cote: packets with its pages wait at a port (R497). -/
def Device.loadsCote (d : Device) : Bool := d.links.any fun l => l.waiting.any fun p => p.kind = 12 && p.node = 1

/-- COTE_DRAIN: the next 4 KiB units of a fold's snapshot go into its image slot; after the last one the header
makes the image valid (R375, R376); it pauses while a recovery load reads the cote (R497). -/
def Device.doDrain (d : Device) (f units : Nat) : Device :=
  if d.loadsCote then d else
  match slook d.cote.drain f with
  | none => d
  | some (slot, done, src, i) =>
    let left := (i.size + 4095) / 4096 - done
    let n := min units left
    let len := min (n * 4096) (i.size - done * 4096)
    if d.poisonLocal f (src + done * 4096) len then d.loseDrain f else
    let i := { i with bytes := i.bytes.store (done * 4096) (d.readLocal f (src + done * 4096) len) }
    if n < left then { d with cote := { d.cote with drain := sput d.cote.drain f (slot, done + n, src, i) } }
    else
      let i := { i with digest := sha512 (i.bytes.bytes 0 i.size) }
      { d with
        cote := { d.cote with drain := sdel d.cote.drain f, slots := sput d.cote.slots slot i }
        recov := { d.recov with draining := ndel d.recov.draining f, imageValid := true, imageStep := i.step } }
/-- COTE_DRAIN. -/
def execCoteDrain (f units : Nat) (s : State) : Host.Outcome State Fault Refusal := s.act (·.doDrain f units)

/-- Fold of a cote key. -/
def Key.foldOf : Key → Nat
  | .cote _ _ f _ => f
  | _ => 0

/-- Entries of a fold's part of the journal: 64 GiB divided by the fold count (table Cote layout, R364). -/
def Device.journalSize (d : Device) : Nat := 2 ^ 36 / 4096 / d.foldCount

/-- JOURNAL_APPEND: the oldest waiting record or seal of a fold goes into the journal, a ring, once no recovery load reads the
cote (R377, R497). -/
def Device.doJournal (d : Device) (f : Nat) : Device :=
  if d.loadsCote then d else
  match d.cote.waiting.find? (·.1 = f) with
  | none => d
  | some e =>
    let j := d.cote.journal
    let j := if d.journalSize ≤ (j.filter fun x => x.1.foldOf = f).length then
        (match j.find? fun x => x.1.foldOf = f with | some x => j.erase x | none => j) else j
    { d with cote := { d.cote with waiting := d.cote.waiting.erase e, journal := j ++ [(d.coteKey f, e.2)] } }
/-- JOURNAL_APPEND. -/
def execJournalAppend (f : Nat) (s : State) : Host.Outcome State Fault Refusal := s.act (·.doJournal f)

/-! ## FLOCK_MANAGEMENT (R330, R360, R381 to R385) -/

/-- State of the flock as the bellwether tells it. -/
def Device.takeFlockState (d : Device) (st reason : Nat) : Device :=
  let was := d.flock.state
  if st = 0 then (if was = 0 then d else d.leaveFlock)
  else
    let d := { d with flock := { d.flock with state := st, reason := reason } }
    if st = 2 ∧ was = 3 then { d with recov := { d.recov with state := d.readyState, hdr := none, heads := [], loading := [] } }
    else if st = 2 ∧ was ≠ 2 then (d.event .flockFormed [d.bellRank]).measure 5 [d.flock.rank, d.flock.cfg]
    else d

/-- A message of the bellwether's crook takes effect on this device. One that names another bellwether ends the flock of a
bellwether that has failed (R351). -/
def Device.manage (d : Device) (m : FlockMsg) : Device :=
  if !d.full then d else
  match m with
  | .config cfg recov =>
    let d := if d.orphaned ∧ bits cfg 18 13 ≠ d.bellRank then d.clearFlock else d
    let d := { d with flock := { d.flock with cfg := cfg, isBell := bits cfg 18 13 = d.flock.rank } }
    if d.flock.state = 2 ∨ d.flock.state = 3 then d else
    ({ d with flock := { d.flock with state := 1 }, recov := { d.recov with cfg := recov }, coll := .reset } : Device).checkAll
  | .route r p a v => { d with flock := { d.flock with
      routes := if v then sput d.flock.routes r ⟨true, p, a⟩ else sdel d.flock.routes r } }
  | .assign standby foster ward => d.takeState standby foster ward
  | .state st reason => d.takeFlockState st reason
  | .members mask => { d with flock := { d.flock with members := mask } }
  | .leaves l => { d with flock := { d.flock with leaves := l } }
  | .group g e => d.setGroup g e
  | .load layer lost k0 src => d.takeLoad layer lost k0 src
  | .pull dest whose step pages => d.servePull dest whose step pages
  | .loaded r => if d.flock.isBell then { d with recov := { d.recov with awaited := ndel d.recov.awaited r } } else d
  | .fosterState w ok =>
    let d := if w = d.flock.rank then { d with recov := { d.recov with fosterOk := ok } } else d
    { d with recov := { d.recov with noCopy := if ok then ndel d.recov.noCopy w else nins d.recov.noCopy w } }
  | .folds r n => d.takeFolds r n
  | .planGroup r p g =>
    let others := d.coll.named.filter fun e => e.1 ≠ r ∨ e.2.1 ≠ p
    { d with coll := { d.coll with named := others ++ (g.map fun x => (r, p, x)).toList } }
  | .ide keyed => { d with flock := { d.flock with bellIde := keyed } }
/-- FLOCK_MANAGEMENT: a flock-management message arrives on VC0. -/
def Device.doManage (d : Device) (v : Via) (m : FlockMsg) : Device := d.hear v (·.manage m)
/-- FLOCK_MANAGEMENT. -/
def execFlockManagement (v : Via) (m : FlockMsg) (s : State) : Host.Outcome State Fault Refusal :=
  s.act (·.doManage v m)

end Sys2Proof.Machine
end

