-- ==== Sys2Proof/Machine/Links.lean ====
section
/-!
DEFINITION. The link layer: frames, FEC, replay, control slots, training, link keys, transit (11, R312 to R329;
14, R449 to R451).
-/
namespace Sys2Proof.Machine

/-! ## Link state -/

/-- Whether a port is up, on eight lanes or degraded. -/
def Link.up (l : Link) : Bool := l.state = 2 || l.state = 3

/-- A link taken down; with `again` it retrains at once (R317, R319). -/
def Device.takeDown (d : Device) (k : Nat) (again : Bool) : Device :=
  d.onLink k fun l => { l with
    state := if again then 1 else 0, lanes := 0, since := d.watch.age, lastReq := none, reqRow := 0, asked := false
    retrains := if again then satAdd 8 l.retrains 1 else l.retrains }

/-- A port reported failed: its replay buffer is discarded, packets that wait for it take another port, and the
neighbour's loss is reported (R313, R317, R327, R380). -/
def Device.failLink (d : Device) (k : Nat) : Device :=
  let ws := (d.link k).waiting
  let d := d.onLink k fun l => { l with
    state := 4, lanes := 0, sent := [], lastReq := none, reqRow := 0, asked := false, waiting := [] }
  let d := d.tellBell (.failure (d.link k).peerRank .linkFailed)
  ws.foldl (fun d p => if p.group.isSome then d else d.sendTo p) d

/-! ## Control slots that leave (R316, R318, R319) -/

/-- The control slot a port sends now: the last seq accepted and up to eight pools of credits. -/
def Device.ctlSlot (d : Device) (k : Nat) : CtlSlot :=
  let l := d.link k
  { ack := some ((l.expect + 1023) % 1024)
    replay := none
    credits := ((l.owed.zipIdx.filter fun x => 0 < x.1).map fun x => (x.2, min x.1 4095)).take 8
    inService := d.full
    refLoss := d.ref.state = 1 || d.ref.state = 3
    failed := d.flock.zeroised || d.flock.declared || d.ref.state = 3
    recovering := d.flock.state = 3
    zeroised := d.flock.zeroised
    rank := d.flock.rank
    port := k
    watch := d.now
    tagOk := l.keyed }

/-- LINK_CONTROL_SEND: a frame of kind 2, which takes a seq and a place in the replay buffer; while that is full an idle frame
goes out (R316, R318, R319). -/
def Device.doCtlSend (d : Device) (k : Nat) : Device :=
  let l := d.link k
  if !l.up then d
  else if 512 ≤ l.unacked then d.emit (.idle k)
  else
    let c := d.ctlSlot k
    (d.onLink k fun l => { l with
      nextSeq := (l.nextSeq + 1) % 1024, sent := l.sent ++ [(l.nextSeq, .control c)], taken := 0
      owed := c.credits.foldl (fun o e => o.modify e.1 (· - e.2)) l.owed }).emit (.control k c)
/-- LINK_CONTROL_SEND. -/
def execLinkControlSend (k : Nat) (s : State) : Host.Outcome State Fault Refusal := s.act (·.doCtlSend k)

/-- The acknowledgement that 32 accepted frames make due goes out (R316). -/
def Device.ackDue (d : Device) (k : Nat) : Device := if (d.link k).taken < 32 then d else d.doCtlSend k

/-! ## Frames (R314 to R317) -/

/-- A replay request naming the next seq expected (R316). -/
def Device.askReplay (d : Device) (k : Nat) : Device :=
  (d.onLink k fun l => { l with replays := satAdd 16 l.replays 1, asked := true }).emit (.replay k (d.link k).expect)

/-- FRAME_RECEIVE: at most 15 symbol errors are corrected; a frame with more, or out of order, is discarded and a
replay asked for; frames out of order behind one that is asked for are discarded alone. The 32nd frame accepted without an
acknowledgement sends one (R315, R316). -/
def Device.doFrame (d : Device) (k : Nat) (f : Frame) : Device :=
  if !(d.link k).up then d
  else if 15 < f.errs then (d.onLink k fun l => { l with fecUE := satAdd 8 l.fecUE 1 }).askReplay k
  else
    let d := d.onLink k fun l => { l with
      heard := d.watch.age, fecCE := if 0 < f.errs then satAdd 32 l.fecCE 1 else l.fecCE }
    if f.kind ≠ 1 ∧ f.kind ≠ 2 then d
    else if f.seq = (d.link k).expect then
      (d.onLink k fun l => { l with expect := (l.expect + 1) % 1024, taken := l.taken + 1, asked := false }).ackDue k
    else if (d.link k).asked then d
    else d.askReplay k
/-- FRAME_RECEIVE. -/
def execFrameReceive (k : Nat) (f : Frame) (s : State) : Host.Outcome State Fault Refusal := s.act (·.doFrame k f)

/-- The frames of the replay buffer from a seq on; none where it is not there (R316). -/
def Link.fromSeq (l : Link) (seq : Nat) : List (Nat × TxFrame) := l.sent.dropWhile (·.1 ≠ seq)

/-- REPLAY_REQUEST: the peer asks for the frames from a seq on, and gets them in order (R316). -/
def Device.doReplay (d : Device) (k seq : Nat) : Device :=
  let l := d.link k
  if !l.up then d else
  let d := d.onLink k fun l => { l with
    lastReq := some seq, reqRow := if l.lastReq = some seq then l.reqRow + 1 else 1 }
  if l.fromSeq seq = [] then d else d.emit (.again k (l.fromSeq seq))
/-- REPLAY_REQUEST. -/
def execReplayRequest (k seq : Nat) (s : State) : Host.Outcome State Fault Refusal := s.act (·.doReplay k seq)

/-! ## Control slots that arrive (R316, R318, R319) -/

/-- An acknowledgement frees the frames up to its seq (R316). -/
def Link.acked (l : Link) (seq : Nat) : Link :=
  if l.fromSeq seq = [] then l else { l with sent := (l.fromSeq seq).drop 1, lastReq := none, reqRow := 0 }

/-- Credits returned to a pool, never beyond the pool (R318). -/
def Link.credit (l : Link) (pool n : Nat) : Link :=
  { l with credits := l.credits.modify pool fun c => min (c + n) (poolCredits.getD pool 0) }

/-- The flags byte of a control slot (table Link control slot). -/
def CtlSlot.flags (c : CtlSlot) : Nat :=
  c.inService.toNat + 2 * c.refLoss.toNat + 4 * c.failed.toNat + 8 * c.recovering.toNat + 16 * c.zeroised.toNat

/-- LINK_CONTROL_SLOT: the peer's acknowledgement, replay request, credits, flags and watch; a slot that fails its
tag is discarded. A neighbour that declares itself failed or zeroised is reported (R318, R379). -/
def Device.doCtlSlot (d : Device) (k : Nat) (c : CtlSlot) : Device :=
  let l := d.link k
  if !l.up ∨ (l.keyed ∧ !c.tagOk) then d else
  let d := match c.ack with | some q => d.onLink k (·.acked q) | none => d
  let d := match c.replay with | some q => d.doReplay k q | none => d
  let d := (c.credits.take 8).foldl (fun d e => d.onLink k fun l => l.credit e.1 e.2) d
  let d := d.onLink k fun l => { l with peerFlags := CtlSlot.flags c, peerWatch := c.watch, heard := d.watch.age }
  let d := (d.drainPort k).ackDue k
  if (c.failed ∨ c.zeroised) ∧ l.peerFlags &&& 0x14 = 0 then d.tellBell (.failure l.peerRank .declared) else d
/-- LINK_CONTROL_SLOT. -/
def execLinkControlSlot (k : Nat) (c : CtlSlot) (s : State) : Host.Outcome State Fault Refusal :=
  s.act (·.doCtlSlot k c)

/-! ## Loss and training (R313, R317, R319, R325) -/

/-- LINK_SILENT: no decodable frame for 2,000,000 ticks takes the link down and reports the neighbour (R319). -/
def Device.doSilent (d : Device) (k : Nat) : Device :=
  let l := d.link k
  if l.up ∧ l.heard + 2000000 ≤ d.watch.age then
    ((d.takeDown k false).event .linkSilent [k]).tellBell (.failure l.peerRank .silent)
  else d
/-- LINK_SILENT. -/
def execLinkSilent (k : Nat) (s : State) : Host.Outcome State Fault Refusal := s.act (·.doSilent k)

/-- LINK_RETRAIN: eight replay requests in a row name one seq (R317). -/
def Device.doRetrain (d : Device) (k : Nat) : Device :=
  if (d.link k).up ∧ 8 ≤ (d.link k).reqRow then d.takeDown k true else d
/-- LINK_RETRAIN. -/
def execLinkRetrain (k : Nat) (s : State) : Host.Outcome State Fault Refusal := s.act (·.doRetrain k)

/-- LINK_FAILED: a link not up again 1,000,000 ticks after it was taken down to retrain (R317). -/
def Device.doLinkFailed (d : Device) (k : Nat) : Device :=
  if (d.link k).state = 1 ∧ (d.link k).since + 1000000 ≤ d.watch.age then d.failLink k else d
/-- LINK_FAILED. -/
def execLinkFailed (k : Nat) (s : State) : Host.Outcome State Fault Refusal := s.act (·.doLinkFailed k)

/-- LINK_TRAINING: a port runs on all eight lanes, on one group of four, or fails; a peer that does not match the
shape bars all traffic (R313, R317, R325). -/
def Device.doTraining (d : Device) (k : Nat) (t : Training) : Device :=
  let l := d.link k
  if !l.enable ∨ l.state = 4 ∨ d.bring.stage < 3 then d else
  let l0 := t.lanes % 256
  let lanes := if l0 = 0xFF then 0xFF else if l0 % 16 = 15 then 0x0F else if l0 / 16 = 15 then 0xF0 else 0
  let again := l.up
  let d := if again then d.takeDown k true else d
  let d :=
    if lanes = 0 then d.failLink k
    else
      let d := d.onLink k fun l => { l with
        state := if lanes = 0xFF then 2 else 3, lanes := lanes, heard := d.watch.age
        peerRank := t.peerRank % 64, peerPort := t.peerPort % 8 }
      let d := if lanes = 0xFF then d else d.event .linkDegraded [k, lanes]
      let d := d.checkWiring k
      if (d.link k).sent = [] then d else d.emit (.again k (d.link k).sent)
  let ended := (List.range 6).all fun i => !Config.wired i || decide ((d.link i).state ≠ 0 ∧ (d.link i).state ≠ 1)
  let d := if ended then { d with bring := { d.bring with links := true } } else d
  d.drainPort k
/-- LINK_TRAINING. -/
def execLinkTraining (k : Nat) (t : Training) (s : State) : Host.Outcome State Fault Refusal :=
  s.act (·.doTraining k t)

/-- A write of LINK_CTRL through a function: enable as written; retrain takes the link down and trains it again,
with replay from the first unacknowledged frame (R317). -/
def Device.writeLinkCtrl (d : Device) (k value : Nat) : Device :=
  let on := bit value 1
  let d := d.onLink k fun l => { l with enable := on }
  if !on then d.takeDown k false
  else if bit value 0 then d.takeDown k true
  else d
/-- LINK_CTRL_RETRAIN: LINK_CTRL.retrain of a port written through PF0. -/
def Device.doLinkCtrl (d : Device) (fn k value : Nat) : Device :=
  if fn ≠ 0 ∨ 6 ≤ k ∨ !bit value 0 then d else d.writeLinkCtrl k value
/-- LINK_CTRL_RETRAIN. -/
def execLinkCtrlRetrain (fn k value : Nat) (s : State) : Host.Outcome State Fault Refusal :=
  s.act (·.fromRegs fn (·.doLinkCtrl fn k value))

/-! ## Link keys (R449 to R451) -/

/-- LINK_KEY_AGREEMENT: the two crooks of a link agree its keys, at formation with epoch 1, later with the next; a
failure is recorded, and refuses a formation under way with reason 5. -/
def Device.doKeys (d : Device) (k : Nat) (ok : Bool) : Device :=
  let l := d.link k
  if !l.up ∨ l.miswired then d else
  let again := d.flock.state = 2 || d.flock.state = 3
  let epoch := if again then l.epoch + 1 else 1
  let tellPeer (m : Vc0) (d : Device) : Device := d.sendOn k { d.packetTo l.peerRank 0 11 with msg := some m }
  let d := (tellPeer (.key epoch (d.free + 1)) (tellPeer (.nonce d.free) d)).draw.draw
  if ok then (d.onLink k fun l => { l with keyed := true, epoch := epoch, ctr := 0 }).drainPort k
  else
    let d := (d.onLink k fun l => { l with keyed := false }).event .linkKeyFail [k]
    if d.flock.state = 1 ∧ d.flock.isBell then d.formFailed 5 else d
/-- LINK_KEY_AGREEMENT. -/
def execLinkKeyAgreement (k : Nat) (ok : Bool) (s : State) : Host.Outcome State Fault Refusal :=
  s.act (·.doKeys k ok)

/-! ## Transit (R322, R327 to R329) -/

/-- PACKET_FORWARD: a packet for another rank leaves on its egress in its dateline class. One whose ingress tag
fails goes on marked for discard, and its link is taken down (R322, R323). -/
def Device.doForward (d : Device) (k : Nat) (p : Packet) : Device :=
  if !(if p.vc = 0 then (d.link k).takes else (d.link k).receives) ∨ p.dst = d.flock.rank then d else
  let marked := bit p.status 7
  let fail := (d.link k).keyed && !marked && !p.tagOk
  let d := d.owe k p
  let d := match d.portTo p.dst with
    | some e => d.sendOn e { p with
        cls := d.classOut (some k) p.cls e, tagOk := p.tagOk && !marked
        status := if fail then p.status % 128 + 128 else p.status }
    | none => d
  if fail then d.tagFailed k else d
/-- PACKET_FORWARD. -/
def execPacketForward (k : Nat) (p : Packet) (s : State) : Host.Outcome State Fault Refusal :=
  s.act (·.doForward k p)

end Sys2Proof.Machine
end

