-- ==== Sys2Proof/Machine/Time.lean ====
section
/-!
DEFINITION. CUT (08, R254, R255), the hefts, the REFCLK monitor, the watch and its comparators (09).
-/
namespace Sys2Proof.Machine

/-! ## CUT (R254, R255) -/

/-- Requester index of an owner (table Shared-port requesters). -/
def Device.ownerIndex (d : Device) : CutOwner → Nat
  | .command n _ => (d.site n).fold
  | .descriptor sq _ => d.ringFold sq
  | .batch f .. => f
  | .shear _ => 8
  | .collective _ | .fosterCopy => 9
  | .drain _ | .load | .exporting _ | .studbook .. => 10
  | .crook => 11
  | .host _ => 12

/-- The MOVE at a stream address of a pen, by drive slot and issue number, while its transfer is under way. -/
def Device.moveAt (d : Device) (n addr : Nat) : Option (Nat × Nat) :=
  match d.running n with
  | some (s, _) => ((d.site n).seqr.act.find? fun a => decide (a.cmd.addr = addr) && decide (a.phase = .running) &&
      match a.cmd.body with | .move _ => true | _ => false).map fun a => (s, a.id)
  | none => none

/-- A DMA cut short: what it moved stands, and how much that was is open, as are the bytes it brought from the host
(R255; log entry 11). -/
def Device.cutDma (d : Device) (f : Nat) (m : DmaD) : Device × Nat :=
  let n := Config.unnamed d.free % (m.len / 8 + 1) * 8
  if m.toHost then ((d.hostWrite m.host (d.readLocal f m.loc n)).draw, n)
  else (d.undefine f m.loc n, n)

/-- What ends with the burst's transfer (table Transfers ended by a CUT; R341, R376, R391, R427). -/
def Device.endCut (d : Device) : CutOwner → Device
  | .command n addr =>
    (match d.moveAt n addr with | some x => d.cutTransfer n x.1 x.2 | none => d).stopAt n 0x1F addr
  | .descriptor sq idx =>
    match d.desc sq idx with
    | some x =>
      if x.op = 0x01 ∧ d.dmaStatus sq (d.dmaFor sq x.bytes) = 0 then
        let r := d.cutDma (d.ringFold sq) (d.dmaFor sq x.bytes)
        r.1.complete sq idx 0x11 r.2
      else (d.complete sq idx 0x11 (Config.unnamed d.free)).draw
    | none => d
  | .batch f s k =>
    match (d.drive f s).bind fun v => slook v.dmas k with
    | some m =>
      (d.cutDma f m).1.endBatch f s k m 0x11
    | none => d
  | .shear u =>
    match (if u < 4 then d.shears.mem.getD u [] else d.shears.link).head? with
    | some r => d.stopDrive r.fold r.slot 0 0x1F r.pen r.addr
    | none => d
  | .collective slot =>
    match slook d.coll.slots slot with
    | some r =>
      ({ d with coll := { d.coll with slots := sdel d.coll.slots slot } }).stopDrive r.coll.fold r.coll.slot 0 0x1F
        r.coll.pen r.coll.addr
    | none => d
  | .drain f => d.loseDrain f
  | .load => d.tellBell (.failure d.flock.rank .loadFailed)
  | .exporting f => { d with recov := { d.recov with exporting := ndel d.recov.exporting f } }
  | .studbook f s =>
    match d.drive f s with
    | some v => d.undefine f (v.sbase + (v.sbPos + v.ssize / 4096 - 1) % (v.ssize / 4096) * 4096) 4096
    | none => d
  | .fosterCopy =>
    match d.flockDrive with
    | some (s, _) => d.stopOpen 0 s 0x1F
    | none => d
  | .host rd => if rd then d.emit (.nack (.host 0)) else d
  | .crook => { d with persist := { d.persist with cuts := d.persist.cuts ++ [(d.fabric.cutArb, d.fabric.cutBeats, d.now)] } }

/-- CUT: the holder of a shared arbiter's grant loses it before its burst is whole, its tickets there drop to zero, and its
transfer ends. -/
def Device.doCut (d : Device) (a beats : Nat) (o : CutOwner) : Device :=
  match (d.fabric.arbs.getD a (.reset a)).holder with
  | some (r, burst) =>
    if 18 ≤ a ∨ d.ownerIndex o ≠ r ∨ burst ≤ beats then d else
    let d := { d with fabric := { d.fabric with
      arbs := d.fabric.arbs.modify a fun (x : Arbiter) => { x with tickets := x.tickets.set r 0, holder := none }
      cutValid := true, cutArb := a, cutReq := r, cutBeats := beats % 1024, cutCount := satAdd 32 d.fabric.cutCount 1 } }
    (d.event .cut [a, r, beats]).endCut o
  | none => d
/-- CUT. -/
def execCut (a beats : Nat) (owner : CutOwner) (s : State) : Host.Outcome State Fault Refusal :=
  s.act (·.doCut a beats owner)

/-! ## Hefts (R262 to R272) -/

/-- HEFT_SLEW: the PLL follows its limits, VCORE first where a faster step needs more (R263, R476). -/
def Device.doHeftSlew (d : Device) (h : Nat) : Device := (d.onHeft h (·.follow)).supply
/-- HEFT_SLEW. -/
def execHeftSlew (h : Nat) (s : State) : Host.Outcome State Fault Refusal := s.act (·.doHeftSlew h)

/-- Pens in service, by ascending logical number. -/
def Device.penSites (d : Device) : List Nat := (List.range 40).filterMap d.siteOf

/-- REF_HOLD.ticks now. -/
def Device.refHold (d : Device) : Nat := satAdd 32 0 (d.watch.age - d.ref.lostAt)

/-- The relock is over once no heft slews: REF_RESTORED is recorded and the pens are released in ascending logical order;
after REF_FAIL the drives stay stopped (R277, R278). -/
def Device.relocked (d : Device) : Device :=
  if d.ref.state ≠ 2 ∨ d.hefts.any (·.slewing) then d
  else if d.ref.failed then
    ({ d with ref := { d.ref with state := 0, failed := false } } : Device).onSites (List.range 42) (·.unstop .refclk)
  else
    let d := ({ d with ref := { d.ref with state := 0, hold := d.refHold } } : Device).event .refRestored []
    d.penSites.foldl (fun d n => d.resumePen n .refclk) d

/-- HEFT_SLEW_END: the slew has reached its step (R263); with the last of a relock REFCLK is restored (R277). -/
def Device.doSlewEnd (d : Device) (h : Nat) : Device := (d.onHeft h fun x => { x with slewing := false }).relocked
/-- HEFT_SLEW_END. -/
def execHeftSlewEnd (h : Nat) (s : State) : Host.Outcome State Fault Refusal := s.act (·.doSlewEnd h)

/-- PERIOD_STRETCH: one stretched period is counted (R265). -/
def Device.doStretch (d : Device) (h : Nat) : Device := d.onHeft h fun x => { x with stretch := satAdd 32 x.stretch 1 }
/-- PERIOD_STRETCH. -/
def execPeriodStretch (h : Nat) (s : State) : Host.Outcome State Fault Refusal := s.act (·.doStretch h)

/-- Whether data crosses between two hefts: neighbouring sites, a stile and its station, and what lies on the gate ring (table
Crossing queues). -/
def crosses (h g : Nat) : Bool :=
  if h < 42 ∧ g < 42 then (h + 1) % 42 = g || (g + 1) % 42 = h
  else
    let other := min h g
    max h g < 49 && (h = 47 || g = 47) && h ≠ g &&
      (42 ≤ other || [0, 1, 2, 3].any fun k => siteAt (stileAt k, 0) = other)

/-- Whether the queues between two hefts hold nothing. -/
def Device.crossingEmpty (d : Device) (h g : Nat) : Bool :=
  let toward (n m : Nat) : Bool :=
    let nd := (d.site n).node
    (if (m + 1) % 42 = n then nd.sun.hop.isEmpty && nd.sun.queue.isEmpty else true) &&
      (if (n + 1) % 42 = m then nd.wid.hop.isEmpty && nd.wid.queue.isEmpty else true)
  let other := min h g
  if h < 42 ∧ g < 42 then toward h g && toward g h
  else if other < 42 then !d.fabric.bulk.any fun x => x.src = (stationOf other, 2) || x.dst = (stationOf other, 2)
  else !d.fabric.feed.any fun x => x.flit.quarter + 42 = other

/-- QUEUE_REALIGN: the queues of a crossing measure their phase again, once both hefts run at one step, neither slewing nor
in holdover, and the queues are empty (R267, R268). -/
def Device.doRealign (d : Device) (h g : Nat) : Device :=
  let steady (x : Heft) : Bool := !x.slewing && !x.holdover
  if crosses h g && steady (d.heft h) && steady (d.heft g) && decide ((d.heft h).step = (d.heft g).step) && d.crossingEmpty h g then
    (d.onHeft h fun x => { x with aligned := nins x.aligned g }).onHeft g fun x => { x with aligned := nins x.aligned h }
  else d
/-- QUEUE_REALIGN. -/
def execQueueRealign (h g : Nat) (s : State) : Host.Outcome State Fault Refusal := s.act (·.doRealign h g)

/-- Whether a pen's crossing queues hold nothing and none of its requests is outstanding: no transfer, flit or ramp request of
its own is on its way, no fetch is due, and no engine holds a command that is in progress or ready (R271). -/
def Device.quiet (d : Device) (n : Nat) : Bool :=
  let t := d.site n
  let here (p : Nat × Nat) : Bool := p = stopOf n
  let idle (a : Active) : Bool := a.phase = .waiting && match a.cmd.body with
    | .lot _ | .land _ => false
    | .vop o => !d.vopReady n a.q a.id o
    | .product _ => !d.stepReady n a
    | _ => true
  t.node.sun.hop.isEmpty && t.node.sun.queue.isEmpty && t.node.wid.hop.isEmpty && t.node.wid.queue.isEmpty &&
  t.node.entry.isEmpty && !d.fabric.bulk.any (fun x => here x.src || here x.dst || decide (x.part ≠ 0) &&
    (match (slook d.fabric.xfers x.part).bind (·.owner) with | some (m, _, _) => decide (m = n) | none => false)) &&
  !d.fabric.ctl.any (fun x => here x.src || here x.dst) && !d.fabric.feed.any (fun x => x.flit.site = n) &&
  !d.fabric.rampReq.any (fun x => x.1 = n) && !d.fabric.stagger.any (fun x => x.1 = n) &&
  !((d.goes n).isSome && decide (t.seqr.fetched = []) && !t.seqr.ended && !(t.seqr.stepF && t.seqr.stepB)) &&
  t.seqr.act.all (fun a => a.phase = .finished && a.cmd.inc = 0 || idle a) && (d.ready n .fwd).isNone && (d.ready n .bwd).isNone

/-- HEFT_CLOCK_STOP: an idle pen heft stops its clock; the 1,024 cycles of level 0 are timing (R271; log entry 12). -/
def Device.doClockStop (d : Device) (h : Nat) : Device :=
  if h < 42 ∧ (d.heft h).gateEn ∧ (d.site h).level = 0 ∧ (d.site h).ramp.isNone ∧ d.quiet h then
    d.onHeft h fun x => { x with stopped := true, copy := d.now }
  else d
/-- HEFT_CLOCK_STOP. -/
def execHeftClockStop (h : Nat) (s : State) : Host.Outcome State Fault Refusal := s.act (·.doClockStop h)

/-- HEFT_WAKE: a stopped pen heft runs again at its step (R272). -/
def Device.doWake (d : Device) (h : Nat) : Device := if h < 42 then d.wake h else d
/-- HEFT_WAKE. -/
def execHeftWake (h : Nat) (s : State) : Host.Outcome State Fault Refusal := s.act (·.doWake h)

/-- The flits that wait on the rings are injected where they hold a credit. -/
def Device.injectWaiting (d : Device) : Device :=
  { d with fabric := { d.fabric with
    ctl := injectAll (d.room ctlRoom) d.fabric.ctl
    bulk := injectAll (d.room bulkRoom) d.fabric.bulk } }

/-- CROSSING_HANDSHAKE: the four-phase handshake after a heft's reset ends; its senders have their credits (R269). -/
def Device.doHandshake (d : Device) (h : Nat) : Device :=
  ((d.onHeft h fun x => { x with handshake := false }).injectWaiting).settleAt h
/-- CROSSING_HANDSHAKE. -/
def execCrossingHandshake (h : Nat) (s : State) : Host.Outcome State Fault Refusal := s.act (·.doHandshake h)

/-- Entries dropped from the queues between a heft that was reset and heft h (R269). -/
def Device.drop (d : Device) (h k : Nat) : Device := d.onHeft h fun x => { x with drops := satAdd 32 x.drops k }

/-- The heft across the station of a site: the other site of a shared station, else the gate heft (DEDUCED, log entry 97). -/
def stationHeft (n : Nat) : Nat := if n = 21 then 20 else if n = 41 then 0 else if n = 20 then 21 else if n = 0 then 41 else 47

/-- The heft of a unit begins its handshake, aligned with none. -/
def Device.resetHeft (d : Device) (h : Nat) : Device :=
  { d.onHeft h fun x => { x with handshake := true } with
    hefts := (d.onHeft h fun x => { x with handshake := true, aligned := [] }).hefts.map fun (x : Heft) =>
      { x with aligned := ndel x.aligned h } }

/-- UNIT_RESET: a retired site, a link port that is down or failed, or a quarter that is training is reset up to its
crossing queues; what they held is counted at the heft that goes on (R269, R493). A FEED asks again for flits that its
quarter has lost; a link port's queues hold nothing here, since what waits to be sent waits in front of them. -/
def Device.doUnitReset (d : Device) : UnitId → Device
  | .site n =>
    if 42 ≤ n ∨ (d.site n).state ≠ 2 ∨ (d.site n).logical < 40 then d else
    let nd := (d.site n).node
    let mine (p : Nat × Nat) : Bool := p = stopOf n
    let d := d.drop ((n + 41) % 42) (nd.sun.hop.length + nd.sun.queue.length)
    let d := d.drop ((n + 1) % 42) (nd.wid.hop.length + nd.wid.queue.length)
    let d := d.drop (stationHeft n) ((d.fabric.bulk.filter fun x => mine x.src || mine x.dst).length +
      (d.fabric.ctl.filter fun x => mine x.src || mine x.dst).length + (d.fabric.feed.filter fun x => x.flit.site = n).length)
    let d := { d with fabric := { d.fabric with
      bulk := d.fabric.bulk.filter fun (x : Flight RingFlit) => !mine x.src && !mine x.dst
      ctl := d.fabric.ctl.filter fun (x : Flight CtlFlit) => !mine x.src && !mine x.dst
      feed := d.fabric.feed.filter fun (x : Flight FeedFlit) => x.flit.site ≠ n
      stagger := d.fabric.stagger.filter fun (x : Nat × Nat) => x.1 ≠ n } }
    let d := d.onSite n fun t => { t with node := { Node.empty with resendCount := t.node.resendCount } }
    (d.resetHeft n).injectWaiting
  | .quarter q =>
    if 4 ≤ q ∨ d.mem.state ≠ 1 then d else
    let lost := d.fabric.feed.filter fun x => x.flit.quarter = q
    let d := (lost.map (·.flit.site)).foldl (fun d n => d.dropFeed n) (d.drop 47 lost.length)
    d.resetHeft (42 + q)
  | .link k =>
    if 6 ≤ k ∨ (d.link k).up then d else d.resetHeft 46
/-- UNIT_RESET. -/
def execUnitReset (u : UnitId) (s : State) : Host.Outcome State Fault Refusal := s.act (·.doUnitReset u)

/-! ## REFCLK (R274 to R278) -/

/-- REF_LOSS: every heft runs from the internal oscillator, every pen is asked to stop (R275). -/
def Device.doRefLoss (d : Device) : Device :=
  if d.ref.state = 1 ∨ d.ref.state = 3 then d else
  let d := { d with
    ref := { d.ref with state := 1, failed := false, losses := satAdd 16 d.ref.losses 1, lostAt := d.watch.age, hold := 0 }
    hefts := d.hefts.map fun (h : Heft) => { h with holdover := true, slewing := false, aligned := [] } }
  let d := (d.event .refLoss []).alert 3
  d.penSites.foldl (fun d n => d.stopPen n .refclk) d
/-- REF_LOSS. -/
def execRefLoss (s : State) : Host.Outcome State Fault Refusal := s.act (·.doRefLoss)

/-- Every heft relocks to REFCLK and slews to the step its limits ask. -/
def Device.relock (d : Device) : Device :=
  Device.supply { d with hefts := d.hefts.map fun (h : Heft) => ({ h with holdover := false } : Heft).follow }

/-- REF_RESTORED: REFCLK passes its checks again: the hefts relock, and slew to the steps that their limits ask; what follows
the slews is `Device.relocked` (R277, R278). -/
def Device.doRefRestored (d : Device) : Device :=
  if (d.ref.state = 1 ∧ d.watch.age ≤ d.ref.lostAt + 10000000) ∨ d.ref.state = 3 then
    ({ d with ref := { d.ref with state := 2 } } : Device).relock.relocked
  else d
/-- REF_RESTORED. -/
def execRefRestored (s : State) : Host.Outcome State Fault Refusal := s.act (·.doRefRestored)

/-- Every running drive left stopped, without a status: RUN may take it up again. -/
def Device.haltFolds (d : Device) : Device :=
  let d := (List.range 8).foldl (fun d f =>
    if (d.fold f).running.isSome then (d.foldSites f).foldl (fun d n => d.stopPen n .drive) d else d) d
  { d with folds := d.folds.map fun (o : Fold) => { o with running := none } }

/-- REF_FAIL: REFCLK still absent 10,000,000 ticks after the loss (R278). -/
def Device.doRefFail (d : Device) : Device :=
  if d.ref.state ≠ 1 ∨ d.watch.age < d.ref.lostAt + 10000000 then d else
  let d := { d with
    ref := { d.ref with state := 3, hold := d.refHold, failed := true } }
  ((d.event .refFail []).haltFolds).declareFailed
/-- REF_FAIL. -/
def execRefFail (s : State) : Host.Outcome State Fault Refusal := s.act (·.doRefFail)

/-! ## The watch (R279 to R289) -/

/-- Exclusive-or of the eight bytes of a frame's value (R279). -/
def frameCheck (v : Nat) : Nat := (List.range 8).foldl (fun x i => x ^^^ v / 2 ^ (8 * i) % 256) 0

/-- The watch enters holdover (R286); one that is in holdover already stays so, and its skew bound counts on
(R287, R288). -/
def Watch.hold (w : Watch) : Watch :=
  if w.state = 3 then { w with behind := 0, phase := 0, last := none } else
  { w with state := 3, flag := true, grown := 0, skewed := false, behind := 0, phase := 0, last := none }

/-- Entry into holdover with its event (R282, R286). -/
def Device.watchHold (d : Device) (e : EventName) : Device :=
  ({ d with watch := d.watch.hold }.event e []).alert 4

/-- A valid frame with value v is used: to lock, to slew, or, more than 1,024 ticks off, to hold over (R280 to R282,
R288). -/
def Device.useFrame (d : Device) (v : Nat) : Device :=
  let w := { d.watch with row := 0 }
  let want := v + w.delay
  if w.state = 0 then
    match w.last with
    | some (v0, c0) =>
      if v = v0 + 65536 ∧ w.count = c0 + 65536 then
        { d with watch := { w with state := 1, count := want, flag := false, last := none, behind := 0, phase := 0 } }
      else { d with watch := { w with last := some (v, w.count) } }
    | none => { d with watch := { w with last := some (v, w.count) } }
  else
    let k : Int := (want : Int) - (w.count : Int)
    if k = 0 then { d with watch := { w with state := 1, flag := false, behind := 0 } }
    else if k.natAbs ≤ 1024 then
      { d with watch := { w with state := 2, behind := k, slips := satAdd 16 w.slips 1 } }
    else ({ d with watch := w } : Device).watchHold .watchJump

/-- WATCH_FRAME: a frame is valid after 64 low ticks, since a reload where there was one, with its check byte, at a multiple
of 65,536; three invalid frames in a row put the watch into holdover (R280, R283, R286). A free-running watch ignores it
(R289). -/
def Device.doWatchFrame (d : Device) (value check low : Nat) : Device :=
  let w := d.watch
  if w.state = 4 then d
  else if 64 ≤ min low (w.fresh.getD low) ∧ check = frameCheck value ∧ value % 65536 = 0 ∧ value < 2 ^ 64 then d.useFrame value
  else
    let d := { d with watch := { w with bad := satAdd 16 w.bad 1, row := w.row + 1, last := none } }
    if 3 ≤ d.watch.row ∧ w.state ≠ 3 then d.watchHold .watchLoss else d
/-- WATCH_FRAME. -/
def execWatchFrame (value check lowTicks : Nat) (s : State) : Host.Outcome State Fault Refusal :=
  s.act (·.doWatchFrame value check lowTicks)

/-- WATCH_LOSS: no WATCH_CLK edge for 40 ns, or three frames missing (R286). -/
def Device.doWatchLoss (d : Device) : Device :=
  if d.watch.state ≤ 2 then d.watchHold .watchLoss else d
/-- WATCH_LOSS. -/
def execWatchLoss (s : State) : Host.Outcome State Fault Refusal := s.act (·.doWatchLoss)

/-- The skew bound: one tick plus the growth in holdover (R287). -/
def Watch.skew (w : Watch) : Nat := if w.state = 3 then satAdd 16 1 (w.grown / 500000) else 1

/-- WATCH_SKEW: the bound first exceeds the limit; a member reports it (R287, R379). -/
def Device.doWatchSkew (d : Device) : Device :=
  if d.watch.state = 3 ∧ d.watch.skewLimit < d.watch.skew ∧ !d.watch.skewed then
    ({ d with watch := { d.watch with skewed := true } }.event .watchSkew [d.watch.skew]).tellBell
      (.failure d.flock.rank .watchSkew)
  else d
/-- WATCH_SKEW. -/
def execWatchSkew (s : State) : Host.Outcome State Fault Refusal := s.act (·.doWatchSkew)

/-- A reload: the block is unlocked and counts on, what it has seen of WATCH_SYNC discarded; refused with FOLD_BUSY
while a drive is resident or a comparator is in use (R283). A free-running block stays so (R289). -/
def Device.reload (d : Device) (fn : Nat) : Device :=
  if d.anyDrive ∨ d.watch.cmps.any (·.isSome) then d.refuse fn 0x03 0x11010 false
  else if d.watch.free then d
  else { d with watch := { d.watch with
    state := 0, flag := false, behind := 0, phase := 0, last := none, row := 0, skewed := false, grown := 0
    fresh := some 0 } }
/-- WATCH_RELOAD: WATCH_CTRL.reload written through PF0. -/
def Device.doReload (d : Device) (fn : Nat) : Device := if fn = 0 then d.reload fn else d
/-- WATCH_RELOAD. -/
def execWatchReload (fn : Nat) (s : State) : Host.Outcome State Fault Refusal := s.act (·.fromRegs fn (·.doReload fn))

/-- WATCH_LO_READ: the low word is returned and the high one latched; a VF reads zero (R397, R522, R523). -/
def Device.doWatchLo (d : Device) (fn : Nat) : Device :=
  if fn ≠ 0 ∨ d.sec.state = 3 ∨ d.sec.state = 4 then d.emit (.reply (.host fn) (zeros 4))
  else
    let d := { d with watch := { d.watch with hiLatch := d.now / 2 ^ 32 % 2 ^ 32 } }
    d.emit (.reply (.host fn) (leBytes 4 (d.now % 2 ^ 32)))
/-- WATCH_LO_READ. -/
def execWatchLoRead (fn : Nat) (s : State) : Host.Outcome State Fault Refusal :=
  s.act (·.fromHost fn (·.doWatchLo fn))

/-- One tick of the watch: it counts one; while slewing it counts two or none on one tick of 16 until the difference
is zero; in holdover the skew bound grows (R280, R282, R287). -/
def Watch.tick (w : Watch) (ref : Bool) : Watch :=
  if w.state = 2 then
    let p := (w.phase + 1) % 16
    if p ≠ 0 then { w with count := w.count + 1, phase := p }
    else
      let b := if 0 < w.behind then w.behind - 1 else w.behind + 1
      { w with
        count := if 0 < w.behind then w.count + 2 else w.count, phase := 0, behind := b
        state := if b = 0 then 1 else 2, flag := if b = 0 then false else w.flag }
  else if w.state = 3 then { w with count := w.count + 1, grown := w.grown + (if ref then 1 else 50) }
  else { w with count := w.count + 1 }

/-- Fortieths of a cycle that a heft counts in a tick of 10 ns: 8.5 cycles at 850 MHz; in holdover 5, of the 4.5 to 5.5 that
R275 allows (DESIGN CHOICE, log entry 4). -/
def Heft.rate (h : Heft) : Nat :=
  if h.holdover then 200 else match h.step with | 0 => 340 | 1 => 296 | 2 => 256 | 3 => 170 | _ => 85

/-- Batch DMAs whose waits are over start (R418). -/
def Device.batchesStart (d : Device) : Device :=
  (List.range 8).foldl (fun d f => ((d.fold f).drives.map (·.1)).foldl (fun d s => d.startBatches f s) d) d

/-- A tick of the device on an empty queue (log entry 4): the watch counts, and so do the ticks for which TAMPER_N
has been low (R463); ramps pass from level to level (R74), flits that wait for a ring wait on (R243), and batch DMAs that may
start do (R418). -/
def Device.tick (d : Device) : Device :=
  let at_ (p : Nat) : Nat := (d.heft (siteAt (p, 0))).rate
  let d : Device := { d with
    watch := { d.watch.tick (decide (d.ref.state = 0 ∨ d.ref.state = 2)) with
      age := d.watch.age + 1, fresh := d.watch.fresh.map fun (n : Nat) => n + 1 }
    sec := { d.sec with tamperLow := d.sec.tamperLow.map fun (n : Nat) => n + 1 }
    sites := d.sites.map fun (t : Site) => t.rampStep
    fabric := { d.fabric with
      ctl := waitTick at_ d.fabric.ctl
      bulk := waitTick at_ d.fabric.bulk
      feed := waitTick (fun _ => (d.heft 47).rate) d.fabric.feed } }
  d.batchesStart

/-! ## Comparators (R204, R285) -/

/-- A fired comparator's use: a wait that an event has satisfied completes, one that has not ends by its deadline
(R204); a snapshot trigger and a signing point become due (R362, R365); a held-back member detaches (R344). -/
def Device.fire (d : Device) : CmpUser → Device
  | .wait n b id =>
    let d := d.doWake n
    match (d.site n).seqr.act.find? (·.id = id) with
    | some a =>
      if a.phase ≠ .waiting ∨ (a.q = .bwd) ≠ (b = true) then d else d.waitFires n a
    | none => d
  | .snapshot => d.pointCome 3
  | .sign => d.pointCome 4
  | .laggard g => d.detach g

/-- COMPARATOR_FIRE: the count is at or beyond V; every request joined is served and the comparator is free. -/
def Device.doFire (d : Device) (c : Nat) : Device :=
  match d.watch.cmps.getD c none with
  | some x =>
    if d.now < x.v then d else
    let d := { d with watch := { d.watch with cmps := d.watch.cmps.set c none } }
    x.users.foldl (fun d u => d.fire u) d
  | none => d
/-- COMPARATOR_FIRE. -/
def execComparatorFire (c : Nat) (s : State) : Host.Outcome State Fault Refusal := s.act (·.doFire c)

end Sys2Proof.Machine
end

