-- ==== Sys2Proof/Machine/Folds.lean ====
section
/-!
DEFINITION. Folds and resets of functions: mapping and arcs, fold-count change, handover, zeroisation, function
level and host-port resets, entry into full service (01, R15 to R23; 04, R99, R125; 13, R406, R428; 14, R446 to
R454, R460 to R462; 15, R483, R492; 17, R528 to R532).
-/
namespace Sys2Proof.Machine

/-! ## The security record and keys (R442, R446 to R454) -/

/-- Whether the stored security record unwraps under the present KEK (R446, R454). -/
def Sec.readable (s : Sec) : Bool :=
  match s.record with
  | some r => r.gen = s.fuses.coteGen && !s.fuses.decommissioned
  | none => false

/-- The security record rewritten with the epochs and the approved-mode setting of now (R454); with every
cote-generation fuse blown none is stored (R465). -/
def Device.saveRecord (d : Device) : Device :=
  if 32 ≤ d.sec.fuses.coteGen then d else
  let keep := if d.sec.readable then d.sec.record.map (·.root) else d.sec.root
  match keep with
  | some r => { d with sec := { d.sec with
      record := some ⟨d.sec.fuses.coteGen, r, d.folds.map (fun (o : Fold) => o.epoch), d.sec.approved⟩ } }
  | none => d

/-- The cote root at hand: read from the record, or drawn afresh where none is readable (R453). -/
def Device.needRoot (d : Device) : Device :=
  if d.sec.root.isSome then d
  else if d.sec.readable then
    { d with sec := { d.sec with kek := true, root := d.sec.record.map (·.root) } }
  else (({ d with sec := { d.sec with kek := true, root := some d.free } } : Device).draw).saveRecord

/-- A fold's memory key drawn (R442, R452). -/
def Device.drawKey (d : Device) (f : Nat) : Device := (d.onFold f fun o => { o with key := .drawn d.free }).draw

/-- Measurement of FOLDCFG.count and every cote epoch (table Measurement registers). -/
def Device.measureFolds (d : Device) : Device := d.measure 4 (d.foldCount :: d.folds.map (fun (o : Fold) => o.epoch))

/-! ## Mapping (R15, R99, R125) -/

/-- Good sites: neither retired, disabled nor untested. -/
def Device.goodSites (d : Device) : List Nat := (List.range 42).filter fun n => (d.site n).state = 0 ∨ (d.site n).state = 1

/-- Pens of the grade: 40, 36 and 32 (table IDREV). -/
def Device.gradePens (d : Device) : Nat :=
  let g := d.idrev.toNat / 4096 % 16
  if g = 0 then 40 else if g = 1 then 36 else 32

/-- Fold of logical pen l among n pens in folds (R15). -/
def arcOf (n folds l : Nat) : Nat :=
  let q := n / folds
  let r := n % folds
  if l < r * (q + 1) then l / (q + 1) else r + (l - r * (q + 1)) / max 1 q

/-- The stop causes of a site that takes a pen: the pens pause while REFCLK is out (R276). -/
def Device.seatStops (d : Device) (cs : List StopCause) : List StopCause :=
  if d.ref.state ≠ 0 ∧ !cs.contains .refclk then .refclk :: cs else cs

/-- Logical pens mapped onto sites in ascending order, at most the grade's; the rest are spares (R125). -/
def Device.mapPens (d : Device) (ms : List Nat) (folds : Nat) : Device :=
  let n := min d.gradePens ms.length
  let d := d.onSites (List.range 42) fun t => { t with logical := 63, detour := false }
  let d := { d with bring := { d.bring with good := d.goodSites.length } }
  ms.zipIdx.foldl (fun d x => d.onSite x.1 fun t =>
    if x.2 < n then { t with state := 0, logical := x.2, fold := arcOf n folds x.2, stops := d.seatStops t.stops }
    else { t with state := 1 }) d

/-- Sites that a fold-count change maps: the good ones, in bypass mode those in service before it (R125). -/
def Device.mapSites (d : Device) : List Nat :=
  if d.bring.bypass then (List.range 42).filter fun n => d.inFold n else d.goodSites

/-! ## Ending drives and rings (R84, R406, R428) -/

/-- Every descriptor in progress on the rings of some owners completes with a status; then they are disabled. -/
def Device.closeRings (d : Device) (mine : Nat → Bool) (status : Nat) : Device :=
  let d := (d.descs.filter fun x => mine (d.ring x.sq).owner).foldl (fun d x => d.complete x.sq x.idx status 0) d
  (d.rings.filter fun e => mine e.2.owner).foldl (fun d e =>
    (d.stopFetch e.1).setRing e.1 { e.2 with state := 0, cause := 0, arm := false, reserved := 0, held := [] }) d

/-- A drive stops with ZEROISED; the fault record says so for one that stood stopped already (R406, R532). -/
def Device.zeroDrive (d : Device) (f s : Nat) : Device :=
  match d.drive f s with
  | none => d
  | some v =>
    if v.stopped.isNone then d.stopOpen f s 0x21
    else (d.onFold f fun o => { o with
      fValid := true, fSource := 0, fSlot := s, fPen := Config.unnamed (2 * d.free) % 64, fStatus := 0x21
      fAddr := Config.unnamed (2 * d.free + 1), fWatch := d.now }).draw

/-- Every drive of a fold ends with ZEROISED and its slot is released, without a report (R406). -/
def Device.endFold (d : Device) (f : Nat) : Device :=
  let ss := (d.fold f).drives.map (·.1)
  let d := ss.foldl (fun d s => d.zeroDrive f s) d
  ss.foldl (fun d s => d.releaseSlot f s) d

/-- Every fold's drives end. -/
def Device.endAll (d : Device) : Device := (List.range 8).foldl (fun d f => d.endFold f) d

/-- WRSTAT, WRSTAT_OFFSET and the aperture base of a function at reset (R528). -/
def FnRegs.clear (r : FnRegs) : FnRegs :=
  { r with valid := false, status := 0, count := 0, kind := false, offset := 0, apLo := 0, apHi := 0 }

/-! ## Clearing (R21, R22) -/

/-- A site's tallies, races and handle table cleared, musters and accumulators with them. Zeroisation or teardown
overrides the stops of a switch, a substitution and a drive (R84). -/
def Site.wipe (t : Site) : Site :=
  { t with stops := t.stops.filter fun c => c ≠ .preempt ∧ c ≠ .substitution ∧ c ≠ .drive, replay := none, inRow := 0
           tally := [], handle := [], races := List.replicate 8 [], arrived := [], seqr := .empty, saved := []
           node := { Node.empty with resendCount := t.node.resendCount } }

/-- A fold is handed over: its pens are being cleared, its tallies, races, handles and musters are gone, its key is
destroyed and its epoch advances (R22, R448). A fold that a fold-count change is still clearing goes on waiting for that
clear (R21). -/
def Device.handFold (d : Device) (f : Nat) : Device :=
  let ss := d.foldSites f
  let d := ss.foldl (fun d n => (d.onSite n (·.wipe)).startClear n) d
  let g := d.globals
  let d := { d with gtally := d.gtally.filter fun (e : Nat × W32) => e.1 < f * g ∨ f * g + g ≤ e.1 }
  let d := d.loseDrain f
  let d := d.onFold f fun o => { o with
    state := 1, handover := o.handover || decide (o.state ≠ 1), musters := [], streams := [], running := none, occ := none, incoming := none
    key := .none, epoch := o.epoch + 1, commit := 0 }
  d.saveRecord.measureFolds

/-- The fault record cleared (R532). -/
def Fold.noFault (o : Fold) : Fold :=
  { o with fValid := false, fSource := 0, fSlot := 0, fPen := 0, fStatus := 0, fAddr := 0, fWatch := 0 }

/-! ## FOLDCFG_COUNT, FOLD_HANDOVER, FOLD_READY -/

/-- Status that refuses a fold count, 0 where it is accepted (R20, R529, R531). -/
def Device.countStatus (d : Device) (f : Nat) : Nat :=
  let fosters : Bool := match d.recov.ward with | some w => w.fostering | none => false
  if !([1, 2, 4, 8].contains f) then 0x0A
  else if d.anyDrive ∨ d.flock.state = 3 ∨ fosters ∨ !d.full ∨ d.folds.any (·.state = 1) then 0x03
  else 0

/-- An accepted fold-count change (R20, R21, R125, R239, R406, R448, R532, R542). -/
def Device.changeCount (d : Device) (f : Nat) : Device :=
  let d := d.closeRings (· < 8) 0x0C
  let ms := d.mapSites
  let d := (List.range 8).foldl (fun d g => d.loseDrain g) d
  let d := d.onSites (List.range 42) (·.wipe)
  let d := (List.range 42).foldl (fun d n => d.startClear n) d
  let d := { d with foldCount := f, gtally := [] }
  let d := d.mapPens ms f
  let d := { d with folds := d.folds.zipIdx.map fun (x : Fold × Nat) => { Fold.reset with
    state := if x.2 < f then 1 else 0, epoch := x.1.epoch + 1 } }
  d.saveRecord.measureFolds

/-- A write of FOLDCFG.count through PF0. -/
def Device.writeCount (d : Device) (fn f : Nat) : Device :=
  let st := d.countStatus f
  if st ≠ 0 then d.refuse fn st 0x30000 false else (d.changeCount f).tellFolds f
/-- FOLDCFG_COUNT. -/
def Device.doFoldCount (d : Device) (fn value : Nat) : Device := if fn = 0 then d.writeCount fn (value % 16) else d
/-- FOLDCFG_COUNT. -/
def execFoldcfgCount (fn value : Nat) (s : State) : Host.Outcome State Fault Refusal :=
  s.act (·.fromRegs fn (·.doFoldCount fn value))

/-- A Function Level Reset of VF f + 1 (R406, R528). -/
def Device.resetVf (d : Device) (f : Nat) : Device :=
  let d := (d.endFold f).closeRings (· = f) 0x0C
  (d.handFold f).onFn (f + 1) (·.clear)

/-- FOLD_HANDOVER: FOLD_CTRL.handover of a fold, through PF0 (R530, R531). -/
def Device.doHandFold (d : Device) (fn f : Nat) : Device :=
  if fn ≠ 0 ∨ 8 ≤ f then d
  else if (d.fold f).drives ≠ [] ∨ (d.fold f).state ≠ 2 ∨ d.flock.state = 3 ∨ !d.full then
    d.refuse fn 0x03 (0x30100 + f * 0x40 + 8) false
  else (d.resetVf f).onFold f (·.noFault)
/-- FOLD_HANDOVER. -/
def execFoldHandover (fn f : Nat) (s : State) : Host.Outcome State Fault Refusal :=
  s.act (·.fromRegs fn (·.doHandFold fn f))

/-- Whether the clear that a fold waits for has ended: of its own pens after a handover, of the whole device after a
fold-count change (R21, R22). -/
def Device.cleared (d : Device) (f : Nat) : Bool :=
  (if (d.fold f).handover then d.foldSites f else List.range 42).all fun n => !(d.site n).clearing

/-- The folds that become ready with fold f: itself after a handover, every fold of a fold-count change (R21, R22). -/
def Device.readyWith (d : Device) (f : Nat) : List Nat :=
  if (d.fold f).handover then [f]
  else (List.range 8).filter fun g => (d.fold g).state = 1 && !(d.fold g).handover

/-- FOLD_READY: the clear and the new keys are in place, and the folds are marked ready (R21, R22, R452); the doorbells that
their owners have written since are accepted now (R22). -/
def Device.doFoldReady (d : Device) (f : Nat) : Device :=
  if 8 ≤ f ∨ (d.fold f).state ≠ 1 ∨ !d.cleared f ∨ !d.sec.drbg then d else
  let fs := d.readyWith f
  let d := fs.foldl (fun d g => d.drawKey g) d.needRoot
  let d := fs.foldl (fun d g => d.onFold g fun o => { o with state := 2, handover := false }) d
  fs.foldl (fun d g => d.ringHeld g) d
/-- FOLD_READY. -/
def execFoldReady (f : Nat) (s : State) : Host.Outcome State Fault Refusal := s.act (·.doFoldReady f)

/-! ## Zeroisation (R428, R460 to R462) -/

/-- TRACE_CTRL.enable goes to 0 without an event (R537). -/
def Device.haltTrace (d : Device) : Device := { d with trace := { d.trace with enable := false } }

/-- Volatile zeroisation (R428, R461): descriptors and rings, drives, the frames that announce it, keys, DRBG,
sessions, paddocks. -/
def Device.destroy (d : Device) : Device :=
  let d := (d.closeRings (fun _ => true) 0x12).endAll
  let d := d.declareFailed
  let d := (List.range 6).foldl (fun d k => d.doCtlSend k) { d with flock := { d.flock with zeroised := true } }
  let d := (List.range 8).foldl (fun d f => d.loseDrain f) d
  let d := { d with
    links := d.links.map fun (l : Link) => { l with keyed := false }
    fns := d.fns.map fun (r : FnRegs) => { r with ide := false }
    folds := d.folds.map fun (o : Fold) => { o with key := .none }
    flock := { d.flock with bellIde := false }
    coll := { d.coll with queue := [], slots := [], lags := [] }
    recov := { d.recov with loading := [], hdr := none, hdrPart := [], waitPages := [] }
    shears := .reset
    sec := { d.sec with drbg := false, kek := false, root := none, sessions := [], nonce := none } }
  (List.range 42).foldl (fun d n => d.startClear n) d.haltTrace

/-- Folds rebuilt after a zeroisation that leaves the device operational in full service (R461). -/
def Device.rebuild (d : Device) : Device :=
  if d.full then (List.range d.foldCount).foldl (fun d f => d.handFold f) d else d

/-- Volatile zeroisation of a device that stays operational. -/
def Device.zeroVolatile (d : Device) : Device := d.destroy.rebuild

/-- What persistent zeroisation adds (R462, R465): a cote-generation fuse, the stored record, registers 3 and 6; it
leaves approved mode (R456). -/
def Device.persistent (d : Device) : Device :=
  { d with sec := { d.sec with
    fuses := { d.sec.fuses with coteGen := min 32 (d.sec.fuses.coteGen + 1) }
    record := none, approved := false
    measure := (d.sec.measure.set 3 (zeros 64)).set 6 (zeros 64) } }

/-- Persistent zeroisation of a device that stays operational. -/
def Device.zeroPersistent (d : Device) : Device := d.destroy.persistent.rebuild

/-- SEC_CTRL_ZEROISE: #A5 written to SEC_CTRL.zeroise through PF0 (R462). -/
def Device.doSecCtrl (d : Device) (fn value : Nat) : Device :=
  if fn = 0 ∧ value % 256 = 0xA5 then d.zeroPersistent else d
/-- SEC_CTRL_ZEROISE. -/
def execSecCtrlZeroise (fn value : Nat) (s : State) : Host.Outcome State Fault Refusal := s.act (·.doSecCtrl fn value)

/-! ## Resets of functions and of the host port (R406, R492, R528) -/

/-- A Function Level Reset of PF0 (R406). -/
def Device.resetPf (d : Device) : Device := (d.endAll.closeRings (fun _ => true) 0x0C).onFn 0 (·.clear)

/-- FUNCTION_LEVEL_RESET. -/
def Device.doFlr (d : Device) (fn : Nat) : Device :=
  if fn = 0 then d.resetPf else if fn ≤ d.foldCount ∧ d.full then d.resetVf (fn - 1) else d
/-- FUNCTION_LEVEL_RESET. -/
def execFunctionLevelReset (fn : Nat) (s : State) : Host.Outcome State Fault Refusal := s.act (·.doFlr fn)

/-- HOST_PORT_RESET: as a Function Level Reset of PF0, for every function's registers, and IDE streams and SPDM
sessions end with the configuration space (R492, R528). -/
def Device.doPortReset (d : Device) : Device :=
  let d := d.resetPf
  let d := if d.flock.isBell then d.tellMembers fun _ => some (.ide false) else d
  { d with
    hport := .reset
    fns := d.fns.map fun (r : FnRegs) => { r.clear with ide := false }
    sec := { d.sec with sessions := [], spdmUp := 0 } }
/-- HOST_PORT_RESET. -/
def execHostPortReset (s : State) : Host.Outcome State Fault Refusal := s.act (·.doPortReset)

/-! ## Sites (R70 to R72) -/

/-- SITE_CTRL_RETIRE: SITE_CTRL.retire through PF0, in full service only. -/
def Device.doSiteRetire (d : Device) (fn n : Nat) : Device :=
  if fn ≠ 0 ∨ 42 ≤ n then d
  else if !d.full then d.refuse fn 0x02 (0x40000 + n * 0x1000 + 0x20) false
  else if d.inFold n then d.retirePen n
  else if (d.site n).state = 1 then
    let d := (d.onSite n fun t => { t with state := 2 }).event .penRetired [n, 63]
    { d with persist := { d.persist with retired := nins d.persist.retired n } }
  else d
/-- SITE_CTRL_RETIRE. -/
def execSiteCtrlRetire (fn n : Nat) (s : State) : Host.Outcome State Fault Refusal :=
  s.act (·.fromRegs fn (·.doSiteRetire fn n))

/-- SITE_CTRL_CLEAR_COUNTS: the counts clear, the sliding window's history does not. -/
def Device.doClearCounts (d : Device) (fn n : Nat) : Device :=
  if fn ≠ 0 ∨ 42 ≤ n then d else d.onSite n fun t => { t with mismatch := 0, lostNan := 0 }
/-- SITE_CTRL_CLEAR_COUNTS. -/
def execSiteCtrlClearCounts (fn n : Nat) (s : State) : Host.Outcome State Fault Refusal :=
  s.act (·.fromRegs fn (·.doClearCounts fn n))

/-! ## ENTER_FULL_SERVICE (R416, R452, R483) -/

/-- Whether the conditions of R483 hold. -/
def Device.mayEnter (d : Device) : Bool :=
  d.bring.stage = 3 && d.bring.sram && d.bring.kat && d.mem.state = 2 && d.bring.links && !d.bring.hold && d.sec.drbg

/-- ENTER_FULL_SERVICE: the six steps of R483. -/
def Device.doEnterS4 (d : Device) : Device :=
  if !d.mayEnter then d else
  let ss := (d.fold 0).drives.map (·.1)
  let d := ss.foldl (fun d s => (d.endDrive 0 s).releaseSlot 0 s) d
  let d := d.onSites (d.foldSites 0) fun t => { t.cleared with clearing := false }
  let d := (d.mapPens d.goodSites 1).needRoot
  let d := (d.drawKey 0).onFold 0 fun o => { o with state := 2 }
  let d := { d with
    hefts := d.hefts.map fun (h : Heft) => ({ h with fixed := false } : Heft).follow
    bring := { d.bring with stage := 4 } }
  d.supply.haltTrace
/-- ENTER_FULL_SERVICE. -/
def execEnterFullService (s : State) : Host.Outcome State Fault Refusal := s.act (·.doEnterS4)

end Sys2Proof.Machine
end

