-- ==== Sys2Proof/Machine/Security.lean ====
section
/-!
DEFINITION. The crook: boot and firmware images, the mailbox, SPDM and IDE_KM, self-tests, DRBG, tamper, TAP (14;
16, R518).
-/
namespace Sys2Proof.Machine

/-! ## Firmware images (R433 to R437) -/

/-- A field of an image header, little-endian. -/
def headField (h : List Byte) (off n : Nat) : Nat := leNat ((h.drop off).take n)

/-- The first check of R433 that an image fails, by its number; none where it passes. A key slot beyond 3 counts as
revoked. -/
def Sec.imageReason (s : Sec) (i : Image) : Option Nat :=
  let h := i.header
  let part (off n : Nat) : List Byte := (h.drop off).take n
  let slot := headField h 0x14 4
  let len := headField h 0x18 8
  if part 0 4 ≠ [0x41#8, 0x48#8, 0x4E#8, 0x56#8] ∨ headField h 4 4 ≠ 1 then some 1
  else if 4 ≤ slot ∨ bit s.fuses.fwRevoked slot then some 2
  else if headField h 0xC 4 < s.fuses.floor then some 3
  else if len < 1 ∨ 33554432 < len ∨ i.body.length ≠ len then some 4
  else if part 0x20 64 ≠ sha512 i.body then some 5
  else if !Config.verify 6 ((List.range 64).map (Config.romKeyDigest slot)) (part 0 0x60) (part 0x60 132) then some 6
  else if s.fuses.owner ∧ sha512 (part 0x168 133) ≠ s.fuses.ownerHash then some 7
  else if s.fuses.owner ∧ !Config.verify 8 (part 0x168 133) (part 0 0xE4) (part 0xE4 132) then some 8
  else none

/-- Fuse settings, secrets excluded, as a content to measure (table Measurement registers). -/
def Fuses.content (f : Fuses) : List Nat :=
  [f.fwRevoked, leNat f.ownerHash, f.owner.toNat, f.floor, f.coteGen, f.tamperCount, f.decommissioned.toNat]

/-- An accepted image runs: its header is measured, the floor is raised where it asks, the fuse settings are measured
(R435, R439). -/
def Device.runImage (d : Device) (i : Image) (ram : Bool) : Device :=
  let sv := headField i.header 0xC 4
  let up := bit (headField i.header 0x10 4) 0 && decide (sv ≤ 64)
  let d := d.extendBy 1 (sha512 (i.header.take 0x1ED))
  let d := { d with sec := { d.sec with
    state := 0, bootFail := 0, source := ram, image := some i.header
    fuses := { d.sec.fuses with floor := if up then max d.sec.fuses.floor sv else d.sec.fuses.floor } } }
  d.measure 2 d.sec.fuses.content

/-- The recovery function is entered with a reason (R437). -/
def Device.toRecovery (d : Device) (reason : Nat) : Device :=
  { d with sec := { d.sec with state := 3, bootFail := reason, image := none } }

/-- A site as the repair and field-sparing maps leave it before its test (R72, R153, R479): retired, disabled at
test or not yet tested, with the spare rows of both maps in use. -/
def Persist.site (p : Persist) (n : Nat) : Site :=
  let mine (code : Nat) (l : List (Nat × Nat)) : List Nat := (l.filter fun e => e.1 = code * 64 + n).map (·.2)
  let accs := mine 0 p.testSpared ++ mine 0 p.spared
  let tals := mine 1 p.testSpared ++ mine 1 p.spared
  { Site.reset with
    state := if p.testBad.contains n then 3 else if p.retired.contains n then 2 else 4
    accSpared := accs.foldl (fun m k => let b := k / 2 ^ 12 % 256; sset 0 m b (sget 0 m b + 1)) []
    accField := (mine 0 p.spared).length
    tallySpared := tals.length
    spared := (accs ++ tals).foldl nins [] }

/-- The gate's stores under the two maps. -/
def Persist.gate (p : Persist) : GateRows :=
  let mine (code : Nat) : List Nat := ((p.testSpared ++ p.spared).filter fun e => e.1 / 64 = code).map (·.2)
  ⟨(mine 2).length, (mine 3).length, [], (mine 2 ++ mine 3).foldl nins [], [], []⟩

/-- The repair and field-sparing maps applied in S2 (R153, R479). -/
def Device.applyMaps (d : Device) : Device :=
  { d with sites := (List.range 42).map d.persist.site, gateRows := d.persist.gate }

/-- The security record read when the flash controller comes up in S2 (R454, R455): none leaves everything as it is,
a readable one gives the cote root, the epochs and the approved setting, an unreadable one is lost. -/
def Device.readRecord (d : Device) : Device :=
  let d := { d with sec := { d.sec with recordRead := true } }
  match d.sec.record with
  | none => d
  | some r =>
    if d.sec.readable then
      { d with
        sec := { d.sec with kek := true, root := some r.root, approved := r.approved }
        folds := d.folds.zipIdx.map fun (x : Fold × Nat) => { x.1 with epoch := r.epochs.getD x.2 0 } }
    else
      let d := { d with
        sec := { d.sec with kek := true, root := some d.free, approved := false, lost := true, record := none }
        folds := d.folds.map fun (o : Fold) => { o with epoch := 0 } }
      (d.draw.event .secRecordLost []).saveRecord

/-- What S2 does first once an image runs: the maps, the security record (R453, R454, R479). -/
def Device.joinUp (d : Device) : Device := if d.bring.stage = 2 then d.applyMaps.readRecord else d

/-- Whether TAMPER_N counts as asserted: low for 200 ticks (R463). -/
def Device.tampered (d : Device) : Bool := match d.sec.tamperLow with | some n => 200 ≤ n | none => false

/-- BOOT: the boot ROM measures itself and checks the image in SPI NOR; it runs it or enters the recovery function
(R433 to R435, R437, R464, R466). -/
def Device.doBoot (d : Device) : Device :=
  if d.bring.stage = 0 ∨ d.sec.state ≠ 0 ∨ d.sec.image.isSome then d else
  let d := d.extendBy 0 ((List.range 64).map Config.romDigest)
  if d.sec.fuses.decommissioned then { d with sec := { d.sec with state := 4 } }
  else if d.tampered then d.toRecovery 9
  else match d.sec.nor with
    | none => d.toRecovery 1
    | some i =>
      match d.sec.imageReason i with
      | some r => d.toRecovery r
      | none => d.runImage i false
/-- BOOT. -/
def execBoot (s : State) : Host.Outcome State Fault Refusal := s.act (·.doBoot)

/-! ## The mailbox (R438 to R440, R466 to R471) -/

/-- A mailbox command ends with a status and a response. -/
def Device.answer (d : Device) (fn status : Nat) (bs : List Byte) : Device :=
  d.onFn fn fun r => { r with
    mbBusy := false, mbStatus := status, mbLength := bs.length, buffer := r.buffer.store 0 bs }

/-- A command that ends with a status alone. -/
def Device.answerStatus (d : Device) (fn status : Nat) : Device := d.answer fn status []

/-- Whether the device is in the recovery function (R437, R466). -/
def Device.recovering (d : Device) : Bool := d.sec.state = 3 || d.sec.state = 4

/-- Whether a command is permitted by function, state and self-tests (R438, R444, R445, R466, R468, R481). -/
def Device.permits (d : Device) (fn op : Nat) : Bool :=
  if fn ≠ 0 ∧ op ≠ 0x01 ∧ op ≠ 0x02 then false
  else if d.sec.state = 2 then false
  else if d.sec.state = 3 then [0x01, 0x02, 0x21, 0x22, 0x30].contains op
  else if d.sec.state = 4 then [0x01, 0x22, 0x30].contains op
  else if op = 0x01 ∨ op = 0x22 ∨ op = 0x30 then true
  else op ≠ 0x21 && d.bring.kat && d.sec.state = 1

/-- A command carried out where it is permitted, and ended with NOT_PERMITTED where it is not; one that arrives while
another is in progress is ignored (table MBOX_STATUS), and one that a write of MBOX_CMD started goes on. -/
def Device.command (d : Device) (fn op : Nat) (g : Device → Device) : Device :=
  if 9 ≤ fn ∨ ((d.fn fn).mbBusy ∧ (d.fn fn).mbReq ≠ op) then d
  else if !d.permits fn op then d.answerStatus fn 3
  else g d

/-- Bytes of a function's mailbox buffer. -/
def Device.request (d : Device) (fn off n : Nat) : List Byte := (d.fn fn).buffer.bytes off n

/-- GET_CERT: the certificate chain, up to 2,047 bytes. -/
def Device.doGetCert (d : Device) (fn : Nat) : Device := d.command fn 0x01 fun d => d.answer fn 0 (certChain.take 2047)
/-- GET_CERT. -/
def execGetCert (fn : Nat) (s : State) : Host.Outcome State Fault Refusal := s.act (·.doGetCert fn)

/-- The signed part of an attestation report, its signature and its tail (table Attestation report). -/
def Device.report (d : Device) (fn : Nat) (nonce : List Byte) : List Byte :=
  let h := d.sec.image.getD []
  let vf := fn ≠ 0
  let flags := d.approvedFlag.toNat + 2 * d.sec.fuses.owner.toNat + 4 * d.sec.source.toNat +
    8 * (decide vf).toNat + 16 * d.tampered.toNat
  leBytes 4 3 ++ leBytes 4 d.idrev.toNat ++ leBytes 8 d.serial.toNat ++ leBytes 4 (headField h 8 4) ++
  leBytes 4 (headField h 0xC 4) ++ leBytes 4 d.sec.fuses.floor ++ leBytes 4 flags ++ leBytes 1 d.bring.stage ++
  leBytes 1 d.foldCount ++ leBytes 1 (if vf then fn - 1 else 0xFF) ++ leBytes 1 d.sec.fuses.tamperCount ++
  leBytes 4 (if vf then (d.fold (fn - 1)).epoch else 0) ++ leBytes 8 d.now ++ nonce ++
  d.ownerField ++
  (List.range 64).map (Config.romKeyDigest (headField h 0x14 4)) ++ d.sec.measure.flatMap id ++
  certHash ++ randomBytes d.free 132 ++ zeros 108

/-- ATTEST: a signed report with the caller's nonce (R440). -/
def Device.doAttest (d : Device) (fn : Nat) : Device :=
  d.command fn 0x02 fun d => (d.answer fn 0 (d.report fn (d.request fn 0 64))).draw
/-- ATTEST. -/
def execAttest (fn : Nat) (s : State) : Host.Outcome State Fault Refusal := s.act (·.doAttest fn)

/-- EXTEND: register 6 is extended with the request's 64 bytes (R439). -/
def Device.doExtend (d : Device) (fn : Nat) : Device :=
  d.command fn 0x03 fun d => (d.extendBy 6 (d.request fn 0 64)).answerStatus fn 0
/-- EXTEND. -/
def execExtend (fn : Nat) (s : State) : Host.Outcome State Fault Refusal := s.act (·.doExtend fn)

/-- GET_NONCE: a nonce valid for one command; none is drawn while the DRBG holds no state. -/
def Device.doGetNonce (d : Device) (fn : Nat) : Device :=
  d.command fn 0x04 fun d =>
    if !d.sec.drbg then d.answerStatus fn 3
    else (({ d with sec := { d.sec with nonce := some d.free } }).answer fn 0 (randomBytes d.free 64)).draw
/-- GET_NONCE. -/
def execGetNonce (fn : Nat) (s : State) : Host.Outcome State Fault Refusal := s.act (·.doGetNonce fn)

/-- OWNER_ENROL: the owner's key hash is blown, once (R467). -/
def Device.doOwnerEnrol (d : Device) (fn : Nat) : Device :=
  d.command fn 0x10 fun d =>
    if d.sec.fuses.owner then d.answerStatus fn 3 else
    ({ d with sec := { d.sec with fuses := { d.sec.fuses with
      owner := true, ownerHash := sha512 (d.request fn 0 133) } } }).answerStatus fn 0
/-- OWNER_ENROL. -/
def execOwnerEnrol (fn : Nat) (s : State) : Host.Outcome State Fault Refusal := s.act (·.doOwnerEnrol fn)

/-- Whether a Crypto Officer's signature over an opcode and the latest nonce verifies (R471). -/
def Device.officer (d : Device) (fn op : Nat) : Bool :=
  match d.sec.nonce with
  | some n => Config.verify 9 d.sec.fuses.ownerHash (sha512 (BitVec.ofNat 8 op :: randomBytes n 64)) (d.request fn 0 132)
  | none => false

/-- A Crypto Officer command: it needs an enrolled owner and a signature, and voids the nonce (R471). -/
def Device.byOfficer (d : Device) (fn op : Nat) (g : Device → Device) : Device :=
  if !d.sec.fuses.owner then d.answerStatus fn 3 else
  let ok := d.officer fn op
  let d := { d with sec := { d.sec with nonce := none } }
  if ok then g d else d.answerStatus fn 2

/-- Register 3 extended with the approved-mode setting and the TAP's state (table Measurement registers). -/
def Device.measureMode (d : Device) : Device := d.measure 3 [d.sec.approved.toNat, (decide (d.tap = .die)).toNat]

/-- SET_APPROVED: approved mode is entered before full service, and kept in the security record (R453, R455, R468). -/
def Device.doSetApproved (d : Device) (fn : Nat) : Device :=
  d.command fn 0x11 fun d =>
    if d.full then d.answerStatus fn 3 else
    d.byOfficer fn 0x11 fun d =>
      let was := d.sec.approved
      let d := ({ d with sec := { d.sec with approved := true } } : Device).needRoot.saveRecord
      (if was then d else d.measureMode).answerStatus fn 0
/-- SET_APPROVED. -/
def execSetApproved (fn : Nat) (s : State) : Host.Outcome State Fault Refusal := s.act (·.doSetApproved fn)

/-- Service ends: only the recovery function is left, on core power (R437, R466). -/
def Device.endService (d : Device) : Device :=
  { d with
    bring := { d.bring with stage := min d.bring.stage 2 }
    folds := d.folds.map fun (o : Fold) => { o with state := 0 } }

/-- DECOMMISSION: identity and device secret are destroyed (R460, R466). -/
def Device.doDecommission (d : Device) (fn : Nat) : Device :=
  d.command fn 0x12 fun d =>
    d.byOfficer fn 0x12 fun d =>
      let d := d.destroy.persistent.endService
      ({ d with sec := { d.sec with
        state := 4, image := none, fuses := { d.sec.fuses with decommissioned := true } } }).answerStatus fn 0
/-- DECOMMISSION. -/
def execDecommission (fn : Nat) (s : State) : Host.Outcome State Fault Refusal := s.act (·.doDecommission fn)

/-- FW_UPDATE: an image from host memory is checked and written to SPI NOR; it runs from the next module reset
(R436, R468 to R470). -/
def Device.doFwUpdate (d : Device) (fn : Nat) (image : Option Image) : Device :=
  d.command fn 0x20 fun d =>
    match image with
    | none => d.answerStatus fn 6
    | some i =>
      match d.sec.imageReason i with
      | some r => d.answer fn 4 [BitVec.ofNat 8 r]
      | none => ({ d with sec := { d.sec with nor := some i } }).answerStatus fn 0
/-- FW_UPDATE. -/
def execFwUpdate (fn : Nat) (image : Option Image) (s : State) : Host.Outcome State Fault Refusal :=
  s.act (·.doFwUpdate fn image)

/-- RECOVERY_LOAD: an image from host memory runs from RAM; not while TAMPER_N stays asserted (R438, R464, R469). -/
def Device.doRecoveryLoad (d : Device) (fn : Nat) (image : Option Image) : Device :=
  d.command fn 0x21 fun d =>
    if d.tampered then d.answerStatus fn 3
    else match image with
    | none => d.answerStatus fn 6
    | some i =>
      match d.sec.imageReason i with
      | some r => d.answer fn 4 [BitVec.ofNat 8 r]
      | none => (({ d with sec := { d.sec with ram := some i } }).runImage i true).joinUp.answerStatus fn 0
/-- RECOVERY_LOAD. -/
def execRecoveryLoad (fn : Nat) (image : Option Image) (s : State) : Host.Outcome State Fault Refusal :=
  s.act (·.doRecoveryLoad fn image)

/-- RECOVERY_WRITE: the image in RAM is checked and written to SPI NOR; without one there is nothing to write
(R436, R438). -/
def Device.doRecoveryWrite (d : Device) (fn : Nat) : Device :=
  d.command fn 0x22 fun d =>
    match d.sec.ram with
    | none => d.answerStatus fn 3
    | some i =>
      match d.sec.imageReason i with
      | some r => d.answer fn 4 [BitVec.ofNat 8 r]
      | none => ({ d with sec := { d.sec with nor := some i } }).answerStatus fn 0
/-- RECOVERY_WRITE. -/
def execRecoveryWrite (fn : Nat) (s : State) : Host.Outcome State Fault Refusal := s.act (·.doRecoveryWrite fn)

/-- ZEROISE: persistent zeroisation (R462). -/
def Device.doZeroise (d : Device) (fn : Nat) : Device :=
  d.command fn 0x30 fun d => d.zeroPersistent.answerStatus fn (if d.sec.fuses.coteGen < 32 then 0 else 5)
/-- ZEROISE. -/
def execZeroise (fn : Nat) (s : State) : Host.Outcome State Fault Refusal := s.act (·.doZeroise fn)

/-! ## SPDM (R441) -/

/-- Whether the host port answers SPDM: configuration is served and the self-tests have passed (R444, R478). -/
def Device.spdmServes (d : Device) : Bool := 2 ≤ d.bring.stage && d.bring.kat && d.sec.state = 1

/-- An SPDM request answered where SPDM is served and the connection has come far enough; an error else. -/
def Device.spdm (d : Device) (need : Nat) (g : Device → Device) : Device :=
  if d.spdmServes ∧ need ≤ d.sec.spdmUp then g d else d.emit (.nack .spdm)

/-- An answer on the DOE mailbox. -/
def Device.sayPlain (d : Device) (bs : List Byte) : Device := d.emit (.reply .spdm bs)
/-- An answer whose body only DSP0274 lays out (log entry 11). -/
def Device.sayFree (d : Device) (request n : Nat) : Device :=
  (d.sayPlain ((List.range n).map (Config.spdmBody request d.free))).draw

/-- GET_VERSION: SPDM 1.2; the connection starts afresh. -/
def Device.doGetVersion (d : Device) : Device :=
  d.spdm 0 fun d => ({ d with sec := { d.sec with spdmUp := 1 } }).sayPlain [0x12#8]
/-- GET_VERSION. -/
def execGetVersion (s : State) : Host.Outcome State Fault Refusal := s.act (·.doGetVersion)

/-- GET_CAPABILITIES. -/
def Device.doGetCapabilities (d : Device) : Device :=
  d.spdm 1 fun d => ({ d with sec := { d.sec with spdmUp := max 2 d.sec.spdmUp } }).sayFree 1 20
/-- GET_CAPABILITIES. -/
def execGetCapabilities (s : State) : Host.Outcome State Fault Refusal := s.act (·.doGetCapabilities)

/-- NEGOTIATE_ALGORITHMS: ECDSA P-521, SHA-512 and AES-256-GCM. -/
def Device.doNegotiate (d : Device) : Device :=
  d.spdm 2 fun d => ({ d with sec := { d.sec with spdmUp := 3 } }).sayFree 2 52
/-- NEGOTIATE_ALGORITHMS. -/
def execNegotiateAlgorithms (s : State) : Host.Outcome State Fault Refusal := s.act (·.doNegotiate)

/-- GET_DIGESTS: the SHA-512 of the certificate chain. -/
def Device.doGetDigests (d : Device) : Device := d.spdm 3 fun d => d.sayPlain (sha512 certChain)
/-- GET_DIGESTS. -/
def execGetDigests (s : State) : Host.Outcome State Fault Refusal := s.act (·.doGetDigests)

/-- GET_CERTIFICATE: a portion of the chain. -/
def Device.doGetCertificate (d : Device) (off len : Nat) : Device :=
  d.spdm 3 fun d => d.sayPlain ((certChain.drop off).take len)
/-- GET_CERTIFICATE. -/
def execGetCertificate (offset len : Nat) (s : State) : Host.Outcome State Fault Refusal :=
  s.act (·.doGetCertificate offset len)

/-- CHALLENGE: a signed response that carries the nonce. -/
def Device.doChallenge (d : Device) (nonce : List Byte) : Device :=
  d.spdm 3 fun d => (d.sayPlain (nonce ++ randomBytes d.free 132)).draw
/-- CHALLENGE. -/
def execChallenge (nonce : List Byte) (s : State) : Host.Outcome State Fault Refusal := s.act (·.doChallenge nonce)

/-- GET_MEASUREMENTS: registers 0 to 6, all or one. -/
def Device.doGetMeasurements (d : Device) (index : Nat) : Device :=
  d.spdm 3 fun d => d.sayPlain (if index < 7 then d.sec.measure.getD index [] else (d.sec.measure.take 7).flatMap id)
/-- GET_MEASUREMENTS. -/
def execGetMeasurements (index : Nat) (s : State) : Host.Outcome State Fault Refusal :=
  s.act (·.doGetMeasurements index)

/-- KEY_EXCHANGE: a session's handshake starts. -/
def Device.doKeyExchange (d : Device) (_ : List Byte) : Device :=
  d.spdm 3 fun d =>
    if !d.sec.drbg then d.emit (.nack .spdm) else
    ({ d with sec := { d.sec with
      sessions := d.sec.sessions ++ [(⟨d.sec.nextSession, false, false⟩ : Session)], nextSession := d.sec.nextSession + 1 } }).sayFree 3 132
/-- KEY_EXCHANGE. -/
def execKeyExchange (requester : List Byte) (s : State) : Host.Outcome State Fault Refusal :=
  s.act (·.doKeyExchange requester)

/-- FINISH: the handshake completes; a requester certificate signed by the enrolled owner key makes it a User
session (table Roles). A wrong MAC ends the handshake. -/
def Device.doFinish (d : Device) (id : Nat) (cert : Option (List Byte × List Byte)) (ok : Bool) : Device :=
  d.spdm 3 fun d =>
    match d.sec.sessions.find? fun x => x.id = id ∧ !x.ready with
    | none => d.emit (.nack .spdm)
    | some _ =>
      let rest := d.sec.sessions.filter fun x => x.id ≠ id
      if !ok then ({ d with sec := { d.sec with sessions := rest } }).emit (.nack .spdm) else
      let user := d.sec.fuses.owner && match cert with
        | some (c, sig) => Config.verify 10 d.sec.fuses.ownerHash c sig
        | none => false
      ({ d with sec := { d.sec with sessions := rest ++ [(⟨id, true, user⟩ : Session)] } }).sayFree 4 64
/-- FINISH. -/
def execFinish (session : Nat) (userCert : Option (List Byte × List Byte)) (macOk : Bool) (s : State) :
    Host.Outcome State Fault Refusal := s.act (·.doFinish session userCert macOk)

/-- END_SESSION: the session and its keys are gone. -/
def Device.doEndSession (d : Device) (id : Nat) : Device :=
  d.spdm 3 fun d =>
    if d.sec.sessions.any (·.id = id) then
      ({ d with sec := { d.sec with sessions := d.sec.sessions.filter fun x => x.id ≠ id } }).sayFree 5 4
    else d.emit (.nack .spdm)
/-- END_SESSION. -/
def execEndSession (session : Nat) (s : State) : Host.Outcome State Fault Refusal := s.act (·.doEndSession session)

/-- IDE_KM: keys of a function's selective stream, or of the link stream, programmed in a User session; the
bellwether tells the members about PF0's (R441, R459; table Roles). -/
def Device.doIdeKm (d : Device) (id fn : Nat) (selective : Bool) : Device :=
  d.spdm 3 fun d =>
    if !(d.sec.sessions.any fun x => x.id = id && x.ready && x.user) ∨ 9 ≤ fn then d.emit (.nack .spdm) else
    let d := if selective then d.onFn fn fun r => { r with ide := true }
      else { d with sec := { d.sec with linkIde := true } }
    let d := if selective ∧ fn = 0 ∧ d.flock.isBell then d.tellMembers fun _ => some (.ide true) else d
    d.sayFree 6 4
/-- IDE_KM. -/
def execIdeKm (session fn : Nat) (selective : Bool) (s : State) : Host.Outcome State Fault Refusal :=
  s.act (·.doIdeKm session fn selective)

/-! ## Self-tests and the DRBG (R442 to R445) -/

/-- SELF_TESTS: the power-up tests pass after S3's SRAM test; a failed test, of any kind, puts the device into the
error state after volatile zeroisation. -/
def Device.doSelfTests (d : Device) (failing : Option Nat) : Device :=
  match failing with
  | some t =>
    if d.sec.state = 2 then d else
    let d := (d.event .selftestFail [t]).destroy
    { d with
      sec := { d.sec with state := 2 }
      bring := { d.bring with fail := 2 }
      pins := { d.pins with fault := true }
      folds := d.folds.map fun (o : Fold) => { o with state := 0 } }
  | none =>
    if d.bring.stage < 3 ∨ !d.bring.sram ∨ d.sec.state ≠ 0 then d else
    { d with sec := { d.sec with state := 1, drbg := true, kek := true }, bring := { d.bring with kat := true } }
/-- SELF_TESTS. -/
def execSelfTests (failing : Option Nat) (s : State) : Host.Outcome State Fault Refusal :=
  s.act (·.doSelfTests failing)

/-- DRBG_RESEED: fresh state from the entropy source (R442); after a zeroisation it makes keys possible again
(R461). -/
def Device.doReseed (d : Device) : Device :=
  if d.bring.kat ∧ d.sec.state = 1 then ({ d with sec := { d.sec with drbg := true } } : Device).draw else d
/-- DRBG_RESEED. -/
def execDrbgReseed (s : State) : Host.Outcome State Fault Refusal := s.act (·.doReseed)

/-! ## Tamper (R463, R507) -/

/-- TAMPER_N_FALL: the count of low ticks starts. -/
def Device.doTamperFall (d : Device) : Device :=
  if d.sec.tamperLow.isSome then d
  else { d with pins := { d.pins with tamper := false }, sec := { d.sec with tamperLow := some 0 } }
/-- TAMPER_N_FALL. -/
def execTamperNFall (s : State) : Host.Outcome State Fault Refusal := s.act (·.doTamperFall)

/-- TAMPER_N_RISE: the count ends, and with it SEC_STATUS.tamper. -/
def Device.doTamperRise (d : Device) : Device :=
  { d with pins := { d.pins with tamper := true }, sec := { d.sec with tamperLow := none, tamperDone := false } }
/-- TAMPER_N_RISE. -/
def execTamperNRise (s : State) : Host.Outcome State Fault Refusal := s.act (·.doTamperRise)

/-- TAMPER_RESPONSE: TAMPER_N low for 200 ticks ends every mailbox command and zeroises persistently, with a
tamper-count fuse and an event, once for each assertion (R460, R463). -/
def Device.doTamper (d : Device) : Device :=
  if !d.tampered ∨ d.sec.tamperDone then d else
  let d := (d.event .tamper []).zeroPersistent
  { d with
    fns := d.fns.map fun (r : FnRegs) => { r with mbBusy := false }
    sec := { d.sec with
      tamperDone := true, fuses := { d.sec.fuses with tamperCount := min 32 (d.sec.fuses.tamperCount + 1) } } }
/-- TAMPER_RESPONSE. -/
def execTamperResponse (s : State) : Host.Outcome State Fault Refusal := s.act (·.doTamper)

/-! ## TAP (R457, R458, R518) -/

/-- Whether R457 binds the TAP: in approved mode, and until the security record has been read (R454). -/
def Device.tapBound (d : Device) : Bool := d.sec.approved || !d.sec.recordRead

/-- A TAP instruction takes effect; leaving die state is measured. -/
def Device.setTap (d : Device) (t : TapInstr) : Device :=
  let was := decide (d.tap = .die)
  let d := { d with tap := t }
  if was && !decide (t = .die) then d.measureMode else d

/-- A TAP instruction, from S1 on. -/
def Device.tapAct (d : Device) (g : Device → Device) : Device := if 1 ≤ d.bring.stage then g d else d

/-- BYPASS. -/
def Device.doBypass (d : Device) : Device := d.tapAct fun d => d.setTap .bypass
/-- BYPASS. -/
def execBypass (s : State) : Host.Outcome State Fault Refusal := s.act (·.doBypass)

/-- The identification code: minor revision, part, Norbeku's manufacturer code (R518). -/
def Device.idcode (d : Device) : Nat := d.idrev.toNat % 16 * 2 ^ 28 + 0x57B4 * 2 ^ 12 + 0x5B3 * 2 + 1

/-- IDCODE. -/
def Device.doIdcode (d : Device) : Device :=
  d.tapAct fun d => (d.setTap .idcode).emit (.reply .tap (leBytes 4 d.idcode))
/-- IDCODE. -/
def execIdcode (s : State) : Host.Outcome State Fault Refusal := s.act (·.doIdcode)

/-- SAMPLE/PRELOAD: the boundary cells are loaded. -/
def Device.doSample (d : Device) (cells : List Bool) : Device :=
  d.tapAct fun d => { d.setTap .sample with cells := cells }
/-- SAMPLE/PRELOAD. -/
def execSamplePreload (cells : List Bool) (s : State) : Host.Outcome State Fault Refusal := s.act (·.doSample cells)

/-- EXTEST: the boundary cells drive the pins. -/
def Device.doExtest (d : Device) : Device := d.tapAct fun d => (d.setTap .extest).emit (.cells d.cells)
/-- EXTEST. -/
def execExtest (s : State) : Host.Outcome State Fault Refusal := s.act (·.doExtest)

/-- An IEEE 1149.6 instruction: BYPASS where R457 binds the TAP; the J2 lanes only from S2 (R518). -/
def Device.laneTest (d : Device) (t : TapInstr) : Device :=
  d.tapAct fun d =>
    if d.tapBound then d.setTap .bypass
    else if 2 ≤ d.bring.stage then (d.setTap t).emit (.cells d.cells)
    else d.setTap t
/-- EXTEST_PULSE. -/
def Device.doPulse (d : Device) : Device := d.laneTest .extestPulse
/-- EXTEST_PULSE. -/
def execExtestPulse (s : State) : Host.Outcome State Fault Refusal := s.act (·.doPulse)
/-- EXTEST_TRAIN. -/
def Device.doTrain (d : Device) : Device := d.laneTest .extestTrain
/-- EXTEST_TRAIN. -/
def execExtestTrain (s : State) : Host.Outcome State Fault Refusal := s.act (·.doTrain)

/-- TAP_DIE_STATE_INSTRUCTION: BYPASS where R457 binds the TAP, else volatile zeroisation first, measured, and only
then the instruction (R458). -/
def Device.doDieState (d : Device) : Device :=
  d.tapAct fun d =>
    if d.tapBound then d.setTap .bypass
    else ({ d.zeroVolatile with tap := .die } : Device).measureMode
/-- TAP_DIE_STATE_INSTRUCTION. -/
def execTapDieStateInstruction (s : State) : Host.Outcome State Fault Refusal := s.act (·.doDieState)

end Sys2Proof.Machine
end

