-- ==== Sys2Proof/Machine/Power.lean ====
section
/-!
DEFINITION. Power, temperature, resets and bring-up (15), PMBus and SMBus (16).
-/
namespace Sys2Proof.Machine

/-! ## Losing and restarting (R475, R490, table Reset kinds) -/

/-- What outlasts every reset: identity, pins, the 48 V side, fuses, SPI NOR, the cote with its finished images, the
persistent fault record, and the records of the model (R490; table Reset kinds). -/
def Device.kept (d : Device) : Device :=
  { Device.reset with
    idrev := d.idrev, serial := d.serial, persist := d.persist, host := d.host, events := d.events, out := d.out
    free := d.free
    pins := { d.pins with pg := false }
    power := { Device.reset.power with
      operation := d.power.operation, uv := d.power.uv, ov := d.power.ov, cml := d.power.cml }
    sec := { Device.reset.sec with fuses := d.sec.fuses, record := d.sec.record, nor := d.sec.nor }
    cote := { d.cote with drain := [], waiting := [] }
    flock := .reset (d.pins.slotId % 64) }

/-- Core power is lost: every rail goes, and with the rails every heft but the management heft; the crook and the
always-on island stay (R475; table Reset kinds). -/
def Device.coreLost (d : Device) (cause : Nat) : Device :=
  { d.kept with
    power := { d.kept.power with alert := d.power.alert, cleared := d.power.cleared }
    watch := { d.kept.watch with age := d.watch.age }
    bring := { d.kept.bring with resets := d.bring.resets, cause := cause }
    sec := { d.sec with state := if d.sec.state = 1 then 0 else d.sec.state, sessions := [], spdmUp := 0, linkIde := false }
    tap := d.tap, cells := d.cells, ref := d.ref
    hefts := (List.range 49).map fun (h : Nat) =>
      if h = 48 then
        let x := d.heft 48
        { x with step := 4, fixed := false, slewing := decide (x.step ≠ 4) && !x.holdover, aligned := [] }
      else .reset h
    flock := .reset d.flock.rank }

/-- A module reset: the crook starts at the boot ROM, SLOT_ID is sampled, the cause is recorded (R324, R490). -/
def Device.reboot (d : Device) (cause : Nat) : Device :=
  { d.kept with
    pins := { d.kept.pins with fault := false, thermtrip := false }
    power := { d.kept.power with converters := d.power.converters, rails := d.power.rails }
    bring := { d.kept.bring with resets := satAdd 16 d.bring.resets 1, cause := cause }
    sec := { d.kept.sec with tamperLow := d.sec.tamperLow, tamperDone := d.sec.tamperDone } }

/-- MODULE_RESET: MOD_RESET_N pulsed low with SLOT_ID as strapped at its release. -/
def Device.doModuleReset (d : Device) (slotId : Nat) : Device :=
  let d := { d with pins := { d.pins with slotId := slotId % 64 } }
  if d.bring.stage = 0 then d else d.reboot 1
/-- MODULE_RESET. -/
def execModuleReset (slotId : Nat) (s : State) : Host.Outcome State Fault Refusal := s.act (·.doModuleReset slotId)

/-- RESET_CTRL_MODULE: #5A through PF0; in the recovery function the register does not respond (R524). -/
def Device.doResetCtrl (d : Device) (fn value : Nat) : Device :=
  if fn = 0 ∧ value % 256 = 0x5A ∧ 2 ≤ d.bring.stage ∧ !d.recovering then d.reboot 2 else d
/-- RESET_CTRL_MODULE. -/
def execResetCtrlModule (fn value : Nat) (s : State) : Host.Outcome State Fault Refusal :=
  s.act (·.fromHost fn (·.doResetCtrl fn value))

/-- WATCHDOG: the firmware has not serviced the watchdog for 1 s (R491). -/
def Device.doWatchdog (d : Device) : Device := if d.bring.stage = 0 then d else d.reboot 3
/-- WATCHDOG. -/
def execWatchdog (s : State) : Host.Outcome State Fault Refusal := s.act (·.doWatchdog)

/-- TAMPER_N as sampled from the start. -/
def Device.sampleTamper (d : Device) : Device :=
  { d with sec := { d.sec with tamperLow := if d.pins.tamper then none else some 0 } }

/-- POWER_ON_RESET: VAUX rises; the always-on island starts in S1 (R477). -/
def Device.doPowerOn (d : Device) : Device :=
  ({ d.kept with pins := { d.kept.pins with vaux := true, fault := false, thermtrip := false } } : Device).sampleTamper
/-- POWER_ON_RESET. -/
def execPowerOnReset (s : State) : Host.Outcome State Fault Refusal := s.act (·.doPowerOn)

/-- VAUX_LOSS: stage S0; everything on the logic side is off and every output released (R494). -/
def Device.doVauxLoss (d : Device) : Device :=
  { d.kept with
    pins := { d.kept.pins with vaux := false, fault := false, thermtrip := false }
    bring := { d.kept.bring with stage := 0 } }
/-- VAUX_LOSS. -/
def execVauxLoss (s : State) : Host.Outcome State Fault Refusal := s.act (·.doVauxLoss)

/-! ## Core power (R472 to R478) -/

/-- POWER_UP: PWR_EN is high; with a checked image or the recovery function, valid input, OPERATION on and no
THERMTRIP, the rails rise in order (R473, R474, R477, R489). -/
def Device.doPowerUp (d : Device) : Device :=
  let d := { d with pins := { d.pins with pwrEn := true } }
  if d.bring.stage = 1 ∧ (d.sec.image.isSome ∨ d.recovering) ∧ d.pins.inputOk ∧ d.power.operation ∧ !d.pins.thermtrip then
    { d with power := { d.power with converters := true, rails := true, vcoreA := 750, vcoreB := 750 } }
  else d
/-- POWER_UP. -/
def execPowerUp (s : State) : Host.Outcome State Fault Refusal := s.act (·.doPowerUp)

/-- The rails fall where they were up. -/
def Device.dropRails (d : Device) (cause : Nat) : Device := if d.power.rails then d.coreLost cause else d

/-- POWER_DOWN: PWR_EN falls, or PMBus OPERATION goes off (R473, R475). -/
def Device.doPowerDown (d : Device) (opOff : Bool) : Device :=
  let d := if opOff then { d with power := { d.power with operation := false } }
    else { d with pins := { d.pins with pwrEn := false } }
  d.dropRails 4
/-- POWER_DOWN. -/
def execPowerDown (opOff : Bool) (s : State) : Host.Outcome State Fault Refusal := s.act (·.doPowerDown opOff)

/-- INPUT_VOLTAGE_FAULT: input below 38 V or above 62 V stops the converters; input back within 40 V to 60 V lets
them start again (R472). -/
def Device.doInputFault (d : Device) (mv : Nat) : Device :=
  if mv < 38000 then
    ({ d with power := { d.power with uv := true }, pins := { d.pins with inputOk := false } } : Device).dropRails 4
  else if 62000 < mv then
    ({ d with power := { d.power with ov := true }, pins := { d.pins with inputOk := false } } : Device).dropRails 4
  else if 40000 ≤ mv ∧ mv ≤ 60000 then { d with pins := { d.pins with inputOk := true } }
  else d
/-- INPUT_VOLTAGE_FAULT. -/
def execInputVoltageFault (millivolts : Nat) (s : State) : Host.Outcome State Fault Refusal :=
  s.act (·.doInputFault millivolts)

/-- VCORE_CHANGE: a half's set point, within 0.62 V to 0.82 V; it falls only once no heft of the half slews, and not below what
their steps need (R476). -/
def Device.doVcore (d : Device) (half mv : Nat) : Device :=
  let hs := if half = 0 then List.range 21 else (List.range 21).map (· + 21)
  let was := if half = 0 then d.power.vcoreA else d.power.vcoreB
  if 2 ≤ half ∨ mv < 620 ∨ 820 < mv ∨ !d.power.rails ∨ 
      (mv < was ∧ ((hs.any fun h => (d.heft h).slewing) ∨ mv < d.vcoreNeed half)) then d
  else if half = 0 then { d with power := { d.power with vcoreA := mv } }
  else { d with power := { d.power with vcoreB := mv } }
/-- VCORE_CHANGE. -/
def execVcoreChange (half millivolts : Nat) (s : State) : Host.Outcome State Fault Refusal :=
  s.act (·.doVcore half millivolts)

/-- PG_ASSERTED: stage S2; every heft locks at 425 MHz, where the pens' stay, with its crossing queues aligned, the watch
starts from zero, the maps are applied and the security record is read; the recovery function keeps pens and cote in reset
(R289, R437, R454, R474, R478, R479). -/
def Device.doPg (d : Device) : Device :=
  if d.bring.stage ≠ 1 ∨ !d.power.rails ∨ !(d.sec.image.isSome || d.recovering) then d else
  let lost := d.ref.state = 1 ∨ d.ref.state = 3
  let d := { d with
    pins := { d.pins with pg := true }
    bring := { d.bring with stage := 2, portUp := d.pins.perst }
    watch := { Watch.reset with age := d.watch.age, core := d.watch.age }
    hefts := d.hefts.zipIdx.map fun (x : Heft × Nat) => { x.1 with
      step := 3, fixed := x.2 < 42, slewing := false, hotAt := none, coolAt := none, holdover := decide lost
      aligned := if lost then [] else (List.range 49).filter (crosses x.2) } }
  if d.recovering then d else d.applyMaps.readRecord
/-- PG_ASSERTED. -/
def execPgAsserted (s : State) : Host.Outcome State Fault Refusal := s.act (·.doPg)

/-- PERST_N_RISE: with core power the host port trains and accepts configuration requests (R478). -/
def Device.doPerst (d : Device) : Device :=
  let d := { d with pins := { d.pins with perst := true } }
  if 2 ≤ d.bring.stage then { d with bring := { d.bring with portUp := true } } else d
/-- PERST_N_RISE. -/
def execPerstNRise (s : State) : Host.Outcome State Fault Refusal := s.act (·.doPerst)

/-! ## Bring-up tests (R479 to R484) -/

/-- Sites that have yet to be tested. -/
def Device.untested (d : Device) : List Nat := (List.range 42).filter fun n => (d.site n).state = 4

/-- S3 is entered: the pens tested so far serve as the implicit fold, and LPDDR5X starts to train (R481, R482). -/
def Device.enterS3 (d : Device) : Device :=
  let d := (d.mapPens (d.bring.passed.take 8) 1).onFold 0 fun o => { o with state := 2 }
  { d with bring := { d.bring with stage := 3 }, mem := { d.mem with state := 1 } }.haltTrace

/-- SITE_SRAM_TEST: the lowest site not yet tested passes, or is recorded as retired; S3 begins with eight passed,
or with all tested and some passed (R479, R480, R484). -/
def Device.doSramTest (d : Device) (n : Nat) (passed : Bool) : Device :=
  if (d.bring.stage ≠ 2 ∧ d.bring.stage ≠ 3) ∨ d.sec.state ≠ 0 ∨ d.untested.head? ≠ some n then d else
  let d := { d with bring := { d.bring with
    tested := d.bring.tested ++ [n], passed := if passed then d.bring.passed ++ [n] else d.bring.passed } }
  let d := if passed then d.onSite n fun t => { t.cleared with state := 1 }
    else ({ d.onSite n fun t => { t with state := 2 } with
      persist := { d.persist with retired := nins d.persist.retired n } } : Device).event .penRetired [n, 63]
  let all : Bool := d.untested = []
  let some' : Bool := d.bring.passed ≠ []
  let d := if all ∧ some' then { d with bring := { d.bring with sram := true } } else d
  let d := if all ∧ !some' then { d with bring := { d.bring with fail := 3 } } else d
  if d.bring.stage = 2 ∧ (8 ≤ d.bring.passed.length ∨ (all ∧ some')) then d.enterS3 else d
/-- SITE_SRAM_TEST. -/
def execSiteSramTest (n : Nat) (passed : Bool) (s : State) : Host.Outcome State Fault Refusal :=
  s.act (·.doSramTest n passed)

/-- MEMORY_TRAINING: a channel that fails at 10,667 MT/s sends all to 8,533 MT/s, and one that fails there ends
bring-up; MEM_CFG.force_low goes there at once (R291, R482, R484). -/
def Device.doMemTraining (d : Device) (fast slow : Option Nat) : Device :=
  if d.bring.stage ≠ 3 ∨ d.mem.state ≠ 1 ∨ d.sec.state = 2 then d else
  let low := d.mem.forceLow || fast.isSome
  match (if low then slow else none) with
  | some c => { d with
      mem := { d.mem with state := 3, low := true, badCh := c % 32 }, bring := { d.bring with fail := 1 } }
  | none => { d with mem := { d.mem with state := 2, low := low }, bring := { d.bring with memory := true } }
/-- MEMORY_TRAINING. -/
def execMemoryTraining (fast slow : Option Nat) (s : State) : Host.Outcome State Fault Refusal :=
  s.act (·.doMemTraining fast slow)

/-! ## The governor (R485 to R487) -/

/-- PWR_LIMIT.watts as it acts (table PWR_LIMIT). -/
def Power.watts (p : Power) : Nat := min 1600 (max 800 p.limit)

/-- Since when a condition has held without a break. -/
def spell (now : Nat) (was : Option Nat) (holds : Bool) : Option Nat := if holds then some (was.getD now) else none

/-- Whether a condition has held for n ticks, those since an earlier moment alone. -/
def lasted (now : Nat) (since : Option Nat) (from_ n : Nat) : Bool :=
  match since with
  | some t => decide (max t from_ + n ≤ now)
  | none => false

/-- POWER_MEASUREMENT: the last measurement and the two averages, and how long they have stood where the governor watches them
(R485 to R487). -/
def Device.doMeasure (d : Device) (watts fast slow : Nat) : Device :=
  if d.bring.stage < 2 then d else
  let p := d.power
  let w := p.watts
  let t := d.watch.age
  let d := { d with power := { p with
    last := watts, fast := fast, slow := slow
    slowOver := spell t p.slowOver (w < slow), slowLow := spell t p.slowLow (slow * 100 < w * 95)
    fastOver := spell t p.fastOver (w < fast), fastLow := spell t p.fastLow (fast * 10 < w * 9) } }
  if d.power.watts < slow then d.alert 1 else d
/-- POWER_MEASUREMENT. -/
def execPowerMeasurement (watts fast slow : Nat) (s : State) : Host.Outcome State Fault Refusal :=
  s.act (·.doMeasure watts fast slow)

/-- The governor's limit for every pen heft. -/
def Device.govern (d : Device) (step : Nat) : Device :=
  { d with
    power := { d.power with step := step }
    hefts := d.hefts.zipIdx.map fun (x : Heft × Nat) => if x.2 < 42 then { x.1 with governor := step } else x.1 }

/-- GOVERNOR_STEP_DOWN: the slow average has exceeded the limit for 100,000 ticks, since the last step down (R485). -/
def Device.doGovDown (d : Device) : Device :=
  if lasted d.watch.age d.power.slowOver d.power.downAt 100000 ∧ 2 ≤ d.bring.stage then
    let d := d.govern (min 4 (d.power.step + 1))
    { d with power := { d.power with downAt := d.watch.age } }
  else d
/-- GOVERNOR_STEP_DOWN. -/
def execGovernorStepDown (s : State) : Host.Outcome State Fault Refusal := s.act (·.doGovDown)

/-- GOVERNOR_STEP_UP: the slow average has stayed below 95 % of the limit for 1,000,000 ticks, since the last step up; not in
guard (R485). -/
def Device.doGovUp (d : Device) : Device :=
  if lasted d.watch.age d.power.slowLow d.power.upAt 1000000 ∧ !d.power.guard ∧ 2 ≤ d.bring.stage then
    let d := d.govern (d.power.step - 1)
    { d with power := { d.power with upAt := d.watch.age } }
  else d
/-- GOVERNOR_STEP_UP. -/
def execGovernorStepUp (s : State) : Host.Outcome State Fault Refusal := s.act (·.doGovUp)

/-- EXCURSION_GUARD: a measurement above 2,000 W, or the fast average above the limit for 1,000,000 ticks (R486). -/
def Device.doGuard (d : Device) : Device :=
  if (2000 < d.power.last ∨ lasted d.watch.age d.power.fastOver 0 1000000) ∧ !d.power.guard ∧ 2 ≤ d.bring.stage then
    ({ d.govern 4 with power := { (d.govern 4).power with guard := true, guardAt := d.watch.age } } : Device).alert 2
  else d
/-- EXCURSION_GUARD. -/
def execExcursionGuard (s : State) : Host.Outcome State Fault Refusal := s.act (·.doGuard)

/-- Pens in service that the governor has paused. -/
def Device.pausedPens (d : Device) : List Nat := d.penSites.filter fun n => (d.site n).stops.contains .governor

/-- GOVERNOR_PAUSE: 100,000 ticks after the entry into guard, the next four pens in descending logical order pause while the
fast average exceeds the limit (R486). -/
def Device.doGovPause (d : Device) : Device :=
  if d.power.guard ∧ d.power.guardAt + 100000 ≤ d.watch.age ∧ d.power.watts < d.power.fast then
    ((d.penSites.filter fun n => !(d.site n).stops.contains .governor).reverse.take 4).foldl
      (fun d n => d.stopPen n .governor) d
  else d
/-- GOVERNOR_PAUSE. -/
def execGovernorPause (s : State) : Host.Outcome State Fault Refusal := s.act (·.doGovPause)

/-- LEAVE_GUARD: the fast average has stayed below 90 % of the limit for 100,000 ticks (R487); paused pens are released in ascending logical
order, as fast as ramp windows grant them. -/
def Device.doLeaveGuard (d : Device) : Device :=
  if d.power.guard ∧ lasted d.watch.age d.power.fastLow 0 100000 then
    d.penSites.foldl (fun d n => d.resumePen n .governor) { d with power := { d.power with guard := false } }
  else d
/-- LEAVE_GUARD. -/
def execLeaveGuard (s : State) : Host.Outcome State Fault Refusal := s.act (·.doLeaveGuard)

/-! ## Temperature (R264, R488, R489) -/

/-- A sensor's reading. -/
def Device.sense (d : Device) (h reading : Nat) : Device :=
  let t := d.watch.age
  let d := d.onHeft h fun x => { x with
    temp := reading, hotAt := spell t x.hotAt (95 ≤ reading), coolAt := spell t x.coolAt (reading < 90) }
  if 90 ≤ reading then d.alert 0 else d

/-- THERMAL_STEP_DOWN: for every 100,000 ticks of 95 °C or more the monitor's choice falls one step, and is never faster than
the step the heft runs at (R264, R488). -/
def Device.doThermDown (d : Device) (h reading : Nat) : Device :=
  if 49 ≤ h ∨ d.bring.stage < 2 then d else
  let d := d.sense h reading
  let t := d.watch.age
  if lasted t (d.heft h).hotAt 0 100000 then
    d.onHeft h fun x => { x with monitor := min 4 (max x.target (x.monitor + 1)), hotAt := some t }
  else d
/-- THERMAL_STEP_DOWN. -/
def execThermalStepDown (h reading : Nat) (s : State) : Host.Outcome State Fault Refusal :=
  s.act (·.doThermDown h reading)

/-- THERMAL_STEP_UP: for every 1,000,000 ticks below 90 °C the monitor's choice rises one step (R488). -/
def Device.doThermUp (d : Device) (h reading : Nat) : Device :=
  if 49 ≤ h ∨ d.bring.stage < 2 then d else
  let d := d.sense h reading
  let t := d.watch.age
  if lasted t (d.heft h).coolAt 0 1000000 then d.onHeft h fun x => { x with monitor := x.monitor - 1, coolAt := some t }
  else d
/-- THERMAL_STEP_UP. -/
def execThermalStepUp (h reading : Nat) (s : State) : Host.Outcome State Fault Refusal :=
  s.act (·.doThermUp h reading)

/-- THERMTRIP: at 105 °C or more the island asserts THERMTRIP_N and FAULT_N, records the trip and has the rails
removed. -/
def Device.doThermtrip (d : Device) (h reading : Nat) : Device :=
  if 49 ≤ h ∨ d.bring.stage = 0 ∨ reading < 105 then d else
  let d := d.sense h reading
  ({ d with
    pins := { d.pins with thermtrip := true, fault := true }
    persist := { d.persist with trips := d.persist.trips + 1 } } : Device).dropRails 5
/-- THERMTRIP. -/
def execThermtrip (h reading : Nat) (s : State) : Host.Outcome State Fault Refusal := s.act (·.doThermtrip h reading)

/-! ## PMBus (R473, R500) -/

/-- OPERATION: a read, or #80 on and #00 off; on has no effect while PWR_EN is low; other values are invalid data. -/
def Device.doOperation (d : Device) (value : Option Nat) : Device :=
  match value with
  | none => d.emit (.reply .pmbus [if d.power.operation then 0x80#8 else 0#8])
  | some v =>
    if v % 256 = 0x80 then
      if d.pins.pwrEn then { d with power := { d.power with operation := true } } else d
    else if v % 256 = 0 then d.doPowerDown true
    else { d with power := { d.power with cml := true } }
/-- OPERATION. -/
def execOperation (value : Option Nat) (s : State) : Host.Outcome State Fault Refusal := s.act (·.doOperation value)

/-- CLEAR_FAULTS: the latched faults of the high-voltage side clear. -/
def Device.doClearFaults (d : Device) : Device := { d with power := { d.power with uv := false, ov := false, cml := false } }
/-- CLEAR_FAULTS. -/
def execClearFaults (s : State) : Host.Outcome State Fault Refusal := s.act (·.doClearFaults)

/-- STATUS_WORD: INPUT, POWER_GOOD#, OFF, VIN_UV, CML and NONE_OF_THE_ABOVE, at the places PMBus gives them. -/
def Power.statusWord (p : Power) : Nat :=
  (p.uv || p.ov).toNat * 2 ^ 13 + (!p.rails).toNat * 2 ^ 11 + (!p.converters).toNat * 2 ^ 6 + p.uv.toNat * 2 ^ 3 +
  p.cml.toNat * 2 + (p.ov && !p.uv).toNat
/-- STATUS_WORD. -/
def Device.doStatusWord (d : Device) : Device := d.emit (.reply .pmbus (leBytes 2 d.power.statusWord))
/-- STATUS_WORD. -/
def execStatusWord (s : State) : Host.Outcome State Fault Refusal := s.act (·.doStatusWord)

/-- A reading in its linear format, as the converters' telemetry gives it. -/
def Device.sayReading (d : Device) (reading : Nat) : Device := d.emit (.reply .pmbus (leBytes 2 reading))
/-- READ_VIN. -/
def execReadVin (reading : Nat) (s : State) : Host.Outcome State Fault Refusal := s.act (·.sayReading reading)
/-- READ_IIN. -/
def execReadIin (reading : Nat) (s : State) : Host.Outcome State Fault Refusal := s.act (·.sayReading reading)
/-- READ_TEMPERATURE_1. -/
def execReadTemperature1 (reading : Nat) (s : State) : Host.Outcome State Fault Refusal :=
  s.act (·.sayReading reading)
/-- READ_TEMPERATURE_2. -/
def execReadTemperature2 (reading : Nat) (s : State) : Host.Outcome State Fault Refusal :=
  s.act (·.sayReading reading)
/-- READ_PIN. -/
def execReadPin (reading : Nat) (s : State) : Host.Outcome State Fault Refusal := s.act (·.sayReading reading)

/-! ## SMBus (R515, R516) -/

/-- A Block Read of four little-endian bytes, from stage S1 on. -/
def Device.smbus (d : Device) (v : Nat) : Device :=
  if d.bring.stage = 0 then d.emit (.nack .smbus) else d.emit (.reply .smbus (leBytes 4 v))

/-- SEC_STATUS (table SEC_STATUS). -/
def Device.secStatus (d : Device) : Nat :=
  d.sec.state * 2 ^ 28 + d.sec.approved.toNat * 2 ^ 27 + d.sec.fuses.owner.toNat * 2 ^ 26 + d.sec.source.toNat * 2 ^ 25 +
  d.tampered.toNat * 2 ^ 24 + d.sec.fuses.tamperCount * 2 ^ 18 + d.sec.fuses.coteGen * 2 ^ 12 + d.sec.bootFail * 2 ^ 8 +
  d.sec.fuses.floor
/-- PWR_STATUS (table PWR_STATUS). -/
def Device.pwrStatus (d : Device) : Nat :=
  min 2047 d.power.fast * 2 ^ 21 + d.power.step * 2 ^ 18 + d.pausedPens.length * 2 ^ 12 + d.power.guard.toNat
/-- Hottest reading and the lowest heft that has it. -/
def Device.hottest (d : Device) : Nat × Nat :=
  (List.range 49).foldl (fun x h => if x.1 < (d.heft h).temp then ((d.heft h).temp, h) else x) (0, 0)
/-- THERM_STATUS (table THERM_STATUS). -/
def Device.thermStatus (d : Device) : Nat :=
  min 255 d.hottest.1 * 2 ^ 16 + d.hottest.2 * 2 ^ 10 + (d.hefts.filter fun h => 0 < h.monitor).length
/-- RESET_CAUSE (table RESET_CAUSE). -/
def Device.resetCause (d : Device) : Nat := d.bring.resets * 2 ^ 16 + d.bring.cause

/-- SMBUS_IDREV. -/
def execSmbusIdrev (s : State) : Host.Outcome State Fault Refusal := s.act fun d => d.smbus d.idrev.toNat
/-- SMBUS_SEC_STATUS. -/
def execSmbusSecStatus (s : State) : Host.Outcome State Fault Refusal := s.act fun d => d.smbus d.secStatus
/-- SMBUS_STAGE. -/
def execSmbusStage (s : State) : Host.Outcome State Fault Refusal := s.act fun d => d.smbus d.bring.stage
/-- SMBUS_THERM_STATUS: zero before core power. -/
def execSmbusThermStatus (s : State) : Host.Outcome State Fault Refusal :=
  s.act fun d => d.smbus (if d.bring.stage < 2 then 0 else d.thermStatus)
/-- SMBUS_PWR_STATUS: zero before core power. -/
def execSmbusPwrStatus (s : State) : Host.Outcome State Fault Refusal :=
  s.act fun d => d.smbus (if d.bring.stage < 2 then 0 else d.pwrStatus)
/-- SMBUS_RESET_CAUSE. -/
def execSmbusResetCause (s : State) : Host.Outcome State Fault Refusal := s.act fun d => d.smbus d.resetCause
/-- SMB_ALERT_READ. -/
def execSmbAlertRead (s : State) : Host.Outcome State Fault Refusal := s.act fun d => d.smbus d.power.alert

/-- SMB_ALERT_CLEAR: the bits written as 1 clear; none is set again for its cause within 1 s (R516). -/
def Device.doAlertClear (d : Device) (value : Nat) : Device :=
  if d.bring.stage = 0 then d.emit (.nack .smbus) else
  let bs := (List.range 5).filter fun b => bit value b && bit d.power.alert b
  { d with power := { d.power with
    alert := bs.foldl (fun a b => a - 2 ^ b) d.power.alert
    cleared := bs.foldl (fun m b => sput m b d.watch.age) d.power.cleared } }
/-- SMB_ALERT_CLEAR. -/
def execSmbAlertClear (value : Nat) (s : State) : Host.Outcome State Fault Refusal := s.act (·.doAlertClear value)

/-- ALERT_RESPONSE_ADDRESS: the module's own address while it asserts ALERT_N; the byte's last bit is open. -/
def Device.doAra (d : Device) : Device :=
  if d.bring.stage = 0 ∨ d.power.alert = 0 then d.emit (.nack .smbus)
  else (d.emit (.reply .smbus [BitVec.ofNat 8 ((0x40 + d.flock.rank % 16) * 2 + Config.unnamed d.free % 2)])).draw
/-- ALERT_RESPONSE_ADDRESS. -/
def execAlertResponseAddress (s : State) : Host.Outcome State Fault Refusal := s.act (·.doAra)

/-! ## Output pins (R494, R517; table Output states) -/

/-- FAULT_N: a latched fault, REF_FAIL, an LPDDR5X training failure or no site passing. -/
def Device.faultN (d : Device) : Bool := d.pins.fault || d.ref.state = 3 || d.bring.fail = 1 || d.bring.fail = 3
/-- ALERT_N: any bit of SMB_ALERT. -/
def Device.alertN (d : Device) : Bool := d.power.alert ≠ 0

end Sys2Proof.Machine
end

