-- ==== Sys2Proof/Machine/Flags.lean ====
section
/-!
DEFINITION. Setup registers, field by field, as they read and as writes change them (17, R522 to R542, and the
field tables of the other chapters); aperture (R533 to R535) and trace window (R536 to R538). Reserved fields read
zero and ignore writes (R7).
-/
namespace Sys2Proof.Machine

/-! ## Reading: identity, security, hefts, power -/

/-- A Bool at a bit. -/
def at' (b : Bool) (i : Nat) : Nat := b.toNat * 2 ^ i

/-- Identity group (tables IDREV, SERIAL_LO to WRSTAT_OFFSET). -/
def Device.idReg (d : Device) (fn off : Nat) : Nat :=
  let r := d.fn fn
  match off with
  | 0x00 => d.idrev.toNat
  | 0x08 => d.serial.toNat % 2 ^ 32
  | 0x0C => d.serial.toNat / 2 ^ 32
  | 0x10 => at' r.valid 31 + r.status * 2 ^ 16 + r.count
  | 0x14 => at' r.kind 31 + r.offset
  | _ => 0

/-- Security block (tables SEC_STATUS to MBOX_STATUS; the mailbox buffer). -/
def Device.secReg (d : Device) (fn off : Nat) : Nat :=
  let r := d.fn fn
  if off = 0x1000 then d.secStatus
  else if off = 0x1014 then at' r.mbBusy 31 + r.mbStatus * 2 ^ 16 + r.mbLength
  else if 0x1800 ≤ off then r.buffer.word (off - 0x1800) 4
  else 0

/-- Heft h's registers. -/
def Device.heftReg (d : Device) (h w : Nat) : Nat :=
  let x := d.heft h
  match w with
  | 0 => at' x.gateEn 3 + x.ceiling
  | 1 => at' x.stopped 31 + at' x.slewing 30 + at' x.holdover 29 + x.cause * 2 ^ 8 + x.step
  | 2 => x.stretch
  | _ => x.drops

/-- Comparator c's registers. -/
def Device.cmpReg (d : Device) (c w : Nat) : Nat :=
  match d.watch.cmps.getD c none with
  | none => 0
  | some x =>
    match w with
    | 0 => x.v % 2 ^ 32
    | 1 => x.v / 2 ^ 32 % 2 ^ 32
    | 2 => 2 ^ 31 + x.cls * 2 ^ 28 + (if 3 ≤ x.cls then 15 else x.fold) * 2 ^ 24 + min 255 x.users.length * 2 ^ 16
    | _ => 0

/-- Hefts, watch, REFCLK, comparators. WATCH_LO's latch is WATCH_LO_READ's. -/
def Device.timeReg (d : Device) (off : Nat) : Nat :=
  let w := d.watch
  let o := off - 0x10000
  if o < 49 * 16 then d.heftReg (o / 16) (o / 4 % 4)
  else if 0x1100 ≤ o ∧ o < 0x1200 then d.cmpReg ((o - 0x1100) / 16) (o / 4 % 4)
  else match o with
  | 0x1000 => w.count % 2 ^ 32
  | 0x1004 => w.hiLatch
  | 0x1008 => w.skew * 2 ^ 16 + at' w.flag 3 + w.state
  | 0x100C => w.delay
  | 0x1010 => at' w.free 16 + w.skewLimit
  | 0x1014 => w.bad * 2 ^ 16 + w.slips
  | 0x1020 => d.ref.state * 2 ^ 30 + d.ref.losses
  | 0x1024 => d.ref.hold
  | _ => 0

/-- Power, thermal, bring-up, reset cause, trace enable (15). -/
def Device.powerReg (d : Device) (off : Nat) : Nat :=
  let b := d.bring
  match off with
  | 0x20000 => d.power.limit
  | 0x20004 => d.pwrStatus
  | 0x20008 => d.thermStatus
  | 0x20010 =>
    b.stage * 2 ^ 29 + at' b.sram 28 + at' b.kat 27 + at' b.memory 26 + at' b.links 25 + at' b.hold 24 + b.fail * 2 ^ 20 +
    b.tested.length * 2 ^ 8 + (if b.stage = 3 then d.pens else 0) * 2 ^ 4
  | 0x20024 => d.resetCause
  | 0x20030 => at' d.trace.enable 0
  | _ => 0

/-! ## Reading: folds and sites -/

/-- A bitmap of numbers. -/
def bitmap (l : List Nat) : Nat := l.foldl (fun m i => m ||| 2 ^ i) 0

/-- Fold f's block (17). -/
def Device.foldReg (d : Device) (f o : Nat) : Nat :=
  let x := d.fold f
  let ss := d.foldSites f
  match o with
  | 0x00 => x.state * 2 ^ 30 + (ss.head?.map fun n => (d.site n).logical).getD 0 * 2 ^ 8 + ss.length
  | 0x04 => bitmap (x.drives.map (·.1)) * 2 ^ 4 + at' x.running.isSome 3 + x.running.getD 0
  | 0x10 => at' x.fValid 31 + x.fSource * 2 ^ 30 + x.fSlot * 2 ^ 28 + x.fPen * 2 ^ 22 + x.fStatus
  | 0x14 => x.fAddr % 2 ^ 32
  | 0x18 => x.fAddr / 2 ^ 32 % 2 ^ 14
  | 0x1C => x.fWatch % 2 ^ 32
  | 0x20 => x.fWatch / 2 ^ 32 % 2 ^ 32
  | 0x24 => x.commit % 2 ^ 32
  | 0x28 => x.commit / 2 ^ 32 % 2 ^ 16
  | _ => 0

/-- FOLDCFG, PENMAP and the fold blocks. -/
def Device.foldsReg (d : Device) (off : Nat) : Nat :=
  if off = 0x30000 then d.foldCount
  else if off = 0x30008 then
    d.spareSites.length * 2 ^ 18 + d.bring.good * 2 ^ 12 + d.pens * 2 ^ 6 + at' d.bring.bypass 0
  else if 0x30100 ≤ off ∧ off < 0x30300 then d.foldReg ((off - 0x30100) / 0x40) (off % 0x40)
  else 0

/-- Latency of a hop up from site a to site b on the main lane, or down on the return lane (R94). -/
def hopUp (a b : Nat) : Nat := let k := (b + 42 - a) % 42; 2 + (k - 1) + 2 * seams b k
/-- Latency of the sunwise return lane, which runs physically downward (R92, R94). -/
def hopDown (a b : Nat) : Nat := let k := (a + 42 - b) % 42; 4 + (k - 1) + 2 * seams a k

/-- SITE_DROVE of a site (R94, R99, R101, R127). -/
def Device.siteDrove (d : Device) (n : Nat) : Nat :=
  if !d.inFold n then 0x3F * 2 ^ 26 + 0x3F * 2 ^ 20 else
  let ss := d.foldSites (d.site n).fold
  let i := ss.idxOf n
  let next := nextOf ss .sunwise i
  let prev := nextOf ss .widdershins i
  let last := decide (i + 1 = ss.length)
  let first := decide (i = 0)
  let out := (d.site n).detour || (d.site next).detour || (last && d.foldCount ≠ 1)
  let into := (d.site prev).detour || (d.site n).detour || (first && d.foldCount ≠ 1)
  let hop := if ss.length = 1 then 0 else if out then hopDown n next else hopUp n next
  next * 2 ^ 26 + prev * 2 ^ 20 + hop * 2 ^ 13 + at' last 9 + at' first 8 +
    at' (decide (ss.length ≠ 1) && (out || into)) 7

/-- SITE_STATE (03). -/
def Device.siteState (d : Device) (n : Nat) : Nat :=
  let t := d.site n
  t.logical * 2 ^ 16 + (if t.state = 0 then t.fold else 15) * 2 ^ 8 + t.state

/-- Site n's block. -/
def Device.siteReg (d : Device) (n o : Nat) : Nat :=
  let t := d.site n
  match o with
  | 0x00 => d.siteState n
  | 0x10 => t.window * 2 ^ 5 + t.limit
  | 0x18 => t.mismatch
  | 0x1C => t.lostNan
  | 0x40 => d.siteDrove n
  | _ => 0

/-- Fewest spare rows left in a bank of a site's accumulator buffer. -/
def Site.accLeft (t : Site) : Nat := (List.range 8).foldl (fun m b => min m (20 - sget 0 t.accSpared b)) 20

/-- Paddock errors, scrubbing, sparing (05). -/
def Device.padReg (d : Device) (off : Nat) : Nat :=
  if off < 0x80000 + 42 * 0x400 then
    let t := d.site ((off - 0x80000) / 0x400)
    match off % 0x400 with
    | 0 => t.padCE
    | 4 => t.padUE
    | 8 => at' t.ueValid 31 + t.ueKind * 2 ^ 29 + t.ueWord % 2 ^ 23 * 2 ^ 3
    | _ => 0
  else if 0xB0000 ≤ off ∧ off < 0xB0000 + 42 * 16 ∧ off % 16 = 0 then
    let t := d.site ((off - 0xB0000) / 16)
    t.accLeft * 2 ^ 16 + t.accField * 2 ^ 8 + (2 - t.tallySpared)
  else match off with
  | 0xA0000 => d.padScrub
  | 0xA0004 => d.deferred
  | 0xA0010 => d.hardLimit
  | 0xB0800 => (41 - d.gateRows.bookSpared) * 2 ^ 16 + (5 - d.gateRows.tallySpared)
  | _ => 0

/-! ## Reading: arbiters, memory, shears, links, flock, recovery -/

/-- Word w of a list of tickets. -/
def ticketWord (l : List Nat) (w : Nat) : Nat :=
  (List.range 4).foldl (fun m i => m + l.getD (4 * w + i) 0 % 256 * 2 ^ (8 * i)) 0

/-- Arbiter tickets, hold limit, CUT (08). -/
def Device.arbReg (d : Device) (off : Nat) : Nat :=
  let b := d.fabric
  let o := off - 0xC0000
  if o < 42 * 16 then
    let t := d.site (o / 16)
    if o % 16 = 0 then t.arbRd else if o % 16 = 4 then t.arbWr else 0
  else if 0x1000 ≤ o ∧ o < 0x1000 + 18 * 16 then
    let a := (o - 0x1000) / 16
    ticketWord (b.arbs.getD a (.reset a)).tickets (o / 4 % 4)
  else match o with
  | 0x2000 => b.hold
  | 0x2004 => at' b.cutValid 31 + b.cutArb * 2 ^ 16 + b.cutReq * 2 ^ 12 + b.cutBeats
  | 0x2008 => b.cutCount
  | _ => 0

/-- Memory quarters (10). -/
def Device.memReg (d : Device) (off : Nat) : Nat :=
  if 0xD0100 ≤ off ∧ off < 0xD0500 then
    let x := d.quarter ((off - 0xD0100) / 0x100)
    match off % 0x100 with
    | 0x0 => x.ce
    | 0x4 => x.ue
    | 0x8 => x.ueAddr / 64 % 2 ^ 32
    | 0xC => at' x.ueValid 31 + x.ueKind * 2 ^ 29 + at' x.ueHalf 3 + x.ueAddr / 2 ^ 38 % 2
    | _ => 0
  else match off with
  | 0xD0000 => at' d.mem.forceLow 1 + at' d.mem.idleSr 0
  | 0xD0004 => d.mem.state * 2 ^ 30 + at' d.mem.low 29 + d.mem.badCh
  | 0xD0008 => d.mem.scrub
  | _ => 0

/-- Shears, one block per fold (R239). -/
def Device.shearReg (d : Device) (off : Nat) : Nat :=
  let x := d.fold ((off - 0xE0000) / 0x20)
  match off % 0x20 with
  | 0x0 => x.fbCount
  | 0x4 => at' x.fbValid 31 + x.fbFactor * 2 ^ 28 + x.fbLayer
  | 0x8 => x.damp
  | _ => 0

/-- Link port k (11). -/
def Device.linkReg (d : Device) (k o : Nat) : Nat :=
  let l := d.link k
  match o with
  | 0x0 =>
    l.state * 2 ^ 29 + at' l.miswired 28 + l.peerRank * 2 ^ 22 + l.peerPort * 2 ^ 19 + at' l.keyed 18 + l.lanes * 2 ^ 8 +
    l.retrains
  | 0x4 => at' l.enable 1
  | 0x8 => l.fecCE
  | 0xC => l.replays * 2 ^ 16 + l.fecUE * 2 ^ 8 + l.authFail
  | _ => 0

/-- ROUTE of rank r. -/
def Device.routeReg (d : Device) (r : Nat) : Nat :=
  match slook d.flock.routes r with
  | some x => at' x.valid 31 + at' (decide (r = d.flock.rank)) 6 + x.alt * 2 ^ 3 + x.prim
  | none => at' (decide (r = d.flock.rank)) 6

/-- Flock, routes, laggard limit, recovery (11, 12). -/
def Device.flockReg (d : Device) (off : Nat) : Nat :=
  let x := d.flock
  let r := d.recov
  if 0x100100 ≤ off ∧ off < 0x100200 then d.routeReg ((off - 0x100100) / 4)
  else match off with
  | 0x100000 => x.cfg
  | 0x100008 =>
    x.state * 2 ^ 29 + x.rank * 2 ^ 23 + at' x.isBell 22 + at' x.standby 21 + x.leafCount * 2 ^ 13 + x.firstLeaf * 2 ^ 7 +
    x.reason
  | 0x10000C => x.standbyLo
  | 0x100010 => x.standbyHi
  | 0x100014 => x.members % 2 ^ 32
  | 0x100018 => x.members / 2 ^ 32 % 2 ^ 32
  | 0x100020 => x.laggard
  | 0x100024 => x.groupsLive
  | 0x100400 => r.cfg
  | 0x100408 =>
    r.state * 2 ^ 29 + r.layer * 2 ^ 27 + r.restarts * 2 ^ 24 + at' r.fosterOk 23 + at' r.exportReady 22 + r.lost * 2 ^ 16 +
    at' r.signRefused 15 + at' r.snapRefused 14
  | 0x10040C => r.commit % 2 ^ 32
  | 0x100410 => r.commit / 2 ^ 32 % 2 ^ 16
  | 0x100414 => r.imageStep % 2 ^ 32
  | 0x100418 => at' r.imageValid 31 + r.imageStep / 2 ^ 32 % 2 ^ 16
  | 0x100420 => r.fosterRegion
  | 0x100428 => r.signLo
  | 0x10042C => r.signHi
  | 0x100430 => r.snapLo
  | 0x100434 => r.snapHi
  | _ => 0

/-! ## Reading: rings, doorbells, trace -/

/-- Ring n's registers (13). -/
def Device.ringReg (d : Device) (n w : Nat) : Nat :=
  let r := d.ring n
  match w with
  | 0 => r.baseLo
  | 1 => r.baseHi
  | 2 => at' (decide (r.state = 1 ∨ r.state = 3)) 31 + r.owner * 2 ^ 27 + r.size * 2 ^ 22 + r.link * 2 ^ 13
  | _ => r.state * 2 ^ 30 + (if r.state = 3 then r.cause else 0) * 2 ^ 26 + r.wrap r.pos * 2 ^ 16 + r.index r.pos

/-- A doorbell: the last position accepted. -/
def Device.bellReg (d : Device) (n w : Nat) : Nat :=
  let r := d.ring (if w = 0 then n else 512 + n)
  (if w = 0 then 0 else at' r.arm 31) + r.wrap r.host * 2 ^ 16 + r.index r.host

/-- Trace filter and status, aperture base of a function. -/
def Device.traceReg (d : Device) (fn off : Nat) : Nat :=
  let t := d.trace
  match off with
  | 0x120000 => t.kinds * 2 ^ 16 + t.folds * 2 ^ 8
  | 0x120004 => at' t.wrapped 31 + t.lost * 2 ^ 16 + t.next
  | 0x120010 => (d.fn fn).apLo
  | 0x120014 => (d.fn fn).apHi
  | _ => 0

/-- A byte of the trace window: zero while studbook logging runs (R536, R538). -/
def Device.traceByte (d : Device) (y : Nat) : Byte :=
  if d.logging then 0#8 else
  match slook d.trace.buf (y / 16) with
  | some (w, flit) => BitVec.ofNat 8 ((if y % 16 < 8 then w else flit) / 2 ^ (8 * (y % 8)))
  | none => 0#8

/-! ## What each function sees (R397, R522, R524) -/

/-- Whether a VF sees an offset outside the aperture. -/
def Device.vfSees (d : Device) (fn off : Nat) : Bool :=
  let f := fn - 1
  decide (off < 0x1004) || (decide (0x1008 ≤ off) && decide (off < 0x2000)) ||
  (decide (0x30100 + f * 0x40 ≤ off) && decide (off < 0x30140 + f * 0x40)) ||
  (decide (0x40000 ≤ off) && decide (off < 0x6A000) &&
    (let t := d.site ((off - 0x40000) / 0x1000); decide (t.state = 0) && decide (t.fold = f))) ||
  (decide (0xE0000 + f * 0x20 ≤ off) && decide (off < 0xE0020 + f * 0x20)) ||
  (decide (0x110000 ≤ off) && decide (off < 0x114000) && d.seesRing fn ((off - 0x110000) / 16)) ||
  decide (off = 0x120010) || decide (off = 0x120014) ||
  (decide (0x1000000 ≤ off) && decide (off < 0x1200000) &&
    d.seesRing fn ((off - 0x1000000) / 0x1000 + if off % 0x1000 = 4 then 512 else 0))

/-- Whether a register responds to a function. -/
def Device.responds (d : Device) (fn off : Nat) : Bool :=
  if d.recovering then fn = 0 && decide (off < 0x2000) else fn = 0 || (fn < 9 && d.vfSees fn off)

/-- The value an aligned register reads as, before any effect of the read. -/
def Device.regValue (d : Device) (fn off : Nat) : Nat :=
  if !d.responds fn off then 0
  else if off < 0x1000 then d.idReg fn off
  else if off < 0x2000 then d.secReg fn off
  else if off < 0x10000 then 0
  else if off < 0x20000 then d.timeReg off
  else if off < 0x30000 then d.powerReg off
  else if off < 0x40000 then d.foldsReg off
  else if off < 0x6A000 then d.siteReg ((off - 0x40000) / 0x1000) (off % 0x1000)
  else if off < 0x80000 then 0
  else if off < 0xC0000 then d.padReg off
  else if off < 0xD0000 then d.arbReg off
  else if off < 0xE0000 then d.memReg off
  else if off < 0xE0100 then d.shearReg off
  else if off < 0xF0000 then 0
  else if off < 0xF0600 then d.linkReg ((off - 0xF0000) / 0x100) (off % 0x100)
  else if off < 0x100000 then 0
  else if off < 0x110000 then d.flockReg off
  else if off < 0x114000 then d.ringReg ((off - 0x110000) / 16) (off / 4 % 4)
  else if off < 0x120000 then 0
  else if off < 0x130000 then d.traceReg fn off
  else if off < 0x1000000 then 0
  else if off < 0x1200000 ∧ off % 0x1000 ≤ 4 then d.bellReg ((off - 0x1000000) / 0x1000) (off % 0x1000 / 4)
  else 0

/-! ## The aperture (R533 to R535) -/

/-- The local address of an aperture byte of a function, fold-relative (R137, R533). -/
def Device.apAddr (d : Device) (fn y : Nat) : Nat :=
  let x := (d.fn fn).apHi * 2 ^ 32 + (d.fn fn).apLo + y
  if fn = 0 then d.pfLocal x 1 else x

/-- The fold whose addresses a function's aperture names. -/
def apFold (fn : Nat) : Nat := fn - 1

/-- Status that faults an aperture access, 0 where it is allowed: PADDOCK_ALIGN, then ADDRESS_NOT_OWNED. -/
def Device.apStatus (d : Device) (fn y width : Nat) : Nat :=
  if y % 8 ≠ 0 ∨ width % 8 ≠ 0 ∨ width = 0 then 0x0C
  else if (fn = 0 ∧ d.foldCount ≠ 1) ∨ d.foldCount ≤ apFold fn ∨ !d.owns (apFold fn) (d.apAddr fn y) width then 0x0B
  else 0

/-- A fault of an aperture access, recorded in WRSTAT (R525, R534). -/
def Device.apFault (d : Device) (fn status y : Nat) : Device := d.refuse fn status (0x200000 + y) true

/-- An aperture read: the device after it, and the bytes; zeros where it faults. -/
def Device.apRead (d : Device) (fn y width : Nat) (errs : List (Nat × Ecc)) : Device × List Byte :=
  let st := d.apStatus fn y width
  let x := d.apAddr fn y
  if st ≠ 0 then (d.apFault fn st y, zeros width)
  else
    let d := d.transferRead (apFold fn) x width errs
    if d.poisonIn (apFold fn) x width = [] then (d, d.readLocal (apFold fn) x width)
    else (d.apFault fn 0x0D y, zeros width)

/-- An aperture write. -/
def Device.apWrite (d : Device) (fn y width value : Nat) : Device :=
  let st := d.apStatus fn y width
  let x := d.apAddr fn y
  if st ≠ 0 then d.apFault fn st y
  else if d.clearingAt (apFold fn) x ∨ d.clearingAt (apFold fn) (x + width - 1) then d.apFault fn 0x03 y
  else (d.writeLocal (apFold fn) x (leBytes width value) []).noteDirty (apFold fn) x width

/-- Whether an aperture answers a function (R524). -/
def Device.apOpen (d : Device) (fn : Nat) : Bool := fn < 9 && !d.recovering

/-- APERTURE_READ: `off` is the offset within the window. -/
def Device.doApRead (d : Device) (fn off width : Nat) (errs : List (Nat × Ecc)) : Device :=
  if !d.apOpen fn then d.emit (.reply (.host fn) (zeros width)) else
  let r := d.apRead fn (off % 2 ^ 20) width errs
  r.1.emit (.reply (.host fn) r.2)
/-- APERTURE_READ. -/
def execApertureRead (fn off width : Nat) (errs : List (Nat × Ecc)) (s : State) : Host.Outcome State Fault Refusal :=
  s.act (·.fromHost fn (·.doApRead fn off width errs))

/-- APERTURE_WRITE. -/
def Device.doApWrite (d : Device) (fn off width value : Nat) : Device :=
  if d.apOpen fn then d.apWrite fn (off % 2 ^ 20) width value else d
/-- APERTURE_WRITE. -/
def execApertureWrite (fn off width value : Nat) (s : State) : Host.Outcome State Fault Refusal :=
  s.act (·.fromHost fn (·.doApWrite fn off width value))

/-! ## Reads of BAR0 (R523) -/

/-- An aligned 4-byte read; WATCH_LO latches WATCH_HI. -/
def Device.readWord (d : Device) (fn off : Nat) : Device × List Byte :=
  let v := leBytes 4 (d.regValue fn off)
  if off = 0x11000 ∧ d.responds fn off then
    ({ d with watch := { d.watch with hiLatch := d.now / 2 ^ 32 % 2 ^ 32 } }, v)
  else if 0x400000 ≤ off ∧ off < 0x500000 then
    (d, if fn = 0 ∧ !d.recovering then (List.range 4).map fun i => d.traceByte (off - 0x400000 + i) else zeros 4)
  else (d, v)

/-- A read of BAR0: the device after it, and the bytes. -/
def Device.readBar (d : Device) (fn off width : Nat) : Device × List Byte :=
  if 0x200000 ≤ off ∧ off < 0x300000 then
    if d.apOpen fn then d.apRead fn (off - 0x200000) width [] else (d, zeros width)
  else if width = 4 ∧ off % 4 = 0 then d.readWord fn off
  else if width = 8 ∧ off % 8 = 0 then
    let a := d.readWord fn off
    let b := a.1.readWord fn (off + 4)
    (b.1, a.2 ++ b.2)
  else (d, zeros width)

/-! ## Writes -/

/-- TRACE_CTRL written: 1 starts capture with a clean buffer unless studbook logging runs, 0 stops it (R496, R536). -/
def Device.writeTrace (d : Device) (fn value : Nat) : Device :=
  if bit value 0 then
    if d.logging then d.refuse fn 0x09 0x20030 false
    else { d with trace := { d.trace with enable := true, wrapped := false, lost := 0, next := 0, buf := [] } }
  else d.haltTrace
/-- TRACE_ENABLE: TRACE_CTRL written through PF0. -/
def Device.doTraceEnable (d : Device) (fn value : Nat) : Device := if fn = 0 then d.writeTrace fn value else d
/-- TRACE_ENABLE. -/
def execTraceEnable (fn value : Nat) (s : State) : Host.Outcome State Fault Refusal :=
  s.act (·.fromRegs fn (·.doTraceEnable fn value))

/-- MBOX_CMD written: the command starts; one that reads an image from host memory goes on until its host read has
returned. An opcode of no command ends with BAD_COMMAND. -/
def Device.writeMbox (d : Device) (fn value : Nat) : Device :=
  if (d.fn fn).mbBusy then d else
  let op := bits value 23 16
  match op with
  | 0x01 => d.doGetCert fn
  | 0x02 => d.doAttest fn
  | 0x03 => d.doExtend fn
  | 0x04 => d.doGetNonce fn
  | 0x10 => d.doOwnerEnrol fn
  | 0x11 => d.doSetApproved fn
  | 0x12 => d.doDecommission fn
  | 0x22 => d.doRecoveryWrite fn
  | 0x30 => d.doZeroise fn
  | 0x20 | 0x21 => d.command fn op fun d => d.onFn fn fun r => { r with mbBusy := true, mbReq := op }
  | _ => d.answerStatus fn 1

/-- Identity and security writes. -/
def Device.writeLow (d : Device) (fn off value : Nat) : Device :=
  if off = 0x10 then d.onFn fn fun r => { r with valid := r.valid && !bit value 31 }
  else if off = 0x1004 then d.doSecCtrl fn value
  else if off = 0x1010 then d.writeMbox fn value
  else if 0x1800 ≤ off ∧ off < 0x2000 then d.onFn fn fun r => { r with buffer := r.buffer.store (off - 0x1800) (leBytes 4 value) }
  else d

/-- WATCH_CTRL written: `free` only before S4, then the skew limit, then a reload where asked (R283, R289, R527). -/
def Device.writeWatchCtrl (d : Device) (fn value : Nat) : Device :=
  let free := bit value 16
  if free ≠ d.watch.free ∧ d.full then d.refuse fn 0x01 0x11010 false
  else if bit value 17 ∧ (d.anyDrive ∨ d.watch.cmps.any (·.isSome)) then d.refuse fn 0x03 0x11010 false
  else
    let st := if free = d.watch.free then d.watch.state else if free then 4 else 0
    let begins := free && !d.watch.free
    let d := { d with watch := { d.watch with
      skewLimit := bits value 15 0, free := free, state := st, flag := d.watch.flag && !begins, skewed := d.watch.skewed && !begins
      count := if begins then d.watch.age - d.watch.core else d.watch.count } }
    if bit value 17 then d.reload fn else d

/-- Heft, watch writes. -/
def Device.writeTime (d : Device) (fn off value : Nat) : Device :=
  if off < 0x10000 + 49 * 16 ∧ off % 16 = 0 then
    let h := (off - 0x10000) / 16
    let gate := decide (h < 46) && bit value 3
    d.onHeft h fun x => { x with ceiling := bits value 2 0, gateEn := gate, stopped := x.stopped && gate }
  else if off = 0x1100C then
    if d.full ∧ bits value 7 0 ≠ d.watch.delay then d.refuse fn 0x01 off false
    else { d with watch := { d.watch with delay := bits value 7 0 } }
  else if off = 0x11010 then d.writeWatchCtrl fn value
  else d

/-- Power and bring-up writes. -/
def Device.writePower (d : Device) (fn off value : Nat) : Device :=
  match off with
  | 0x20000 => { d with power := { d.power with limit := bits value 10 0 } }
  | 0x20010 =>
    if d.full ∧ bit value 24 ≠ d.bring.hold then d.refuse fn 0x01 off false
    else { d with bring := { d.bring with hold := bit value 24 } }
  | 0x20020 => d.doResetCtrl fn value
  | 0x20030 => d.writeTrace fn value
  | _ => d

/-- Fold writes; a VF writes its own block's RW1C bit alone. -/
def Device.writeFolds (d : Device) (fn off value : Nat) : Device :=
  if off = 0x30000 then d.writeCount fn (bits value 3 0)
  else if off = 0x30008 then
    if d.full ∧ bit value 0 ≠ d.bring.bypass then d.refuse fn 0x01 off false
    else { d with bring := { d.bring with bypass := bit value 0 } }
  else if 0x30100 ≤ off ∧ off < 0x30300 then
    let f := (off - 0x30100) / 0x40
    if off % 0x40 = 0x10 then d.onFold f fun o => { o with fValid := o.fValid && !bit value 31 }
    else if off % 0x40 = 0x08 ∧ bit value 0 then d.doHandFold fn f
    else d
  else d

/-- SITE_CHECK and SITE_CTRL written; through a VF a site block is read-only. -/
def Device.writeSite (d : Device) (fn n o value : Nat) : Device :=
  if fn ≠ 0 then d
  else if o = 0x10 then d.onSite n fun t => { t with window := bits value 28 5, limit := bits value 4 0 }
  else if o = 0x20 then
    if bit value 1 ∧ !d.full then d.doSiteRetire fn n
    else
      let d := if bit value 0 then d.doClearCounts fn n else d
      if bit value 1 then d.doSiteRetire fn n else d
  else d

/-- Paddock writes. -/
def Device.writePad (d : Device) (off value : Nat) : Device :=
  if off < 0x80000 + 42 * 0x400 ∧ off % 0x400 = 8 then
    d.onSite ((off - 0x80000) / 0x400) fun t => { t with ueValid := t.ueValid && !bit value 31 }
  else match off with
  | 0xA0000 => { d with padScrub := at' (bit value 31) 31 + bits value 23 0 }
  | 0xA0010 => { d with hardLimit := bits value 2 0 }
  | _ => d

/-- Four tickets of an arbiter written; those of requesters 13 to 15 stay zero. -/
def writeTickets (l : List Nat) (w value : Nat) : List Nat :=
  (List.range 4).foldl (fun l i => if 4 * w + i < 13 then l.set (4 * w + i) (bits value (8 * i + 7) (8 * i)) else l) l

/-- Arbiter writes: a ticket write takes effect at the next draw (R256). -/
def Device.writeArb (d : Device) (off value : Nat) : Device :=
  let o := off - 0xC0000
  if o < 42 * 16 then
    d.onSite (o / 16) fun t => if o % 16 = 0 then { t with arbRd := value } else if o % 16 = 4 then { t with arbWr := value } else t
  else if 0x1000 ≤ o ∧ o < 0x1000 + 18 * 16 then
    let a := (o - 0x1000) / 16
    { d with fabric := { d.fabric with
      arbs := d.fabric.arbs.modify a fun (x : Arbiter) => { x with tickets := writeTickets x.tickets (o / 4 % 4) value } } }
  else if o = 0x2000 then { d with fabric := { d.fabric with hold := bits value 9 0 } }
  else if o = 0x2004 then { d with fabric := { d.fabric with cutValid := d.fabric.cutValid && !bit value 31 } }
  else d

/-- Memory writes. -/
def Device.writeMem (d : Device) (fn off value : Nat) : Device :=
  if 0xD0100 ≤ off ∧ off < 0xD0500 ∧ off % 0x100 = 0xC then
    d.onQuarter ((off - 0xD0100) / 0x100) fun x => { x with ueValid := x.ueValid && !bit value 31 }
  else match off with
  | 0xD0000 =>
    if d.full ∧ bit value 1 ≠ d.mem.forceLow then d.refuse fn 0x01 off false
    else { d with mem := { d.mem with forceLow := bit value 1, idleSr := bit value 0 } }
  | 0xD0008 => { d with mem := { d.mem with scrub := at' (bit value 31) 31 + bits value 23 0 } }
  | _ => d

/-- Whether flock setup is busy: forming, formed or recovering (R332, R394). -/
def Device.flockBusy (d : Device) : Bool := d.flock.state = 1 || d.flock.state = 2 || d.flock.state = 3

/-- A setup field of the flock, refused with FLOCK_BUSY while it is busy. -/
def Device.setFlock (d : Device) (fn off : Nat) (g : Flock → Flock) : Device :=
  if d.flockBusy then d.refuse fn 0x04 off false else { d with flock := g d.flock }

/-- Flock writes. A formation or a readmission starts here; what the discovery learns comes with FLOCK_FORM and
RECOV_READMIT, and other members' resident drives with FLOCK_DISSOLVE (log entries 56, 131). -/
def Device.writeFlock (d : Device) (fn off value : Nat) : Device :=
  let fosters : Bool := match d.recov.ward with | some w => w.fostering | none => false
  match off with
  | 0x100000 => d.setFlock fn off fun x => { x with cfg := bits value 18 0 }
  | 0x100004 =>
    let d := if bit value 1 then d.doDissolve fn [] else d
    if bit value 0 then d.doFlockForm fn [] else d
  | 0x10000C => d.setFlock fn off fun x => { x with standbyLo := value }
  | 0x100010 => d.setFlock fn off fun x => { x with standbyHi := value }
  | 0x100020 => { d with flock := { d.flock with laggard := bits value 23 0 } }
  | 0x100400 =>
    if d.flockBusy then d.refuse fn 0x04 off false else { d with recov := { d.recov with cfg := value } }
  | 0x100404 =>
    let d := if bit value 2 then d.doHandover fn (bits value 21 16) else d
    if bit value 0 then d.doExportDone fn else d
  | 0x100408 => { d with recov := { d.recov with
      signRefused := d.recov.signRefused && !bit value 15, snapRefused := d.recov.snapRefused && !bit value 14 } }
  | 0x100420 =>
    if fosters then d.refuse fn 0x04 off false else { d with recov := { d.recov with fosterRegion := value } }
  | 0x100428 => { d with recov := { d.recov with signLo := value } }
  | 0x10042C => d.doSignArm fn value
  | 0x100430 => { d with recov := { d.recov with snapLo := value } }
  | 0x100434 => d.doSnapatArm fn value
  | _ => d

/-- Ring register writes. -/
def Device.writeRing (d : Device) (fn n w value : Nat) : Device :=
  if w = 2 then d.writeRingCfg fn n value else if w < 2 then d.writeRingBase fn n w value else d

/-- Trace filter and aperture base writes. -/
def Device.writeWindow (d : Device) (fn off value : Nat) : Device :=
  match off with
  | 0x120000 => { d with trace := { d.trace with kinds := bits value 31 16 &&& 0x03FE, folds := bits value 15 8 } }
  | 0x120010 => d.onFn fn fun r => { r with apLo := bits value 31 20 * 2 ^ 20 }
  | 0x120014 => d.onFn fn fun r => { r with apHi := bits value 13 0 }
  | _ => d

/-- Whether a write reaches a register: in the error state only the security block and RESET_CTRL take writes (log
entry 106). -/
def Device.takesWrite (d : Device) (fn off : Nat) : Bool := d.responds fn off && (d.sec.state ≠ 2 || decide (off < 0x2000) || decide (off = 0x20020))

/-- An aligned 4-byte write of a register. -/
def Device.writeWord (d : Device) (fn off value0 : Nat) : Device :=
  let value := value0 % 2 ^ 32
  if !d.takesWrite fn off then d
  else if off < 0x2000 then d.writeLow fn off value
  else if off < 0x10000 then d
  else if off < 0x20000 then d.writeTime fn off value
  else if off < 0x30000 then d.writePower fn off value
  else if off < 0x40000 then d.writeFolds fn off value
  else if off < 0x6A000 then d.writeSite fn ((off - 0x40000) / 0x1000) (off % 0x1000) value
  else if off < 0x80000 then d
  else if off < 0xC0000 then d.writePad off value
  else if off < 0xD0000 then d.writeArb off value
  else if off < 0xE0000 then d.writeMem fn off value
  else if off < 0xE0100 then
    if off % 0x20 = 4 then d.onFold ((off - 0xE0000) / 0x20) fun o => { o with fbValid := o.fbValid && !bit value 31 } else d
  else if off < 0xF0000 then d
  else if off < 0xF0600 then if off % 0x100 = 4 then d.writeLinkCtrl ((off - 0xF0000) / 0x100) value else d
  else if off < 0x100000 then d
  else if off < 0x110000 then d.writeFlock fn off value
  else if off < 0x114000 then d.writeRing fn ((off - 0x110000) / 16) (off / 4 % 4) value
  else if off < 0x120000 then d
  else if off < 0x130000 then d.writeWindow fn off value
  else d

/-- A write of BAR0: registers by aligned 4 or 8 bytes, the aperture by its own rule, doorbells by 4 bytes (R523;
13, Positions, doorbells and phase). -/
def Device.writeBar (d : Device) (fn off width value : Nat) : Device :=
  if 9 ≤ fn then d
  else if 0x200000 ≤ off ∧ off < 0x300000 then
    if d.apOpen fn then d.apWrite fn (off - 0x200000) width value else d
  else if 0x1000000 ≤ off ∧ off < 0x1200000 then
    let n := (off - 0x1000000) / 0x1000
    if d.recovering ∨ d.sec.state = 2 then d
    else if off % 0x1000 = 0 then d.doSqDb fn n width value
    else if off % 0x1000 = 4 then d.doCqDb fn n width value
    else d
  else if width = 4 ∧ off % 4 = 0 then d.writeWord fn off value
  else if width = 8 ∧ off % 8 = 0 then (d.writeWord fn off value).writeWord fn (off + 4) (value / 2 ^ 32)
  else d

/-- REGISTER_WRITE; the security block takes writes from outside an IDE stream too, for the services of no role (R459; table
Roles). -/
def Device.doRegWrite (d : Device) (fn off width value : Nat) : Device :=
  if 0x1000 ≤ off ∧ off < 0x2000 then d.writeBar fn off width value else d.fromHost fn (·.writeBar fn off width value)
/-- REGISTER_WRITE. -/
def execRegisterWrite (fn off width value : Nat) (s : State) : Host.Outcome State Fault Refusal :=
  s.act (·.doRegWrite fn off width value)

end Sys2Proof.Machine
end

