-- ==== Sys2Proof/Machine/Tunnel.lean ====
section
/-!
DEFINITION. Tunnelling through the bellwether (11, R347 to R351; 13, R429).
-/
namespace Sys2Proof.Machine

/-- Whether this device is the bellwether of a formed or recovering flock. -/
def Device.bellwether (d : Device) : Bool := d.flock.isBell && (d.flock.state = 2 || d.flock.state = 3)

/-- Whether a rank is admitted and has not failed (R349). -/
def Device.present (d : Device) (rank : Nat) : Bool := bit d.flock.members rank && !d.flock.failed.contains rank

/-- Whether this member still completes tunnelled requests: its bellwether has not failed (R351). -/
def Device.tunnelServes (d : Device) : Bool := d.tunnelled && !d.flock.failed.contains d.bellRank

/-- #FFFF_FFFF in every 4 bytes. -/
def ones (n : Nat) : List Byte := List.replicate n 0xFF#8

/-! ## Reads outstanding (R348, R349) -/

/-- The reads that are answered now and those that stay: a read is answered once it may be and every earlier one of its rank
has been (R348). -/
def answered : List TunRead → List Nat → List (List Byte) × List TunRead
  | [], _ => ([], [])
  | x :: l, held =>
    match x.ready, held.contains x.rank with
    | some bs, false => let r := answered l held; (bs :: r.1, r.2)
    | _, _ => let r := answered l (x.rank :: held); (r.1, x :: r.2)

/-- Reads that may be answered reach the host, those of one rank in order (R348). -/
def Device.answerReads (d : Device) : Device :=
  let r := answered d.flock.tunnels []
  r.1.foldl (fun d bs => d.emit (.reply (.host 0) bs)) { d with flock := { d.flock with tunnels := r.2 } }

/-- A read that leaves: it joins those outstanding; answered already where nothing is sent for it. -/
def Device.noteRead (d : Device) (rank off width : Nat) (ready : Option (List Byte)) : Device :=
  { d with flock := { d.flock with
    nextTag := (d.flock.nextTag + 1) % 2 ^ 17
    tunnels := d.flock.tunnels ++ [(⟨d.flock.nextTag, rank, off, width, d.watch.age, ready⟩ : TunRead)] } }

/-- What a read is answered with is known. -/
def Device.endRead (d : Device) (tag : Nat) (bs : List Byte) : Device :=
  ({ d with flock := { d.flock with tunnels := d.flock.tunnels.map fun (x : TunRead) =>
    if x.tag = tag ∧ x.ready.isNone then { x with ready := some bs } else x } }).answerReads

/-! ## Accesses of the host to BAR2, and tunnel packets (R347 to R349) -/

/-- TUNNEL_READ: a read of a rank's window: this device's own shows its BAR0; on the bellwether an admitted member's is carried
to it, and every other reads as an absent rank's (R347, R349; 13, Functions and BARs). A packet on the member is a read
of its BAR0 through PF0, whose data returns on VC2. -/
def Device.doTunRead (d : Device) : Tunnel → Device
  | .host rank off width _ => d.fromHost 0 fun d =>
    if rank = d.flock.rank then
      let r := d.readBar 0 off width
      r.1.emit (.reply (.host 0) r.2)
    else if d.bellwether ∧ d.present rank then
      (d.noteRead rank off width none).sendTo
        { d.packetTo rank 1 0 with addr := rank * 2 ^ 46 + off, tally := d.flock.nextTag, inc := width }
    else ((d.event .tunnelAbsent [rank]).noteRead rank off width (some (ones width))).answerReads
  | .packet k p => d.deliver k p fun d =>
    if !d.tunnelServes then d else
    let r := d.readBar 0 (p.addr % 2 ^ 46) p.inc
    r.1.sendTo { r.1.packetTo p.src 2 2 with tally := p.tally, data := r.2 }
/-- TUNNEL_READ. -/
def execTunnelRead (a : Tunnel) (s : State) : Host.Outcome State Fault Refusal := s.act (·.doTunRead a)

/-- TUNNEL_WRITE: likewise; a tunnelled write counts as a write by the member's PF0 (R525). -/
def Device.doTunWrite (d : Device) : Tunnel → Device
  | .host rank off width value => d.fromHost 0 fun d =>
    if rank = d.flock.rank then d.writeBar 0 off width value
    else if d.bellwether ∧ d.present rank then
      d.sendTo { d.packetTo rank 1 1 with addr := rank * 2 ^ 46 + off, data := leBytes width value }
    else d.event .tunnelAbsent [rank]
  | .packet k p => d.deliver k p fun d =>
    if d.tunnelServes then d.writeBar 0 (p.addr % 2 ^ 46) p.data.length (leNat p.data) else d
/-- TUNNEL_WRITE. -/
def execTunnelWrite (a : Tunnel) (s : State) : Host.Outcome State Fault Refusal := s.act (·.doTunWrite a)

/-- What a completion of kind 2 on VC2 says of a read of host memory (log entry 128). -/
def readResult (p : Packet) : HostRead :=
  if p.status % 128 = 0 then .data p.data else if p.status % 128 = 1 then .abort else .timeout

/-- TUNNEL_COMPLETION: on the bellwether the data of a tunnelled read, a late one is discarded (R348, R349); on a member the
data of its own read of host memory (R350). -/
def Device.doTunDone (d : Device) (k : Nat) (p : Packet) : Device :=
  d.deliver k p fun d => if d.bellwether then d.endRead p.tally p.data else d.readDone p.tally (readResult p)
/-- TUNNEL_COMPLETION. -/
def execTunnelCompletion (k : Nat) (p : Packet) (s : State) : Host.Outcome State Fault Refusal :=
  s.act (·.doTunDone k p)

/-- TUNNEL_TIMEOUT: 100,000 ticks after it left, a read is completed with all ones (R349). -/
def Device.doTunTimeout (d : Device) (tag : Nat) : Device :=
  match d.flock.tunnels.find? (·.tag = tag) with
  | some x =>
    if x.ready.isNone ∧ x.since + 100000 ≤ d.watch.age then (d.event .tunnelTimeout [x.rank]).endRead tag (ones x.width) else d
  | none => d
/-- TUNNEL_TIMEOUT. -/
def execTunnelTimeout (tag : Nat) (s : State) : Host.Outcome State Fault Refusal := s.act (·.doTunTimeout tag)

/-! ## Members' host traffic on the bellwether (R350, R429) -/

/-- A member's request issued on the bellwether's port (R350). -/
def Device.forMember (d : Device) (k : Nat) (p : Packet) (g : Device → Device) : Device :=
  d.deliver k p fun d => if d.bellwether ∧ d.present p.src then g d else d

/-- INTERRUPT: the bellwether raises a vector of its PF0 (R350, R429). -/
def Device.doInterrupt (d : Device) (k : Nat) (p : Packet) : Device :=
  d.forMember k p fun d => d.emit (.msix 0 (p.tally % 512))
/-- INTERRUPT. -/
def execInterrupt (k : Nat) (p : Packet) (s : State) : Host.Outcome State Fault Refusal := s.act (·.doInterrupt k p)

/-- HOST_DMA_READ: a member's read waits for its tag on the bellwether's port, as its own source (R350, R402). -/
def Device.doMemberRead (d : Device) (k : Nat) (p : Packet) : Device :=
  d.forMember k p fun d =>
    d.askRead (16 + p.src) (.member p.src p.tally) (leNat (p.data.take 8)) (leNat ((p.data.drop 8).take 8))
/-- HOST_DMA_READ. -/
def execHostDmaRead (k : Nat) (p : Packet) (s : State) : Host.Outcome State Fault Refusal :=
  s.act (·.doMemberRead k p)

/-- HOST_DMA_WRITE: a member's write issued on the bellwether's port. -/
def Device.doMemberWrite (d : Device) (k : Nat) (p : Packet) : Device :=
  d.forMember k p fun d => d.hostWrite (leNat (p.data.take 8)) (p.data.drop 8)
/-- HOST_DMA_WRITE. -/
def execHostDmaWrite (k : Nat) (p : Packet) (s : State) : Host.Outcome State Fault Refusal :=
  s.act (·.doMemberWrite k p)

end Sys2Proof.Machine
end

