-- ==== Sys2Proof/Machine/Dispatch.lean ====
section
/-!
DEFINITION. One arm per command: a direct call of its meaning.
-/
namespace Sys2Proof.Machine

/-- The effect of a command on the state, the queue of waiting commands aside. -/
def exec (i : Instr) (s : State) : Host.Outcome State Fault Refusal :=
  match i with
  | .nop n => Sys2Proof.Machine.execNop n s
  | .endStream n => Sys2Proof.Machine.execEndStream n s
  | .jump n => Sys2Proof.Machine.execJump n s
  | .call n => Sys2Proof.Machine.execCall n s
  | .ret n => Sys2Proof.Machine.execRet n s
  | .mbsel n q => Sys2Proof.Machine.execMbsel n q s
  | .stepCmd n q => Sys2Proof.Machine.execStepCmd n q s
  | .tallyAdd n q => Sys2Proof.Machine.execTallyAdd n q s
  | .tallySet n q => Sys2Proof.Machine.execTallySet n q s
  | .tallyWait n q => Sys2Proof.Machine.execTallyWait n q s
  | .muster n q => Sys2Proof.Machine.execMuster n q s
  | .watchWait n q => Sys2Proof.Machine.execWatchWait n q s
  | .racePush n q => Sys2Proof.Machine.execRacePush n q s
  | .racePop n q => Sys2Proof.Machine.execRacePop n q s
  | .handleSet n q => Sys2Proof.Machine.execHandleSet n q s
  | .clear n q => Sys2Proof.Machine.execClear n q s
  | .release n q => Sys2Proof.Machine.execRelease n q s
  | .product n q => Sys2Proof.Machine.execProduct n q s
  | .vop n q err => Sys2Proof.Machine.execVop n q err s
  | .move n q e => Sys2Proof.Machine.execMove n q e s
  | .feed n q e => Sys2Proof.Machine.execFeed n q e s
  | .lot n q e => Sys2Proof.Machine.execLot n q e s
  | .land n q => Sys2Proof.Machine.execLand n q s
  | .shear n q => Sys2Proof.Machine.execShear n q s
  | .collect n q => Sys2Proof.Machine.execCollect n q s
  | .streamFetch n e => Sys2Proof.Machine.execStreamFetch n e s
  | .commandCompletion n q e k => Sys2Proof.Machine.execCommandCompletion n q e k s
  | .tileStep n err => Sys2Proof.Machine.execTileStep n err s
  | .penRetire n => Sys2Proof.Machine.execPenRetire n s
  | .spareSubstitution n => Sys2Proof.Machine.execSpareSubstitution n s
  | .penStopRequest n c => Sys2Proof.Machine.execPenStopRequest n c s
  | .preemption n cycles => Sys2Proof.Machine.execPreemption n cycles s
  | .idleRampDown n => Sys2Proof.Machine.execIdleRampDown n s
  | .rampEnd n => Sys2Proof.Machine.execRampEnd n s
  | .droveTileArrival n x e => Sys2Proof.Machine.execDroveTileArrival n x e s
  | .droveResend n x => Sys2Proof.Machine.execDroveResend n x s
  | .bulkWriteFlit f => Sys2Proof.Machine.execBulkWriteFlit f s
  | .remoteReadOrder o e => Sys2Proof.Machine.execRemoteReadOrder o e s
  | .feedFlit c => Sys2Proof.Machine.execFeedFlit c s
  | .controlTallyAdd f id inc => Sys2Proof.Machine.execControlTallyAdd f id inc s
  | .controlTallySet f id value => Sys2Proof.Machine.execControlTallySet f id value s
  | .musterArrive f slot group pen cycle => Sys2Proof.Machine.execMusterArrive f slot group pen cycle s
  | .musterRelease f slot group n pos cycle => Sys2Proof.Machine.execMusterRelease f slot group n pos cycle s
  | .setupAddress crook rd off => Sys2Proof.Machine.execSetupAddress crook rd off s
  | .setupData crook refused value => Sys2Proof.Machine.execSetupData crook refused value s
  | .rampRequest n up => Sys2Proof.Machine.execRampRequest n up s
  | .rampGrant n up cycle => Sys2Proof.Machine.execRampGrant n up cycle s
  | .eventFragment n value last => Sys2Proof.Machine.execEventFragment n value last s
  | .arbiterDraw a requesting => Sys2Proof.Machine.execArbiterDraw a requesting s
  | .cut a beats owner => Sys2Proof.Machine.execCut a beats owner s
  | .memoryRead addr lo hi => Sys2Proof.Machine.execMemoryRead addr lo hi s
  | .memoryWrite f addr data => Sys2Proof.Machine.execMemoryWrite f addr data s
  | .memPatrol ch errs => Sys2Proof.Machine.execMemPatrol ch errs s
  | .refresh q hot => Sys2Proof.Machine.execRefresh q hot s
  | .rfm q hot => Sys2Proof.Machine.execRfm q hot s
  | .wck2dqCheck q ch drifted => Sys2Proof.Machine.execWck2dqCheck q ch drifted s
  | .channelPowerDown ch => Sys2Proof.Machine.execChannelPowerDown ch s
  | .selfRefreshEntry q => Sys2Proof.Machine.execSelfRefreshEntry q s
  | .selfRefreshExit q => Sys2Proof.Machine.execSelfRefreshExit q s
  | .paddockScrub n bank granted errs => Sys2Proof.Machine.execPaddockScrub n bank granted errs s
  | .paddockClear n => Sys2Proof.Machine.execPaddockClear n s
  | .rowSpare st row e => Sys2Proof.Machine.execRowSpare st row e s
  | .rowRemapDone st row => Sys2Proof.Machine.execRowRemapDone st row s
  | .memoryShearsUpdate u => Sys2Proof.Machine.execMemoryShearsUpdate u s
  | .linkShearsBlockUpdate k plan j => Sys2Proof.Machine.execLinkShearsBlockUpdate k plan j s
  | .collectiveStart e => Sys2Proof.Machine.execCollectiveStart e s
  | .dma sq idx errs => Sys2Proof.Machine.execDma sq idx errs s
  | .tallyAddDescriptor sq idx => Sys2Proof.Machine.execTallyAddDescriptor sq idx s
  | .wait sq idx => Sys2Proof.Machine.execWait sq idx s
  | .waitTimeout sq idx => Sys2Proof.Machine.execWaitTimeout sq idx s
  | .launch sq idx block reads => Sys2Proof.Machine.execLaunch sq idx block reads s
  | .stepDescriptor sq idx => Sys2Proof.Machine.execStepDescriptor sq idx s
  | .stepPrepare sq idx reads => Sys2Proof.Machine.execStepPrepare sq idx reads s
  | .stepOpen f slot => Sys2Proof.Machine.execStepOpen f slot s
  | .stepClose f slot err => Sys2Proof.Machine.execStepClose f slot err s
  | .run sq idx => Sys2Proof.Machine.execRun sq idx s
  | .endDescriptor sq idx => Sys2Proof.Machine.execEndDescriptor sq idx s
  | .plan sq idx => Sys2Proof.Machine.execPlan sq idx s
  | .groupOpen sq idx => Sys2Proof.Machine.execGroupOpen sq idx s
  | .groupClose sq idx => Sys2Proof.Machine.execGroupClose sq idx s
  | .descriptorFetch sq => Sys2Proof.Machine.execDescriptorFetch sq s
  | .hostReadCompletion tag data => Sys2Proof.Machine.execHostReadCompletion tag data s
  | .sqDoorbell fn n width value => Sys2Proof.Machine.execSqDoorbell fn n width value s
  | .cqDoorbell fn n width value => Sys2Proof.Machine.execCqDoorbell fn n width value s
  | .ringEnable fn n value => Sys2Proof.Machine.execRingEnable fn n value s
  | .ringDisable fn n value => Sys2Proof.Machine.execRingDisable fn n value s
  | .foldcfgCount fn value => Sys2Proof.Machine.execFoldcfgCount fn value s
  | .foldHandover fn f => Sys2Proof.Machine.execFoldHandover fn f s
  | .foldReady f => Sys2Proof.Machine.execFoldReady f s
  | .siteCtrlRetire fn n => Sys2Proof.Machine.execSiteCtrlRetire fn n s
  | .siteCtrlClearCounts fn n => Sys2Proof.Machine.execSiteCtrlClearCounts fn n s
  | .watchReload fn => Sys2Proof.Machine.execWatchReload fn s
  | .watchLoRead fn => Sys2Proof.Machine.execWatchLoRead fn s
  | .flockForm fn members => Sys2Proof.Machine.execFlockForm fn members s
  | .flockDissolve fn resident => Sys2Proof.Machine.execFlockDissolve fn resident s
  | .recovHandover fn rank => Sys2Proof.Machine.execRecovHandover fn rank s
  | .recovReadmit fn rank info => Sys2Proof.Machine.execRecovReadmit fn rank info s
  | .exportDone fn => Sys2Proof.Machine.execExportDone fn s
  | .recovSignArm fn value => Sys2Proof.Machine.execRecovSignArm fn value s
  | .recovSnapatArm fn value => Sys2Proof.Machine.execRecovSnapatArm fn value s
  | .secCtrlZeroise fn value => Sys2Proof.Machine.execSecCtrlZeroise fn value s
  | .resetCtrlModule fn value => Sys2Proof.Machine.execResetCtrlModule fn value s
  | .traceEnable fn value => Sys2Proof.Machine.execTraceEnable fn value s
  | .linkCtrlRetrain fn k value => Sys2Proof.Machine.execLinkCtrlRetrain fn k value s
  | .apertureRead fn off width e => Sys2Proof.Machine.execApertureRead fn off width e s
  | .apertureWrite fn off width value => Sys2Proof.Machine.execApertureWrite fn off width value s
  | .registerWrite fn off width value => Sys2Proof.Machine.execRegisterWrite fn off width value s
  | .getCert fn => Sys2Proof.Machine.execGetCert fn s
  | .attest fn => Sys2Proof.Machine.execAttest fn s
  | .extend fn => Sys2Proof.Machine.execExtend fn s
  | .getNonce fn => Sys2Proof.Machine.execGetNonce fn s
  | .ownerEnrol fn => Sys2Proof.Machine.execOwnerEnrol fn s
  | .setApproved fn => Sys2Proof.Machine.execSetApproved fn s
  | .decommission fn => Sys2Proof.Machine.execDecommission fn s
  | .fwUpdate fn image => Sys2Proof.Machine.execFwUpdate fn image s
  | .recoveryLoad fn image => Sys2Proof.Machine.execRecoveryLoad fn image s
  | .recoveryWrite fn => Sys2Proof.Machine.execRecoveryWrite fn s
  | .zeroise fn => Sys2Proof.Machine.execZeroise fn s
  | .getVersion => Sys2Proof.Machine.execGetVersion s
  | .getCapabilities => Sys2Proof.Machine.execGetCapabilities s
  | .negotiateAlgorithms => Sys2Proof.Machine.execNegotiateAlgorithms s
  | .getDigests => Sys2Proof.Machine.execGetDigests s
  | .getCertificate offset len => Sys2Proof.Machine.execGetCertificate offset len s
  | .challenge nonce => Sys2Proof.Machine.execChallenge nonce s
  | .getMeasurements index => Sys2Proof.Machine.execGetMeasurements index s
  | .keyExchange requester => Sys2Proof.Machine.execKeyExchange requester s
  | .finish session userCert macOk => Sys2Proof.Machine.execFinish session userCert macOk s
  | .endSession session => Sys2Proof.Machine.execEndSession session s
  | .ideKm session fn selective => Sys2Proof.Machine.execIdeKm session fn selective s
  | .operation value => Sys2Proof.Machine.execOperation value s
  | .clearFaults => Sys2Proof.Machine.execClearFaults s
  | .statusWord => Sys2Proof.Machine.execStatusWord s
  | .readVin reading => Sys2Proof.Machine.execReadVin reading s
  | .readIin reading => Sys2Proof.Machine.execReadIin reading s
  | .readTemperature1 reading => Sys2Proof.Machine.execReadTemperature1 reading s
  | .readTemperature2 reading => Sys2Proof.Machine.execReadTemperature2 reading s
  | .readPin reading => Sys2Proof.Machine.execReadPin reading s
  | .smbusIdrev => Sys2Proof.Machine.execSmbusIdrev s
  | .smbusSecStatus => Sys2Proof.Machine.execSmbusSecStatus s
  | .smbusStage => Sys2Proof.Machine.execSmbusStage s
  | .smbusThermStatus => Sys2Proof.Machine.execSmbusThermStatus s
  | .smbusPwrStatus => Sys2Proof.Machine.execSmbusPwrStatus s
  | .smbusResetCause => Sys2Proof.Machine.execSmbusResetCause s
  | .smbAlertRead => Sys2Proof.Machine.execSmbAlertRead s
  | .smbAlertClear value => Sys2Proof.Machine.execSmbAlertClear value s
  | .alertResponseAddress => Sys2Proof.Machine.execAlertResponseAddress s
  | .bypass => Sys2Proof.Machine.execBypass s
  | .idcode => Sys2Proof.Machine.execIdcode s
  | .samplePreload cells => Sys2Proof.Machine.execSamplePreload cells s
  | .extest => Sys2Proof.Machine.execExtest s
  | .extestPulse => Sys2Proof.Machine.execExtestPulse s
  | .extestTrain => Sys2Proof.Machine.execExtestTrain s
  | .tapDieStateInstruction => Sys2Proof.Machine.execTapDieStateInstruction s
  | .frameReceive k f => Sys2Proof.Machine.execFrameReceive k f s
  | .replayRequest k seq => Sys2Proof.Machine.execReplayRequest k seq s
  | .linkControlSlot k c => Sys2Proof.Machine.execLinkControlSlot k c s
  | .linkControlSend k => Sys2Proof.Machine.execLinkControlSend k s
  | .linkSilent k => Sys2Proof.Machine.execLinkSilent k s
  | .linkRetrain k => Sys2Proof.Machine.execLinkRetrain k s
  | .linkFailed k => Sys2Proof.Machine.execLinkFailed k s
  | .linkTraining k t => Sys2Proof.Machine.execLinkTraining k t s
  | .linkKeyAgreement k ok => Sys2Proof.Machine.execLinkKeyAgreement k ok s
  | .packetForward k p => Sys2Proof.Machine.execPacketForward k p s
  | .tunnelRead a => Sys2Proof.Machine.execTunnelRead a s
  | .tunnelWrite a => Sys2Proof.Machine.execTunnelWrite a s
  | .tunnelCompletion k p => Sys2Proof.Machine.execTunnelCompletion k p s
  | .tunnelTimeout tag => Sys2Proof.Machine.execTunnelTimeout tag s
  | .interrupt k p => Sys2Proof.Machine.execInterrupt k p s
  | .hostDmaRead k p => Sys2Proof.Machine.execHostDmaRead k p s
  | .hostDmaWrite k p => Sys2Proof.Machine.execHostDmaWrite k p s
  | .reduceData k p => Sys2Proof.Machine.execReduceData k p s
  | .gatherData k p => Sys2Proof.Machine.execGatherData k p s
  | .multicastData k p room => Sys2Proof.Machine.execMulticastData k p room s
  | .foster k p => Sys2Proof.Machine.execFoster k p s
  | .fosterEnd k p => Sys2Proof.Machine.execFosterEnd k p s
  | .fosterSend f => Sys2Proof.Machine.execFosterSend f s
  | .repair k p => Sys2Proof.Machine.execRepair k p s
  | .repairRequest g => Sys2Proof.Machine.execRepairRequest g s
  | .laggardFail g => Sys2Proof.Machine.execLaggardFail g s
  | .flockManagement v m => Sys2Proof.Machine.execFlockManagement v m s
  | .recoveryLoadPacket k p => Sys2Proof.Machine.execRecoveryLoadPacket k p s
  | .heartbeat v rank => Sys2Proof.Machine.execHeartbeat v rank s
  | .done v rank step reading => Sys2Proof.Machine.execDone v rank step reading s
  | .commit v step snap exp => Sys2Proof.Machine.execCommit v step snap exp s
  | .abort v k0 => Sys2Proof.Machine.execAbort v k0 s
  | .deviceFailure v rank cause => Sys2Proof.Machine.execDeviceFailure v rank cause s
  | .memberLost rank => Sys2Proof.Machine.execMemberLost rank s
  | .recoveryAssignment lost im k => Sys2Proof.Machine.execRecoveryAssignment lost im k s
  | .recoveryReady => Sys2Proof.Machine.execRecoveryReady s
  | .routeUpdate rank port => Sys2Proof.Machine.execRouteUpdate rank port s
  | .seal => Sys2Proof.Machine.execSeal s
  | .coteDrain f units => Sys2Proof.Machine.execCoteDrain f units s
  | .journalAppend f => Sys2Proof.Machine.execJournalAppend f s
  | .comparatorFire c => Sys2Proof.Machine.execComparatorFire c s
  | .watchWaitRetry n q => Sys2Proof.Machine.execWatchWaitRetry n q s
  | .watchFrame value check lowTicks => Sys2Proof.Machine.execWatchFrame value check lowTicks s
  | .watchLoss => Sys2Proof.Machine.execWatchLoss s
  | .watchSkew => Sys2Proof.Machine.execWatchSkew s
  | .refLoss => Sys2Proof.Machine.execRefLoss s
  | .refRestored => Sys2Proof.Machine.execRefRestored s
  | .refFail => Sys2Proof.Machine.execRefFail s
  | .heftSlew h => Sys2Proof.Machine.execHeftSlew h s
  | .heftSlewEnd h => Sys2Proof.Machine.execHeftSlewEnd h s
  | .periodStretch h => Sys2Proof.Machine.execPeriodStretch h s
  | .queueRealign h g => Sys2Proof.Machine.execQueueRealign h g s
  | .heftClockStop h => Sys2Proof.Machine.execHeftClockStop h s
  | .heftWake h => Sys2Proof.Machine.execHeftWake h s
  | .crossingHandshake h => Sys2Proof.Machine.execCrossingHandshake h s
  | .unitReset u => Sys2Proof.Machine.execUnitReset u s
  | .powerMeasurement watts fast slow => Sys2Proof.Machine.execPowerMeasurement watts fast slow s
  | .governorStepDown => Sys2Proof.Machine.execGovernorStepDown s
  | .governorStepUp => Sys2Proof.Machine.execGovernorStepUp s
  | .excursionGuard => Sys2Proof.Machine.execExcursionGuard s
  | .governorPause => Sys2Proof.Machine.execGovernorPause s
  | .leaveGuard => Sys2Proof.Machine.execLeaveGuard s
  | .thermalStepDown h reading => Sys2Proof.Machine.execThermalStepDown h reading s
  | .thermalStepUp h reading => Sys2Proof.Machine.execThermalStepUp h reading s
  | .thermtrip h reading => Sys2Proof.Machine.execThermtrip h reading s
  | .vcoreChange half millivolts => Sys2Proof.Machine.execVcoreChange half millivolts s
  | .powerOnReset => Sys2Proof.Machine.execPowerOnReset s
  | .boot => Sys2Proof.Machine.execBoot s
  | .powerUp => Sys2Proof.Machine.execPowerUp s
  | .pgAsserted => Sys2Proof.Machine.execPgAsserted s
  | .powerDown opOff => Sys2Proof.Machine.execPowerDown opOff s
  | .inputVoltageFault millivolts => Sys2Proof.Machine.execInputVoltageFault millivolts s
  | .siteSramTest n passed => Sys2Proof.Machine.execSiteSramTest n passed s
  | .selfTests failing => Sys2Proof.Machine.execSelfTests failing s
  | .memoryTraining fast slow => Sys2Proof.Machine.execMemoryTraining fast slow s
  | .enterFullService => Sys2Proof.Machine.execEnterFullService s
  | .moduleReset slotId => Sys2Proof.Machine.execModuleReset slotId s
  | .watchdog => Sys2Proof.Machine.execWatchdog s
  | .hostPortReset => Sys2Proof.Machine.execHostPortReset s
  | .functionLevelReset fn => Sys2Proof.Machine.execFunctionLevelReset fn s
  | .tamperNFall => Sys2Proof.Machine.execTamperNFall s
  | .tamperResponse => Sys2Proof.Machine.execTamperResponse s
  | .drbgReseed => Sys2Proof.Machine.execDrbgReseed s
  | .vauxLoss => Sys2Proof.Machine.execVauxLoss s
  | .perstNRise => Sys2Proof.Machine.execPerstNRise s
  | .formationTimeout => Sys2Proof.Machine.execFormationTimeout s
  | .tamperNRise => Sys2Proof.Machine.execTamperNRise s

end Sys2Proof.Machine
end

