-- ==== Sys2Proof/Machine/Wire.lean ====
section
/-!
DEFINITION. What a link port puts on its lanes: frames and their codewords, the slots of a packet under its link key, the link
control slot (11, R314, R318, R321, R322). The outputs `packet`, `control` and `again` name packets and control slots; these
functions give their bits. Orders of bits and bytes that the spec leaves open: log entry 132.
-/
namespace Sys2Proof.Machine

/-! ## Free values (log entry 132) -/

/-- Parity symbol i of the codeword of a message: R314 names the code and no generator. FREE VALUE, log entry 132. -/
opaque Config.parity (message : List Nat) (i : Nat) : Nat
/-- Byte i of the AES-256-GCM keystream of a port under a key epoch and a packet counter. FREE VALUE, log entry 132. -/
opaque Config.keystream (port epoch ctr i : Nat) : Byte
/-- Byte i of the AES-256-GCM tag over authenticated data and ciphertext. FREE VALUE, log entry 132. -/
opaque Config.gcmTag (port epoch ctr auth : Nat) (cipher : List Byte) (i : Nat) : Byte
/-- Byte i of the data slots of a message of kind 11, for which the spec gives no layout. FREE VALUE, log entry 132. -/
opaque Config.messageByte (m : Vc0) (i : Nat) : Byte

/-! ## Packet slots (R321, R322) -/

/-- Fields of the given widths side by side, the first in the lowest bits. -/
def packFields : List (Nat × Nat) → Nat
  | [] => 0
  | (w, v) :: l => v % 2 ^ w + 2 ^ w * packFields l

/-- Bits that fields take. -/
def fieldBits (l : List (Nat × Nat)) : Nat := (l.map (·.1)).sum

/-- Data slots of a packet, each 64 bytes: its data, zero-padded, or its message. -/
def dataSlots (p : Packet) : List Byte :=
  match p.msg with
  | some m => (List.range 1024).map (Config.messageByte m)
  | none => p.data ++ zeros ((64 - p.data.length % 64) % 64)

/-- Authenticated header fields, in the order of the table Packet header slot. -/
def authFields (p : Packet) : List (Nat × Nat) :=
  [(6, p.dst), (6, p.src), (2, p.vc), (1, p.cls), (2, p.slot), (5, p.kind),
    (9, match p.group with | some g => 256 + g % 256 | none => 0), (7, p.slots - 2), (64, p.ctr)]

/-- Encrypted header fields, in the order of the table Packet header slot. -/
def hiddenFields (p : Packet) : List (Nat × Nat) :=
  [(8, p.plan), (6, p.leaf), (7, p.node), (52, p.addr), (40, p.offset), (17, p.tally), (8, p.inc), (8, p.status)]

/-- The 12-byte nonce: the key epoch, then the packet counter (R321). -/
def packetNonce (epoch ctr : Nat) : List Byte := beBytes 4 epoch ++ beBytes 8 ctr

/-- The slots of a packet on a port: header, data, tag. On a keyed link the encrypted fields and the data go out under the
link key; a packet marked for discard has a zero tag slot, and one without keys a zero tag (R321, R322, R449). -/
def packetSlots (port epoch : Nat) (keyed : Bool) (p : Packet) : List Byte :=
  let auth := packFields (authFields p)
  let clear := leBytes 19 (packFields (hiddenFields p)) ++ dataSlots p
  let cipher := if keyed then clear.zipIdx.map fun x => x.1 ^^^ Config.keystream port epoch p.ctr x.2 else clear
  let header := leBytes 64 (auth + 2 ^ fieldBits (authFields p) * (leNat (cipher.take 19) % 2 ^ fieldBits (hiddenFields p)))
  let tag := if bit p.status 7 || !keyed then zeros 16 else (List.range 16).map (Config.gcmTag port epoch p.ctr auth cipher)
  header ++ cipher.drop 19 ++ tag ++ zeros 48

/-! ## The link control slot (R318) -/

/-- An acknowledged or expected seq with its valid bit. -/
def seqField : Option Nat → Nat
  | some q => q % 1024 + 2 ^ 15
  | none => 0

/-- The 64 bytes of a link control slot (table Link control slot); its tag is zero until the link is keyed. -/
def controlSlot (port epoch : Nat) (c : CtlSlot) : List Byte :=
  let credits := (c.credits.take 8).flatMap fun e => leBytes 2 (e.1 % 16 * 2 ^ 12 + e.2 % 2 ^ 12)
  let body := leBytes 2 (seqField c.ack) ++ leBytes 2 (seqField c.replay) ++ credits ++ zeros (16 - credits.length) ++
    leBytes 1 (CtlSlot.flags c) ++ leBytes 1 (c.rank % 64) ++ leBytes 1 (c.port % 8) ++ zeros 1 ++ leBytes 8 c.watch ++ zeros 16
  body ++ if c.tagOk then (List.range 16).map (Config.gcmTag port epoch 0 0 body) else zeros 16

/-! ## Frames (R314) -/

/-- The 20-bit frame control (table Frame control). -/
def frameControl (kind seq count : Nat) : Nat := kind % 4 * 2 ^ 18 + seq % 1024 * 2 ^ 8 + count % 16 * 2 ^ 4

/-- Kind, slots in use and their bytes, of what a frame carries: ten slots of a packet, or a control slot in slot 0. -/
def frameBody (port epoch : Nat) (keyed : Bool) : TxFrame → Nat × Nat × List Byte
  | .packet p i => (1, min 10 (p.slots - 10 * i), ((packetSlots port epoch keyed p).drop (640 * i)).take 640)
  | .control c => (2, 1, controlSlot port epoch c)

/-- The 514 message symbols of a frame: 20 bits of control, then ten slots, ten bits a symbol. -/
def frameMessage (control : Nat) (slots : List Byte) : List Nat :=
  let n := control % 2 ^ 20 + 2 ^ 20 * (leNat slots % 2 ^ 5120)
  (List.range 514).map fun s => n / 2 ^ (10 * s) % 2 ^ 10

/-- The RS(544,514) codeword: the message symbols and 30 parity symbols. -/
def codeword (message : List Nat) : List Nat := message ++ (List.range 30).map fun i => Config.parity message i % 2 ^ 10

/-- The lane that symbol s goes on: s mod 8, or s mod 4 of the active group of a degraded port. -/
def laneOf (lanes s : Nat) : Nat := if lanes = 0xFF then s % 8 else (if lanes = 0xF0 then 4 else 0) + s % 4

/-- The symbols of a frame of the replay buffer on port k, each with its lane. -/
def Device.frameOn (d : Device) (k : Nat) (f : Nat × TxFrame) : List (Nat × Nat) :=
  let l := d.link k
  let b := frameBody k l.epoch l.keyed f.2
  (codeword (frameMessage (frameControl b.1 f.1 b.2.1) b.2.2)).zipIdx.map fun x => (laneOf l.lanes x.2, x.1)

/-- The symbols of an idle frame, which has no seq (R314, R316). -/
def Device.idleOn (d : Device) (k : Nat) : List (Nat × Nat) :=
  (codeword (frameMessage (frameControl 0 0 0) [])).zipIdx.map fun x => (laneOf (d.link k).lanes x.2, x.1)

end Sys2Proof.Machine
end

