-- ==== Sys2Proof/WellFormed.lean ====
section
/-!
DEFINITION. Ranges of the operands of commands: what the spec numbers, and no more. A command outside them names
nothing the device has; its meaning leaves the device as it is or takes the number as the hardware's field would.
-/
namespace Sys2Proof

/-- Physical sites S00 to S41 (R93). -/
def okSite (n : Nat) : Bool := n < 42
/-- Folds 0 to 7 (R15). -/
def okFold (f : Nat) : Bool := f < 8
/-- Drive slots 0 to 3 (R82). -/
def okSlot (s : Nat) : Bool := s < 4
/-- Functions: PF0 and a VF per fold (R396). -/
def okFn (fn : Nat) : Bool := fn < 9
/-- Link ports HL0 to HL5 (R312). -/
def okPort (k : Nat) : Bool := k < 6
/-- Ranks of a flock (R324). -/
def okRank (r : Nat) : Bool := r < 64
/-- Submission rings, and completion rings of their own count (13, Rings). -/
def okRing (n : Nat) : Bool := n < 512
/-- Hefts (R259). -/
def okHeft (h : Nat) : Bool := h < 49
/-- Memory quarters (R290). -/
def okQuarter (q : Nat) : Bool := q < 4
/-- Channels of all quarters (R290). -/
def okChannel (c : Nat) : Bool := c < 32
/-- Shared arbiters, or the arbiter of a bank port of a site, from #100 on (R249). -/
def okArbiter (a : Nat) : Bool := a < 18 || (0x100 ≤ a && a < 0x100 + 42 * 0x80)
/-- Comparators of the watch (R285). -/
def okCmp (c : Nat) : Bool := c < 16
/-- Slots of an engine: four of a queue at most (R169). -/
def okUnit (k : Nat) : Bool := k < 8
/-- 32-bit values. -/
def okWord (v : Nat) : Bool := v < 2 ^ 32
/-- Widths of a BAR0 access: 1, 2, 4, or a multiple of 8 bytes. -/
def okWidth (w : Nat) : Bool := w = 1 || w = 2 || w = 4 || (0 < w && w % 8 = 0)

/-- Errors are given for 8-byte words of the local address space (R137, R297). -/
def okErrs (es : List (Nat × Ecc)) : Bool := es.all fun e => e.1 < 2 ^ 46 && e.1 % 8 = 0

/-- A bulk flit carries eight words with their masks (08, Flit headers). -/
def BulkFlit.ok (f : BulkFlit) : Bool :=
  f.src < 2 ^ 7 && f.req < 16 && okSite f.site && okFold f.fold && f.off < 0x4000000 && f.off % 64 = 0 &&
  f.words.length = 8 && f.mask.length = 8 && f.poison.length = 8 && f.origin.length = 8 && f.tally < 2 ^ 17 && f.inc < 2 ^ 8

/-- A read order is of one site and one fold, for at most 1 MiB of whole words (R131, R244). -/
def ReadOrder.ok (o : ReadOrder) : Bool :=
  okSite o.site && okFold o.fold && o.src < 2 ^ 46 && o.dst < 2 ^ 46 && o.src % 8 = 0 && o.dst % 8 = 0 &&
  0 < o.len && o.len ≤ 0x100000 && o.len % 8 = 0 &&
  o.tally < 2 ^ 17 && okWord o.inc

/-- A feed flit's bytes lie in one aligned 256-byte block (R246, R247). -/
def FeedFlit.ok (f : FeedFlit) : Bool :=
  okSite f.site && okQuarter f.quarter && f.stream < 16 && 0 < f.len && f.addr % 256 + f.len ≤ 256

/-- A packet's ranks, channel, kind and leaf fit their fields (table Packet header slot). -/
def Packet.ok (p : Packet) : Bool :=
  okRank p.dst && okRank p.src && p.vc < 4 && p.cls < 2 && p.slot < 4 && p.kind < 32 && p.leaf < 64 && p.data.length ≤ 4096

/-- An access to a rank's window stays in the 2^25 bytes of BAR0; a packet comes on a port (R347). -/
def Tunnel.ok : Tunnel → Bool
  | .host rank off width _ => okRank rank && off < 2 ^ 25 && okWidth width
  | .packet k p => okPort k && p.ok

/-- A message comes from the device itself or on a port. -/
def Via.ok : Via → Bool
  | .own => true
  | .port k _ => okPort k

/-- Reports are of ranks, with 64-byte hashes and registers (table Attestation report). -/
def MemberInfo.ok (m : MemberInfo) : Bool :=
  okRank m.rank && m.report.ownerHash.length = 64 && m.report.register1.length = 64

/-- A structure with spare rows exists (table Spare rows). -/
def RowStore.exists' : RowStore → Bool
  | .acc n b => okSite n && b < 8
  | .tally n => okSite n
  | _ => true

/-- An image's header is 512 bytes. -/
def Image.ok (i : Image) : Bool := i.header.length = 512

/-- A link control slot's fields fit (table Link control slot). -/
def CtlSlot.ok (c : CtlSlot) : Bool := okRank c.rank && okPort c.port && c.credits.all (·.1 < 13)

/-- Whether every operand of a command lies in its range. -/
def Instr.wf : Instr → Bool
  | .nop n | .endStream n | .jump n | .call n | .ret n | .penRetire n | .spareSubstitution n
  | .idleRampDown n | .rampEnd n | .paddockClear n => okSite n
  | .mbsel n _ | .stepCmd n _ | .tallyAdd n _ | .tallySet n _ | .tallyWait n _ | .muster n _ | .watchWait n _
  | .racePush n _ | .racePop n _ | .handleSet n _ | .clear n _ | .release n _ | .product n _ | .vop n _ _ | .land n _ | .shear n _ | .collect n _ | .watchWaitRetry n _ => okSite n
  | .move n _ es | .feed n _ es | .lot n _ es | .streamFetch n es => okSite n && okErrs es
  | .commandCompletion n _ _ k => okSite n && okUnit k
  | .tileStep n _ | .penStopRequest n _ | .preemption n _ | .droveTileArrival n _ _ | .droveResend n _ => okSite n
  | .bulkWriteFlit f => f.ok
  | .remoteReadOrder o es => o.ok && okErrs es
  | .feedFlit f => f.ok
  | .controlTallyAdd f id inc => okFold f && id < 2 ^ 17 && okWord inc
  | .controlTallySet f id v => okFold f && id < 2 ^ 17 && okWord v
  | .musterArrive f s g p _ => okFold f && okSlot s && g < 64 && p < 40
  | .musterRelease f s g n p _ => okFold f && okSlot s && g < 64 && okSite n && p < 40
  | .setupAddress _ _ off => off < 2 ^ 25
  | .setupData _ _ v => okWord v
  | .rampRequest n _ | .rampGrant n _ _ => okSite n
  | .eventFragment n v _ => okSite n && okWord v
  | .arbiterDraw a req => okArbiter a && req.all (fun r => r.1 < 13)
  | .cut a beats _ => a < 18 && beats < 1024
  | .memoryRead a _ _ => a < 2 ^ 39
  | .memoryWrite f _ _ => okFold f
  | .memPatrol ch _ | .channelPowerDown ch => okChannel ch
  | .refresh q _ | .rfm q _ | .selfRefreshEntry q | .selfRefreshExit q => okQuarter q
  | .wck2dqCheck q ch _ => okQuarter q && okChannel ch
  | .paddockScrub n bank _ _ => okSite n && bank < 64
  | .rowSpare st _ _ | .rowRemapDone st _ => st.exists'
  | .memoryShearsUpdate u => okQuarter u
  | .linkShearsBlockUpdate k _ _ => okPort k
  | .dma sq _ es => okRing sq && okErrs es
  | .tallyAddDescriptor sq _ | .wait sq _ | .waitTimeout sq _ | .launch sq _ _ _ | .stepDescriptor sq _
  | .stepPrepare sq _ _ | .run sq _ | .endDescriptor sq _ | .plan sq _ | .groupOpen sq _ | .groupClose sq _
  | .descriptorFetch sq => okRing sq
  | .stepOpen f s => okFold f && okSlot s
  | .stepClose f s err => okFold f && okSlot s && err.all (fun e => e.1 < 2048)
  | .hostReadCompletion tag _ => tag < 4096
  | .sqDoorbell fn n w v | .cqDoorbell fn n w v => okFn fn && okRing n && okWidth w && (w ≠ 4 || okWord v)
  | .ringEnable fn n v | .ringDisable fn n v => okFn fn && n < 1024 && okWord v
  | .foldcfgCount fn v | .recovSignArm fn v | .recovSnapatArm fn v | .secCtrlZeroise fn v | .resetCtrlModule fn v
  | .traceEnable fn v => okFn fn && okWord v
  | .foldHandover fn f => okFn fn && okFold f
  | .foldReady f | .coteDrain f _ | .journalAppend f | .fosterSend f => okFold f
  | .siteCtrlRetire fn n | .siteCtrlClearCounts fn n => okFn fn && okSite n
  | .watchReload fn | .watchLoRead fn | .exportDone fn | .functionLevelReset fn
  | .getCert fn | .attest fn | .extend fn | .getNonce fn | .ownerEnrol fn | .setApproved fn | .decommission fn
  | .recoveryWrite fn | .zeroise fn => okFn fn
  | .recovHandover fn r => okFn fn && okRank r
  | .recovReadmit fn r i => okFn fn && okRank r && i.ok
  | .flockForm fn is => okFn fn && is.all MemberInfo.ok
  | .flockDissolve fn rs => okFn fn && rs.all okRank
  | .linkCtrlRetrain fn k v => okFn fn && okPort k && okWord v
  | .apertureRead fn off w es => okFn fn && off < 2 ^ 20 && okWidth w && okErrs es
  | .apertureWrite fn off w _ => okFn fn && off < 2 ^ 20 && okWidth w
  | .registerWrite fn off w _ => okFn fn && off < 2 ^ 25 && okWidth w
  | .fwUpdate fn i | .recoveryLoad fn i => okFn fn && i.all Image.ok
  | .challenge nonce => nonce.length = 32
  | .ideKm _ fn _ => okFn fn
  | .operation v => v.all (· < 256)
  | .readVin r | .readIin r | .readTemperature1 r | .readTemperature2 r | .readPin r => r < 2 ^ 16
  | .smbAlertClear v => v < 2 ^ 16
  | .frameReceive k f => okPort k && f.seq < 1024
  | .replayRequest k seq => okPort k && seq < 1024
  | .linkControlSlot k c => okPort k && c.ok
  | .linkControlSend k | .linkSilent k | .linkRetrain k | .linkFailed k | .linkKeyAgreement k _ => okPort k
  | .linkTraining k t => okPort k && t.lanes < 256
  | .packetForward k p | .reduceData k p | .gatherData k p | .multicastData k p _ | .foster k p | .fosterEnd k p
  | .repair k p | .tunnelCompletion k p | .interrupt k p | .hostDmaRead k p | .hostDmaWrite k p
  | .recoveryLoadPacket k p => okPort k && p.ok
  | .tunnelRead a | .tunnelWrite a => a.ok
  | .tunnelTimeout tag => tag < 2 ^ 17
  | .repairRequest g | .laggardFail g => g < 256
  | .heartbeat v r | .done v r _ _ | .deviceFailure v r _ => v.ok && okRank r
  | .flockManagement v _ | .commit v _ _ _ | .abort v _ => v.ok
  | .memberLost r | .recoveryAssignment r _ _ => okRank r
  | .routeUpdate r p => okRank r && okPort p
  | .comparatorFire c => okCmp c
  | .watchFrame v check _ => v < 2 ^ 64 && check < 256
  | .heftSlew h | .heftSlewEnd h | .periodStretch h | .heftClockStop h | .heftWake h
  | .crossingHandshake h | .thermalStepDown h _ | .thermalStepUp h _ | .thermtrip h _ => okHeft h
  | .queueRealign h g => okHeft h && okHeft g
  | .unitReset (.site n) => okSite n
  | .unitReset (.quarter q) => okQuarter q
  | .unitReset (.link k) => okPort k
  | .vcoreChange half _ => half < 2
  | .siteSramTest n _ => okSite n
  | .memoryTraining a b => a.all okChannel && b.all okChannel
  | .moduleReset r => okRank r
  | .collectiveStart es => okErrs es
  | .getVersion | .getCapabilities | .negotiateAlgorithms | .getDigests | .getCertificate _ _
  | .getMeasurements _ | .keyExchange _ | .finish _ _ _ | .endSession _ | .clearFaults | .statusWord | .smbusIdrev
  | .smbusSecStatus | .smbusStage | .smbusThermStatus | .smbusPwrStatus | .smbusResetCause | .smbAlertRead
  | .alertResponseAddress | .bypass | .idcode | .samplePreload _ | .extest | .extestPulse | .extestTrain
  | .tapDieStateInstruction | .recoveryReady | .seal | .watchLoss | .watchSkew | .refLoss | .refRestored | .refFail
  | .powerMeasurement _ _ _ | .governorStepDown | .governorStepUp | .excursionGuard | .governorPause | .leaveGuard
  | .powerOnReset | .boot | .powerUp | .pgAsserted | .powerDown _ | .inputVoltageFault _ | .selfTests _
  | .enterFullService | .watchdog | .hostPortReset | .tamperNFall | .tamperResponse | .drbgReseed | .vauxLoss
  | .perstNRise | .formationTimeout | .tamperNRise => true

end Sys2Proof
end

