-- ==== Sys2Proof/Safety.lean ====
section
/-!
DEFINITION. What counts as a safe run: waiting commands are well formed, and no step of the run faults or refuses; and
what a run can never undo.
-/
namespace Sys2Proof.Machine

/-- Every waiting command is well formed. -/
def State.wf (s : State) : Bool := s.pending.all Instr.wf

/-- k steps from s answer next states throughout. -/
def safeFor : Nat → State → Prop
  | 0, _ => True
  | k + 1, s => ∃ t, step s = .next t ∧ safeFor k t

/-- b is a with further fuses blown, and none restored: an owner once enrolled stays, and so does decommissioning (R432). -/
def Fuses.burnt (a b : Fuses) : Prop :=
  b.fwRevoked = a.fwRevoked ∧ a.floor ≤ b.floor ∧
  (a.owner = true → b.owner = true ∧ b.ownerHash = a.ownerHash) ∧ (a.decommissioned = true → b.decommissioned = true) ∧
  (a.coteGen ≤ 32 → a.coteGen ≤ b.coteGen ∧ b.coteGen ≤ 32) ∧ (a.tamperCount ≤ 32 → a.tamperCount ≤ b.tamperCount ∧ b.tamperCount ≤ 32)

/-- 42 sites, 8 folds, 49 hefts, 6 link ports, 9 functions; a fold count of 1, 2, 4 or 8 (R20). -/
def Device.sized (d : Device) : Prop :=
  d.sites.length = 42 ∧ d.folds.length = 8 ∧ d.hefts.length = 49 ∧ d.links.length = 6 ∧ d.fns.length = 9 ∧
  (d.foldCount = 1 ∨ d.foldCount = 2 ∨ d.foldCount = 4 ∨ d.foldCount = 8)

/-- e is a device that d can become: the same module, no fuse restored, and no site, fold, heft, link port or function
gained or lost, and the fold count legal. -/
def Device.evolves (d e : Device) : Prop :=
  e.idrev = d.idrev ∧ e.serial = d.serial ∧ d.sec.fuses.burnt e.sec.fuses ∧ (d.sized → e.sized)

end Sys2Proof.Machine
end

