-- ==== Sys2Proof/Certificates/Slice0/Obligations.lean ====
section
/-!
DEFINITION. What is claimed of the model: statements from the numbered rules of the spec, family by family. A clause
`exec (.c args) s = .next { s with dev := d }` says what the command does, that the queue of waiting commands is as it
was, and that whatever d does not change is as it was.
-/

open Sys2Proof Sys2Proof.Machine

namespace Sys2Proof.Machine

/-- The descriptor x of an SQ entry has an opcode, may start by R408, meets none of the refusals that come before every
other check (R423, R424) and passes the checks of R411. -/
def Device.takesUp (d : Device) (sq idx op : Nat) (x : Desc) : Prop :=
  d.desc sq idx = some x ∧ x.op = op ∧ d.startable x = true ∧ d.foremost x = 0 ∧ d.badField x = none

/-- The device e is d when control flit c has reached its destination, before its effect: the flit has left the ring, in the
order of its lane (R257), or was not on it and has been captured as it was injected (R536; log entry 23); the heft h of the
pen behind the crossing queue is awake (R272). -/
def Device.tookCtl (d : Device) (c : CtlFlit) (h : Option Nat) (e : Device) : Prop :=
  let woken (x : Device) : Device := match h with | some n => x.wake n | none => x
  (∃ x l, arriveGo (fun y => decide (y = c)) [] d.fabric.ctl = some (x, l) ∧
    e = woken { d with fabric := { d.fabric with ctl := refill (d.room ctlRoom) x l } }) ∨
  (d.fabric.ctl.any (·.flit = c) = false ∧ e = woken (d.capture c))

/-- The device d is e when a flit of the bulk rings has reached its destination: taken off its lane in the order of R257, as part
of a transfer where `part` names one, or injected with its arrival (log entry 23). -/
def Device.tookBulk (d : Device) (c : RingFlit) (part : Nat) (e : Device) : Prop :=
  (∃ x l, arriveGo (fun y => decide (y = c)) [] d.fabric.bulk = some (x, l) ∧ part = x.part ∧
    e = { d with fabric := { d.fabric with bulk := refill (d.room bulkRoom) x l } }) ∨
  (d.fabric.bulk.any (·.flit = c) = false ∧ part = 0 ∧ e = d)

/-- The device e is d when the last completion of its read q under a tag has arrived: the tag is free again (R402). -/
def Device.returned (d : Device) (tag src : Nat) (q : HostReq) (e : Device) : Prop :=
  slook d.hport.tags tag = some (src, some q) ∧
    e = { d with hport := { d.hport with tags := d.hport.tags.filter fun x => x.1 ≠ tag } }

/-- The device e is d when a message on VC0 has come: its own, or out of a packet of kind 11 on a port that takes frames and
whose tag, where the link has keys, is right; the packet's slots are owed (R318, R320, R323, R449). -/
def Device.hears (d : Device) (v : Via) (e : Device) : Prop :=
  (v = .own ∧ e = d) ∨
  (∃ k ok, v = .port k ok ∧ (d.link k).takes = true ∧ ((d.link k).keyed = true → ok = true) ∧
    e = d.onLink k fun l => { l with owed := l.owed.modify 0 (· + 18) })

/-- The device e is d when a packet for it has come in on port k with its tag right and not marked for discard; its slots are
owed (R318, R322, R323). -/
def Device.takesIn (d : Device) (k : Nat) (p : Packet) (e : Device) : Prop :=
  (d.link k).receives = true ∧ p.dst = d.flock.rank ∧ bit p.status 7 = false ∧ p.tagOk = true ∧ e = d.owe k p

end Sys2Proof.Machine

/-! ## The queue of commands -/

/-- A step takes the command at the front of the queue and is exec of it on the state with the queue's rest.

On an empty queue a step is one tick of 10 ns (DESIGN CHOICE, log entry 4): with no drive resident, whose batch DMAs it could
start, the watch block ticks and its age and the time since a valid frame grow by one, a TAMPER_N that is low has been low
for one tick more, ramps pass from level to level, flits that wait for a ring have waited on, and nothing else changes. -/
def Obligations.StepRunsTheFrontCommand : Prop :=
  (∀ (c : Instr) (rest : List Instr) (d : Device), step ⟨d, c :: rest⟩ = exec c ⟨d, rest⟩) ∧
  (∀ d : Device, (∀ f, f < 8 → (d.fold f).drives = []) → step ⟨d, []⟩ = .next ⟨{ d with
     watch := { d.watch.tick (decide (d.ref.state = 0 ∨ d.ref.state = 2)) with
       age := d.watch.age + 1, fresh := d.watch.fresh.map (· + 1) }
     sec := { d.sec with tamperLow := d.sec.tamperLow.map (· + 1) }
     sites := d.sites.map Site.rampStep
     fabric := { d.fabric with
       ctl := waitTick (fun p => (d.heft (siteAt (p, 0))).rate) d.fabric.ctl
       bulk := waitTick (fun p => (d.heft (siteAt (p, 0))).rate) d.fabric.bulk
       feed := waitTick (fun _ => (d.heft 47).rate) d.fabric.feed } }, []⟩)

/-- Every command answers a next state, takes nothing from the rest of the queue and adds nothing to it.

Every list of commands is carried out in order by as many steps: after them the queue is empty and the device
is what the commands leave one after the other. -/
def Obligations.QueuesAreCarriedOutInOrder : Prop :=
  (∀ s : State, ∃ t : State, step s = .next t ∧ t.pending = s.pending.tail) ∧
  (∀ (cs : List Instr) (d : Device), ∃ ds : List Device, ds.length = cs.length ∧
     ∀ i, i < cs.length → step ⟨(d :: ds).getD i d, cs.drop i⟩ = .next ⟨ds.getD i d, cs.drop (i + 1)⟩)

/-! ## What holds at every step, and where writes go -/

/-- Whatever command is carried out, the device keeps its parts (42 sites, 8 folds, 49 hefts, 6 link ports, 9 functions),
a fold count of 1, 2, 4 or 8, and fuse counters within their 32 fuses (R20, R432, R462, R463). -/
def Obligations.EveryStepKeepsThePartsAndBounds : Prop :=
  ∀ s t : State, step s = .next t → s.dev.sized → s.dev.sec.fuses.coteGen ≤ 32 → s.dev.sec.fuses.tamperCount ≤ 32 →
    t.dev.sized ∧ t.dev.sec.fuses.coteGen ≤ 32 ∧ t.dev.sec.fuses.tamperCount ≤ 32

/-- No step changes IDREV or the serial number, restores a fuse, unseats an enrolled owner, lowers the floor or brings a
decommissioned device back (R432, R464, R466, R467). -/
def Obligations.NoStepUndoesIdentityOrFuses : Prop :=
  ∀ s t : State, step s = .next t →
    t.dev.idrev = s.dev.idrev ∧ t.dev.serial = s.dev.serial ∧
    t.dev.sec.fuses.fwRevoked = s.dev.sec.fuses.fwRevoked ∧ s.dev.sec.fuses.floor ≤ t.dev.sec.fuses.floor ∧
    (s.dev.sec.fuses.owner = true → t.dev.sec.fuses.owner = true ∧ t.dev.sec.fuses.ownerHash = s.dev.sec.fuses.ownerHash) ∧
    (s.dev.sec.fuses.decommissioned = true → t.dev.sec.fuses.decommissioned = true) ∧
    (s.dev.sec.fuses.coteGen ≤ 32 → s.dev.sec.fuses.coteGen ≤ t.dev.sec.fuses.coteGen) ∧
    (s.dev.sec.fuses.tamperCount ≤ 32 → s.dev.sec.fuses.tamperCount ≤ t.dev.sec.fuses.tamperCount)

/-- State.reset (R477): no command waits; stage S1 with a fold count of 1; the writable registers at the reset values of their
field tables (PWR_LIMIT, PAD_SCRUB, SPARE_CTRL, ARB_HOLD, MEM_SCRUB); no drive, no ring enabled, no flock; what every
step keeps holds.

Where the spec leaves a point open, the clauses rest on the model's choice or reading in log entries 2 and 115. -/
def Obligations.ResetIsWhole : Prop :=
  State.reset.pending = [] ∧ State.reset.dev.bring.stage = 1 ∧ State.reset.dev.foldCount = 1 ∧
  State.reset.dev.power.limit = 0x640 ∧ State.reset.dev.padScrub = 0x80003200 ∧ State.reset.dev.hardLimit = 2 ∧
  State.reset.dev.fabric.hold = 0x40 ∧ State.reset.dev.mem.scrub = 0x80010000 ∧
  State.reset.dev.anyDrive = false ∧ (∀ n, (State.reset.dev.ring n).state = 0) ∧ State.reset.dev.flock.state = 0 ∧
  State.reset.dev.sized ∧ State.reset.dev.sec.fuses.coteGen ≤ 32 ∧ State.reset.dev.sec.fuses.tamperCount ≤ 32

/-- A write inside one paddock that is not being cleared: the bytes written are read back, the words it touches are no
longer poisoned and the others are as they were, and every other byte of the device's memories is as it was (R137,
R143, R147). While the paddock is being cleared the write is discarded (R158).

A write within one line of LPDDR5X under a key: its bytes are read back under that key, the line's other bytes read
under it as they did, no other key reads the line any more, a line written under a destroyed key no key at all, and every other line reads under every key as it did
(R298 to R300). -/
def Obligations.WritesReachTheirBytesOnly : Prop :=
  (∀ (d : Device) (f x n off : Nat) (bs : List Byte), d.place f x = some (.pad n off) → off + bs.length ≤ padSize →
     let e := d.writeLocal f x bs []
     ((d.site n).clearing = false →
       (∀ a, (e.site n).pad.read a =
         if off ≤ a ∧ a < off + bs.length then bs.getD (a - off) 0#8 else (d.site n).pad.read a) ∧
       e.readLocal f x bs.length = bs ∧
       (∀ w, w ∈ (e.site n).poison ↔ w ∈ (d.site n).poison ∧ w ∉ wordsOf off bs.length)) ∧
     ((d.site n).clearing = true → e = d) ∧
     (∀ m, m ≠ n → e.site m = d.site m) ∧ e.mem = d.mem ∧ e.host = d.host) ∧
  (∀ (m : Mem) (k l : Key) (a b : Nat) (bs : List Byte), bs ≠ [] → a % 64 + bs.length ≤ 64 →
     (m.writeLine k a bs).byte l b =
       if b / 64 = a / 64 then
         if l.opens k then (if a ≤ b ∧ b < a + bs.length then bs.getD (b - a) 0#8 else m.byte k b) else noiseByte l b
       else m.byte l b)

/-- A VF's aperture write reaches its own fold alone: sites outside the fold, the folds' records, global tallies and
LPDDR5X outside the fold's share, under every key, are as they were, and no other function's registers change
(R138, R297, R525, R533, R534). -/
def Obligations.VfApertureWritesStayInTheirFold : Prop :=
  ∀ (s : State) (f off width value : Nat), s.dev.sized → ∃ t, exec (.apertureWrite (f + 1) off width value) s = .next t ∧
    t.pending = s.pending ∧
    (∀ n, (s.dev.site n).fold ≠ f → t.dev.site n = s.dev.site n) ∧
    (∀ k a, (a < f * s.dev.share ∨ f * s.dev.share + s.dev.share ≤ a) → t.dev.mem.byte k a = s.dev.mem.byte k a) ∧
    t.dev.folds = s.dev.folds ∧ t.dev.gtally = s.dev.gtally ∧ (∀ g, g ≠ f + 1 → t.dev.fn g = s.dev.fn g)

/-- Device data addresses within the largest capacity of a row width have each a place of their own: no two share channel, rank,
row, bank and column (R290, R293, R296); the check field of a line lies in its chunk's check line, where no data lies; a check
line holds a field of four bytes for each of 15 lines, whose halves read as poisoned exactly where they are, and zeros in its last
four bytes.

Where the spec leaves a point open, the clauses rest on the model's choice or reading in log entry 16. -/
def Obligations.DataAddressesHaveTheirOwnPlaces : Prop :=
  (∀ (l512 : Bool) (a b : Nat), a < (if l512 then 15 * 2 ^ 35 else 15 * 2 ^ 34) → b < (if l512 then 15 * 2 ^ 35 else 15 * 2 ^ 34) →
    let place (x : Nat) := (channelOf x, rankOf l512 (channelAddr x), rowOf l512 (channelAddr x), bankOf (channelAddr x),
      columnOf (channelAddr x))
    place a = place b → a = b) ∧
  (∀ a : Nat, channelOf a < 32 ∧ channelOf a / 8 = quarterOf a ∧ packageOf (channelOf a) < 8 ∧
    checkAddr a / 1024 = channelAddr a / 1024 ∧ channelAddr a % 1024 < 960 ∧ 960 ≤ checkAddr a % 1024 ∧ checkAddr a % 1024 < 1020) ∧
  (∀ (m : Mem) (c : Nat), (m.checkLine c).length = 64 ∧ (m.checkLine c).drop 60 = [0#8, 0#8, 0#8, 0#8] ∧
    ∀ j, j < 15 → ((m.checkLine c).drop (4 * j)).take 4 = leBytes 4 (m.checkField (15 * c + j))) ∧
  (∀ (m : Mem) (l : Nat), bits (m.checkField l) 11 10 = (if m.poison.contains (2 * l) then 3 else 0) ∧
    bits (m.checkField l) 27 26 = (if m.poison.contains (2 * l + 1) then 3 else 0) ∧
    bits (m.checkField l) 15 12 = 0 ∧ m.checkField l < 2 ^ 28)

/-- Gate flits and bulk flits (R241, R246, R248): the gate flits of an access lie each within one aligned block of 256 bytes, and
what a stile makes of one each within one aligned line of 64 bytes; together they cover the access once and in order. The hops
between two stations are at most 20, the same both ways.

Where the spec leaves a point open, the clauses rest on the model's choice or reading in log entry 125. -/
def Obligations.AccessesSplitIntoFlits : Prop :=
  (∀ a n : Nat, 0 < n →
    let fs := gateBlocks a n
    (fs.map (·.2)).sum = n ∧ (∀ i, i < fs.length → (fs.getD i (0, 0)).1 = a + ((fs.take i).map (·.2)).sum) ∧
    ∀ x, x ∈ fs → 0 < x.2 ∧ x.1 % 256 + x.2 ≤ 256) ∧
  (∀ b : Nat × Nat, 0 < b.2 → b.1 % 256 + b.2 ≤ 256 →
    let fs := stileSplit b
    (fs.map (·.2)).sum = b.2 ∧ fs.length ≤ 4 ∧ (∀ i, i < fs.length → (fs.getD i (0, 0)).1 = b.1 + ((fs.take i).map (·.2)).sum) ∧
    ∀ x, x ∈ fs → 0 < x.2 ∧ x.1 % 64 + x.2 ≤ 64) ∧
  (∀ a b : Nat, a < 40 → b < 40 → hops a b ≤ 20 ∧ hops a b = hops b a ∧ (hops a b = 0 ↔ a = b))

/-- An increment that arrives for a tally whose word is good is added to it once, modulo 2^32, and a value that arrives is
stored; every other tally, pen's or global, is as it was, and so are every paddock, LPDDR5X and host memory (R197, R199, R245);
e is the device once the flit has left the ring. -/
def Obligations.TalliesTakeTheirIncrementsOnce : Prop :=
  ∀ (s : State) (f id v : Nat) (p : TallyAt) (e : Device), s.dev.tallyAt f id = some p →
    let behind := match p with | .pen n _ => some n | .global _ => none
    let rest (t : Device) : Prop := (∀ q, q ≠ p → t.tallyGet q = s.dev.tallyGet q) ∧
      (∀ n, (t.site n).pad = (s.dev.site n).pad) ∧ t.mem = s.dev.mem ∧ t.host = s.dev.host
    (s.dev.tookCtl (.tallyAdd f id v) behind e → s.dev.tallyBad p = false →
      ∃ t, exec (.controlTallyAdd f id v) s = .next t ∧ t.pending = s.pending ∧
        t.dev.tallyGet p = s.dev.tallyGet p + BitVec.ofNat 32 v ∧ rest t.dev) ∧
    (s.dev.tookCtl (.tallyAdd f id v) behind e → s.dev.tallyBad p = true →
      exec (.controlTallyAdd f id v) s = .next ⟨e.tallyStop p, s.pending⟩) ∧
    (s.dev.tookCtl (.tallySet f id v) behind e →
      ∃ t, exec (.controlTallySet f id v) s = .next t ∧ t.pending = s.pending ∧
        t.dev.tallyGet p = BitVec.ofNat 32 v ∧ rest t.dev)

/-! ## Pen command streams (06) -/

/-- The flow commands of a running pen's fetch unit: NOP passes its words (R162), JUMP goes on at a target inside a
region of the drive's streams (R159), CALL pushes the next address and does the same (R165), RETURN pops it (R165),
END stops fetching where no step waits on one queue alone (R162, R178); a tile left over for an ended stream then stops the
drive (R182), and the drive ends with its last stream (R166).

Where flow commands stop the drive (R159, R165): a JUMP or CALL to a target outside the drive's streams with
BAD_STREAM_ADDRESS, a CALL beyond eight levels or a RETURN without one with STREAM_DEPTH, at the command's own address. -/
def Obligations.FlowCommandsFollowTheStream : Prop :=
  (∀ (s : State) (n : Nat) (v : Drive) (w : Nat),
     (∀ k, s.dev.nextWord n = some (v, .nop k, w) → k ≤ (s.dev.site n).seqr.fetched.length →
       exec (.nop n) s = .next ⟨(s.dev.onSite n fun t => { t with seqr := { t.seqr with
         pc := t.seqr.pc + 16 * k, fetched := t.seqr.fetched.drop k } }).pump n, s.pending⟩) ∧
     (∀ x l, s.dev.nextWord n = some (v, .jump x, w) → s.dev.streamLimit n v x = some l →
       exec (.jump n) s = .next ⟨s.dev.onSite n fun t => { t with seqr := { t.seqr with
         pc := x, limit := l, fetched := [] } }, s.pending⟩) ∧
     (∀ x l, s.dev.nextWord n = some (v, .call x, w) → s.dev.streamLimit n v x = some l →
       (s.dev.site n).seqr.stack.length < 8 → n < s.dev.sites.length →
       exec (.call n) s = .next ⟨s.dev.onSite n fun t => { t with seqr := { t.seqr with
         pc := x, limit := l, fetched := [], stack := (t.seqr.pc + 16) :: t.seqr.stack } }, s.pending⟩) ∧
     (∀ x r l, s.dev.nextWord n = some (v, .ret, w) → (s.dev.site n).seqr.stack = x :: r →
       s.dev.streamLimit n v x = some l → n < s.dev.sites.length →
       exec (.ret n) s = .next ⟨s.dev.onSite n fun t => { t with seqr := { t.seqr with
         pc := x, limit := l, fetched := [], stack := r } }, s.pending⟩) ∧
     (s.dev.nextWord n = some (v, .stop, w) → (s.dev.site n).seqr.stepF = (s.dev.site n).seqr.stepB →
       exec (.endStream n) s = .next ⟨((s.dev.onSite n fun t => { t with seqr := { t.seqr with
         ended := true, fetched := [] } }).leftStop n).endCheck (s.dev.site n).fold, s.pending⟩)) ∧
  (∀ (s : State) (n : Nat) (v : Drive) (w : Nat),
     (∀ x, s.dev.nextWord n = some (v, .jump x, w) → s.dev.streamLimit n v x = none →
       exec (.jump n) s = .next ⟨s.dev.stopAt n 0x1D (s.dev.site n).seqr.pc, s.pending⟩) ∧
     (∀ x, s.dev.nextWord n = some (v, .call x, w) → 8 ≤ (s.dev.site n).seqr.stack.length →
       exec (.call n) s = .next ⟨s.dev.stopAt n 0x1C (s.dev.site n).seqr.pc, s.pending⟩) ∧
     (s.dev.nextWord n = some (v, .ret, w) → (s.dev.site n).seqr.stack = [] →
       exec (.ret n) s = .next ⟨s.dev.stopAt n 0x1C (s.dev.site n).seqr.pc, s.pending⟩))

/-- STREAM_FETCH: the next block of the stream of a running pen, not poisoned once it is read, arrives behind the words the fetch
unit holds, and the fetch unit and the pen's commands work on (R159, R160); where no drive runs on the pen no block comes.

Tally and microbatch commands of a queue's head that may issue, with a done tally the drive may name: MBSEL sets
the queue's slot (R177), TALLY_ADD adds its amount and TALLY_SET stores its value (R197, R199), TALLY_WAIT of a tally without
an uncorrectable error ends at once when it has reached the threshold (R156, R198); each enters its slot finished and leaves its queue (R171).

A tally operand outside the drive's extent, or another pen's in a wait, is BAD_TALLY, #07 (R197, R198).

The other sync commands of a queue's head that may issue, with a done tally the drive may name: STEP waits in its
slot (R178), a MUSTER in mode 1 of a pen that may arrive arrives and completes (R122, R201), WATCH_WAIT takes a
comparator for its value (R202), RACE_PUSH appends a good handle to a race with room and RACE_POP discards the head of
a race that holds one (R195), HANDLE_SET stores an entry of the drive's extent (R194).

Where the spec leaves a point open, the clauses rest on the model's choice or reading in log entries 24 and 122. -/
def Obligations.TallyAndSyncCommandsComplete : Prop :=
  (∀ (s : State) (n : Nat) (es : List (Nat × Ecc)),
     (s.dev.goes n = none → exec (.streamFetch n es) s = .next ⟨s.dev.settleAt n, s.pending⟩) ∧
     (∀ p, s.dev.goes n = some p →
       let q := (s.dev.site n).seqr
       let a := q.pc + 16 * q.fetched.length
       let len := min (256 - a % 256) (q.limit - a)
       q.ended = false → ¬(q.stepF = true ∧ q.stepB = true) → a < q.limit → a / 256 ≤ q.pc / 256 + 4 →
       let d := s.dev.transferRead (s.dev.site n).fold a len es
       d.poisonWords (s.dev.site n).fold a len = [] →
       exec (.streamFetch n es) s = .next ⟨((d.onSite n fun t => { t with seqr := { t.seqr with
         fetched := t.seqr.fetched ++ (chunks 16 17 (d.readLocal (s.dev.site n).fold a len)).map
           fun c => BitVec.ofNat 128 (leNat c) } }).pump n).settleAt n, s.pending⟩)) ∧
  (∀ (s : State) (n : Nat) (q : Queue) (i : Issue) (done : Nat),
     s.dev.ready n q = some i → s.dev.doneOf i = some done →
     (∀ k, i.c.body = .mbsel k → exec (.mbsel n q) s = .next ⟨
       (s.dev.onSite n fun t => { t with seqr := match q with
         | .fwd => { t.seqr with microF := k } | .bwd => { t.seqr with microB := k } }).enter n q
         (i.active n q done s.dev .finished), s.pending⟩) ∧
     (∀ t inc id, i.c.body = .tallyAdd t inc → s.dev.tallyOperand i.f i.v i.c.rel i.slot t = some id →
       exec (.tallyAdd n q) s = .next ⟨
         (s.dev.bump n i.f id inc).enter n q (i.active n q done s.dev .finished), s.pending⟩) ∧
     (∀ t value id, i.c.body = .tallySet t value → s.dev.tallyOperand i.f i.v i.c.rel i.slot t = some id →
       exec (.tallySet n q) s = .next ⟨
         (s.dev.setFrom n i.f id value).enter n q (i.active n q done s.dev .finished), s.pending⟩) ∧
     (∀ t thr dl id, i.c.body = .tallyWait t thr dl → s.dev.tallyOperand i.f i.v i.c.rel i.slot t = some id →
       (globalBase ≤ id ∨ id / 3072 = s.dev.penOf n) → ((s.dev.tallyAt i.f id).map s.dev.tallyBad).getD false = false →
       s.dev.tallyReached i.f id thr = true →
       exec (.tallyWait n q) s = .next ⟨s.dev.enter n q
         (({ i with c := { i.c with body := .tallyWait id thr dl } } : Issue).active n q done s.dev .finished), s.pending⟩)) ∧
  (∀ (s : State) (n : Nat) (q : Queue) (i : Issue), s.dev.ready n q = some i →
     (∀ t inc, i.c.body = .tallyAdd t inc → s.dev.tallyOperand i.f i.v i.c.rel i.slot t = none →
       exec (.tallyAdd n q) s = .next ⟨s.dev.stopAt n 0x07 i.c.addr, s.pending⟩) ∧
     (∀ t value, i.c.body = .tallySet t value → s.dev.tallyOperand i.f i.v i.c.rel i.slot t = none →
       exec (.tallySet n q) s = .next ⟨s.dev.stopAt n 0x07 i.c.addr, s.pending⟩) ∧
     (∀ t thr dl id, i.c.body = .tallyWait t thr dl → s.dev.tallyOperand i.f i.v i.c.rel i.slot t = some id →
       id < globalBase → id / 3072 ≠ s.dev.penOf n →
       exec (.tallyWait n q) s = .next ⟨s.dev.stopAt n 0x07 i.c.addr, s.pending⟩)) ∧
  (∀ (s : State) (n : Nat) (q : Queue) (i : Issue) (done : Nat),
     s.dev.ready n q = some i → s.dev.doneOf i = some done →
     (i.c.body = .step → exec (.stepCmd n q) s = .next ⟨
       s.dev.enter n q (i.active n q done s.dev .waiting), s.pending⟩) ∧
     (∀ g, i.c.body = .muster g 1 none → g < 64 / s.dev.foldCount →
       (s.dev.site n).arrived.contains (musterKey i.s g) = false → (s.dev.site n).mayArrive = true →
       exec (.muster n q) s = .next ⟨
         ((s.dev.musterArrive n i.f i.s g).enter n q (i.active n q done s.dev .finished)).onSite n fun t =>
           { t with seqr := { t.seqr with act := t.seqr.act.map fun a =>
             if a.q = q ∧ a.e = .sync then { a with t := 1 } else a } }, s.pending⟩) ∧
     (∀ g, i.c.body = .muster g 2 none → g < 64 / s.dev.foldCount →
       (s.dev.site n).arrived.contains (musterKey i.s g) = false →
       exec (.muster n q) s = .next ⟨s.dev.enter n q (i.active n q done s.dev .finished), s.pending⟩) ∧
     (∀ l, i.c.body = .watchWait l → exec (.watchWait n q) s = .next ⟨
       (s.dev.enter n q (i.active n q done s.dev .waiting)).askCmp n q 2 (s.dev.watchValue n i.v l) (Device.setDone n), s.pending⟩) ∧
     (∀ r h, i.c.body = .racePush r h → s.dev.handleStatus n i.v h false = 0 → ((s.dev.site n).race r).length < 64 →
       exec (.racePush n q) s = .next ⟨
         (s.dev.onSite n fun t => { t with races := t.races.modify r (· ++ [BitVec.ofNat 32 h]) }).enter n q
           (i.active n q done s.dev .finished), s.pending⟩) ∧
     (∀ r, i.c.body = .racePop r → (s.dev.site n).race r ≠ [] → exec (.racePop n q) s = .next ⟨
       ((s.dev.onSite n fun t => { t with races := t.races.modify r List.tail }).enter n q
         (i.active n q done s.dev .finished)).settleAt n, s.pending⟩) ∧
     (∀ h e, i.c.body = .handleSet h e → handleInExtent i.v h = true → exec (.handleSet n q) s = .next ⟨
       (s.dev.onSite n fun t => { t with handle := sset 0#64 t.handle h (BitVec.ofNat 64 e) }).enter n q
         (i.active n q done s.dev .finished), s.pending⟩))

/-- CLEAR, RELEASE and MOVE of a queue's head that may issue, with a done tally the drive may name, checked at decode
and free of the tiles of earlier commands: the accumulator tiles are cleared or released (R172, R184), a MOVE's pieces
begin in order (R141, R189); it is finished at once where no part crosses a ring, and else it runs on until the last part of
its transfer arrives, which then increments its done tally (R142, R171).

The drove commands of a queue's head that may issue, with a done tally the drive may name and checked at decode:
FEED opens its stream and runs in its slot (R185, R186), LOT waits in its slot, and lot 0, whose handle and addresses are
checked first, opens its sunwise stream (R187, R209), LAND waits in its slot for its lots (R188); FEED and LOT carry what their reads will find; then the drove of the fold goes on.

PRODUCT, checked at decode, runs in its array slot, or is finished at once where its source is the paddock and it has
no tile step (R85); for a drove source it is noted as the last PRODUCT to name its stream (R180, R182). SHEAR and COLLECT,
checked at decode, leave their slot for a queue of the shears or of the collective engine with room (R169, R218, R340).

Where the spec leaves a point open, the clauses rest on the model's choice or reading in log entries 24 and 124. -/
def Obligations.TileMoveAndDroveCommandsComplete : Prop :=
  (∀ (s : State) (n : Nat) (q : Queue) (i : Issue) (done : Nat),
     s.dev.ready n q = some i → s.dev.doneOf i = some done →
     (∀ a b c, i.c.body = .clear a b c → tilesStatus a b c = 0 →
       (s.dev.site n).seqr.hazard q (s.dev.site n).seqr.nextId (clearTiles a b c) = false →
       exec (.clear n q) s = .next ⟨
         (s.dev.onSite n fun t => (clearTiles a b c).foldl Site.clearTile t).enter n q
           (i.active n q done s.dev .finished), s.pending⟩) ∧
     (∀ a b c, i.c.body = .release a b c → tilesStatus a b c = 0 →
       (s.dev.site n).seqr.hazard q (s.dev.site n).seqr.nextId (clearTiles a b c) = false →
       exec (.release n q) s = .next ⟨
         (s.dev.onSite n fun t => (clearTiles a b c).foldl Site.releaseTile t).enter n q
           (i.active n q done s.dev .finished), s.pending⟩) ∧
     (∀ m es, i.c.body = .move m →
       let m := { m with src := relLocal i.v i.c.rel i.slot m.src, dst := relLocal i.v i.c.rel i.slot m.dst }
       s.dev.moveStatus i.f i.v m = 0 →
       let c := { i.c with body := .move m }
       let part := s.dev.fabric.nextXfer
       let x := s.dev.movePiecesGo n i.f part done i.c.inc es (movePieces m) 0
       exec (.move n q es) s = .next ⟨
         if x.2 = 0 then x.1.enter n q (({ i with c := c } : Issue).active n q done x.1 .finished)
         else ({ x.1 with fabric := { x.1.fabric with
             nextXfer := part + 1
             xfers := sput x.1.fabric.xfers part ⟨i.f, some (n, i.s, (s.dev.site n).seqr.nextId), done, i.c.inc, x.2, false⟩ } }).enter n q
           (({ i with c := { c with inc := 0 } } : Issue).active n q done x.1 .running), s.pending⟩)) ∧
  (∀ (s : State) (n : Nat) (q : Queue) (i : Issue) (done : Nat) (es : List (Nat × Ecc)),
     s.dev.ready n q = some i → s.dev.doneOf i = some done →
     let id := (s.dev.site n).seqr.nextId
     (∀ f, i.c.body = .feed f →
       let g := { f with base := relLocal i.v i.c.rel i.slot f.base }
       s.dev.feedStatus n i.f i.s i.v g = 0 →
       exec (.feed n q es) s = .next ⟨
         (((s.dev.onFold i.f fun o => { o with streams := o.streams ++ [(i.s, g.dir, g.stream)] }).enter n q
           (({ i with c := { i.c with body := .feed g } } : Issue).active n q done s.dev .running)).withErrs n id es).settleAt n,
         s.pending⟩) ∧
     (∀ l, i.c.body = .lot l → l.p ≠ 0 → l.px ≤ l.p → l.g ≠ 0 → s.dev.handleStatus n i.v l.h false = 0 →
       exec (.lot n q es) s = .next ⟨
         ((s.dev.enter n q (i.active n q done s.dev .waiting)).withErrs n id es).settleAt n, s.pending⟩) ∧
     (∀ l, i.c.body = .lot l → l.p ≠ 0 → l.px ≤ l.p → l.g = 0 → s.dev.handleStatus n i.v l.h true = 0 →
       inExtent i.v (s.dev.handleAddr n l.h) (l.p * 2176) = true →
       (s.dev.fold i.f).streams.contains (i.s, Dir.sunwise, l.stream) = false →
       exec (.lot n q es) s = .next ⟨
         ((((s.dev.onFold i.f fun o => { o with streams := o.streams ++ [(i.s, Dir.sunwise, l.stream)] }).onDir n .sunwise
           (·.setPos ⟨i.s, l.stream, 0, none⟩)).enter n q (i.active n q done s.dev .waiting)).withErrs n id es).settleAt n,
         s.pending⟩) ∧
     (∀ l, i.c.body = .land l → l.c ≠ 0 → l.c ≤ 64 → l.h0 + l.c - 1 < 4096 →
       handleInExtent i.v l.h0 = true → handleInExtent i.v (l.h0 + l.c - 1) = true →
       exec (.land n q) s = .next ⟨
         (s.dev.enter n q (i.active n q done s.dev .waiting)).settleAt n, s.pending⟩)) ∧
  (∀ (s : State) (n : Nat) (q : Queue) (i : Issue) (done : Nat),
     s.dev.ready n q = some i → s.dev.doneOf i = some done →
     (∀ p, i.c.body = .product p →
       let g := if p.src = 2 then p else
         { p with abase := relWord i.v i.c.rel i.slot p.abase, bbase := relWord i.v i.c.rel i.slot p.bbase }
       productStatus i.v g = 0 →
       let d := if p.src ≠ 0 then s.dev else s.dev.onSite n fun t => { t with seqr := { t.seqr with
         named := sput t.seqr.named ((if p.dir = .sunwise then 0 else 16) + p.sr) i.c.addr } }
       exec (.product n q) s = .next ⟨(d.enter n q
         (({ i with c := { i.c with body := .product g } } : Issue).active n q done s.dev
           (if p.src = 1 ∧ p.lives = [] then .finished else .running))).settleAt n, s.pending⟩) ∧
     (∀ c a, i.c.body = .shear c → s.dev.shearStatus i.v c = 0 →
       let d := s.dev.enter n q (i.active n q done s.dev .waiting)
       (d.site n).seqr.slotAt q .sync 0 = some a → d.shears.room c = true →
       exec (.shear n q) s = .next ⟨d.acceptShear n a c, s.pending⟩) ∧
     (∀ c a, i.c.body = .collect c → s.dev.collectStatus i.f i.v i.c.rel i.slot c = 0 →
       let d := s.dev.enter n q (i.active n q done s.dev .waiting)
       (d.site n).seqr.slotAt q .sync 0 = some a → d.coll.queue.length < 16 →
       exec (.collect n q) s = .next ⟨d.acceptCollect n a c, s.pending⟩))

/-- VOP: a VOP of a vector slot, alone in the vector unit and ready by R172, with its addresses inside the drive's extent
and its paddock and accumulator operands free of poison, reads, computes and writes every one of its tiles in order and
is finished (R190, R192, R193). One that takes operands from a race does so at the address of the handle at its head,
whose handle is good, and with its pop bit discards that handle at the end.

TILE_STEP at an active pen: with clean reads, operands free of poison, drove tiles with the PRODUCT's tag, good lots in
order and accumulator tiles of its queue, every product of the step is added to the accumulator tiles it names, which the queue
then owns, and the PRODUCT moves on by one tile step, or by its lots (R57, R85, R116, R118, R119, R180 to R183, R539).

COMMAND_COMPLETION: a finished command leaves its slot, its comparator is released, its increment is added to its
done tally, the fetch unit works on, a tile left over for an ended stream stops the drive (R182), and the drive ends when every
stream of the fold has ended (R166, R171, R202).

Where the spec leaves a point open, the clauses rest on the model's choice or reading in log entries 24, 28, 29, 45 and 124. -/
def Obligations.VopAndTileStepsCompute : Prop :=
  (∀ (s : State) (n : Nat) (q : Queue) (p : Nat × Drive) (a : Active) (o : Vop),
     s.dev.goes n = some p → (s.dev.site n).seqr.slotAt q .vector 0 = some a →
     (s.dev.site n).seqr.slotAt (if q = .fwd then .bwd else .fwd) .vector 0 = none →
     a.cmd.body = .vop o → a.phase = .waiting → a.i = 0 → (s.dev.site n).stops = [] → 0 < o.count → o.count ≤ 255 →
     s.dev.vopReady n q a.id o = true →
     let heads := o.sources.any (·.1 = 3)
     let h := (((s.dev.site n).race o.race).headD 0#32).toNat
     (heads = true → s.dev.handleStatus n p.2 h true = 0) →
     let ha := if heads then s.dev.handleAddr n h else 0
     ((List.range o.count).flatMap (o.reads ha)).all (fun r => inExtent p.2 r.1 r.2) = true →
     (s.dev.site n).poison = [] → (s.dev.site n).badRows = [] →
     exec (.vop n q .none) s = .next ⟨
       ((s.dev.onSite n fun t =>
           let t := (List.range o.count).foldl (o.tileGo (p.2.drawBase (s.dev.penOf n) a.id) ha) t
           if heads && o.pop then t.popRace o.race else t).onAct n a.id
         fun a => { a with i := a.i + o.count, phase := .finished }).settleAt n, s.pending⟩) ∧
  (∀ (s : State) (n : Nat) (v : Drive) (a : Active) (p : Product) (fa fb : Fmt) (t : Nat),
     s.dev.entering n = some (v, a) → a.cmd.body = .product p →
     Fmt.ofCode p.afmt = some fa → Fmt.ofCode p.bfmt = some fb → p.nextT a.t = some t →
     (s.dev.site n).poison = [] → (s.dev.site n).badRows = [] → (p.atr && p.ascl) = false →
     let u := s.dev.site n
     let lots := (List.range (p.lotsAt a.i)).map (s.dev.lotAt n v a p)
     (p.src = 2 → lots.all (fun l => l.1 = 0 && p.addresses v fa fb 32 (l.2.1 + p.abase) (l.2.1 + p.bbase)) = true) →
     let ws := if p.src = 2 then lots.map (fun l => p.at a.i t l.2.1) else [p.at a.i t 0]
     let w := ws.headD ⟨0, 0, 0, 0, 0⟩
     let tiles := (if p.comp then [w.re, w.re + 1] else [w.re]) ++
       (if p.cplx = 0 then [] else if p.comp then [w.im, w.im + 1] else [w.im])
     tiles.all (fun k => !u.live.contains k || match slook u.owner k with | some o => o = a.q | none => true) = true →
     let rings := if p.src = 0 then (u.node.unused p.dir p.sr).take (if p.cplx = 0 then 1 else 2) else []
     rings.flatten.all (fun r => !p.wrongTag r && r.poison.isEmpty) = true →
     let kn := contraction fa fb
     let kl := if p.src = 2 then 32 else kn
     let ao := p.aSize fa kl
     let bo := p.bSize fb kl
     let av := (List.range ao.planes).map fun k => ws.map fun w => ao.get u w.a k
     let bv := if p.src = 0 then rings.map fun r => [joinTile r]
       else (List.range bo.planes).map fun k => ws.map fun w => bo.get u w.b k
     let o : Blocks :=
       ⟨av.map fun l => joinRows kn (l.map fun x => if p.atr then aBlockT fa p.ascl kl x.1 x.2 else aBlock fa p.ascl kl x.1 x.2),
         bv.map fun l => joinRows kn (l.map fun x => bTile fb p.bscl kl x.1 x.2)⟩
     let d := if p.src = 2 then s.dev.onAct n a.id fun a => { a with lot0 := lots.head?.map (·.2.2) } else s.dev
     exec (.tileStep n .none) s = .next ⟨(d.onSite n fun x =>
       { tiles.foldl (fun x k => x.own k a.q) (x.tileProducts p fa fb w.mask w.re w.im o) with
         inRow := 0, replay := none }).advance n a p t ws.length, s.pending⟩) ∧
  (∀ (s : State) (n : Nat) (q : Queue) (e : Engine) (k : Nat) (a : Active),
     (s.dev.site n).seqr.slotAt q e k = some a → a.phase = .finished →
     let d := s.dev.onSite n fun t => { t with seqr := { t.seqr with act := t.seqr.act.filter fun b => b.id ≠ a.id } }
     let d := { d with watch := d.watch.release fun u => decide (u = CmpUser.wait n (decide (a.q = Queue.bwd)) a.id) }
     let d := if a.cmd.inc = 0 then d else d.bump n (s.dev.site n).fold a.cmd.done a.cmd.inc
     exec (.commandCompletion n q e k) s = .next ⟨
       (((d.pump n).leftStop n).endCheck (s.dev.site n).fold).settleAt n, s.pending⟩)

/-! ## The pen: ramps, stops, pre-emption, retirement (03, 04) -/

/-- Ramps: RAMP_END brings a ramping-up pen to level 4, where one that is to turn begins its ramp-down, and a ramping-down
pen to level 0 (R74); an active pen without ready work asks for its ramp-down (R77, R78); a ramp request is queued once at
the ramp arbiter (R78); a stop request adds its cause, and a pen that is active asks for its ramp-down (R81).

RAMP_GRANT: the oldest request is granted while fewer than four grants lie in the last 64 arbiter cycles, no muster's
staggered ramp-ups are due and 32 cycles have passed since the last of them; a pen at level 0 with no stop cause begins its
ramp-up (R76, R78, R79), and an active one without ready work its ramp-down, after the ramp-up that is under way (R74, R77).
A grant in a window that holds four, or of a request that is not the oldest, changes nothing.

Where the spec leaves a point open, the clauses rest on the model's choice or reading in log entry 123. -/
def Obligations.RampsAndStopsComplete : Prop :=
  (∀ (s : State) (n : Nat),
     ((s.dev.site n).ramp = some .up → exec (.rampEnd n) s = .next ⟨
       { s.dev with sites := s.dev.sites.modify n fun t => { t with level := 4, ramp := none } }, s.pending⟩) ∧
     ((s.dev.site n).ramp = some .turn → exec (.rampEnd n) s = .next ⟨
       { s.dev with sites := s.dev.sites.modify n fun t => { t with level := 4, ramp := some .down } }, s.pending⟩) ∧
     ((s.dev.site n).ramp = some .down → exec (.rampEnd n) s = .next ⟨
       { s.dev with sites := s.dev.sites.modify n fun t => { t with level := 0, ramp := none } }, s.pending⟩) ∧
     (0 < (s.dev.site n).level → (s.dev.site n).ramp = none → s.dev.busy n = false →
       exec (.idleRampDown n) s = .next ⟨s.dev.inject (stopOf n) (.rampReq n false), s.pending⟩) ∧
     (∀ up e, s.dev.tookCtl (.rampReq n up) none e →
       let l := s.dev.fabric.rampReq
       let l := if l.contains (n, up) then l else l ++ [(n, up)]
       exec (.rampRequest n up) s = .next ⟨{ e with fabric := { e.fabric with rampReq := l } }, s.pending⟩) ∧
     (∀ c, s.dev.inFold n = true →
       let d := { s.dev with sites := s.dev.sites.modify n fun t =>
         { t with stops := if t.stops.contains c then t.stops else c :: t.stops } }
       exec (.penStopRequest n c) s = .next ⟨
         if 0 < (s.dev.site n).level then d.inject (stopOf n) (.rampReq n false) else d, s.pending⟩)) ∧
  (∀ (s : State) (n cycle : Nat) (up : Bool),
     let log := s.dev.fabric.rampLog.filter (cycle < · + 64)
     (s.dev.fabric.rampReq.head? ≠ some (n, up) ∨ 4 ≤ log.length → exec (.rampGrant n up cycle) s = .next s) ∧
     (s.dev.fabric.rampReq.head? = some (n, up) → log.length < 4 → s.dev.fabric.stagger = [] → s.dev.fabric.holdTo ≤ cycle →
       let d := { s.dev with fabric := { s.dev.fabric with
         rampReq := s.dev.fabric.rampReq.tail, rampLog := log ++ [cycle] } }
       ∀ e, d.tookCtl (.rampGrant n up) (some n) e →
       (up = true → (s.dev.site n).stops = [] → (s.dev.fold (s.dev.site n).fold).running = none →
         exec (.rampGrant n up cycle) s = .next ⟨{ e with sites := e.sites.modify n fun t =>
           if t.level = 0 ∧ t.ramp.isNone then { t with level := 1, ramp := some .up } else t }, s.pending⟩) ∧
       (up = false → s.dev.busy n = false →
         exec (.rampGrant n up cycle) s = .next ⟨{ e with sites := e.sites.modify n fun t =>
           if t.level = 0 then t
           else { t with ramp := some (if t.ramp = some .up ∨ t.ramp = some .turn then .turn else .down) } }, s.pending⟩)))

/-- A pen of a fold that is due to retire by R70 leaves service: its site is retired and recorded for good, an event
is raised, and where no spare is left the pen loses its logical number and the drives of its fold stop with
FOLD_SHRUNK, #20 (R23, R71, R72, R128).

SPARE_SUBSTITUTION: the spare with the least return-lane latency takes the logical number, the paddock, the live
accumulator tiles, tallies, handles, races and stream of the retired pen with the lowest logical number of its fold,
which keeps no logical number; other sites keep their paddock, accumulator tiles, tallies and logical number, and
LPDDR5X, global tallies and host memory are as before (R126 to R129).

PREEMPTION at a pen of level 0 that stands stopped for it: the outgoing drive's waits let their comparators go, its live
accumulator tiles go into its save area and its stream, races and node are kept, the incoming drive's are restored, and the
incoming drive is billed the cycles (R82, R84, R205). Once every pen of the fold has changed over, the incoming drive runs,
unless a status has stopped it: its pens resume and its waits go on from where they were.

Where the spec leaves a point open, the clauses rest on the model's choice or reading in log entries 17, 38, 39, 40 and 125. -/
def Obligations.RetirementSubstitutionAndPreemption : Prop :=
  (∀ (s : State) (n : Nat), s.dev.inFold n = true → (s.dev.site n).dueToRetire = true →
     let d := (s.dev.stopPen n .retire).onSite n fun t => { t with state := 2, replay := none, inRow := 0 }
     let d := d.event .penRetired [n, (s.dev.site n).logical]
     let d := { d with persist := { d.persist with retired := nins d.persist.retired n } }
     d.spareSites = [] →
     let e := d.onSite n fun t => { t with logical := 63 }
     exec (.penRetire n) s = .next ⟨
       ((e.fold (s.dev.site n).fold).drives.map (·.1)).foldl (fun d x => d.stopOpen (s.dev.site n).fold x 0x20) e, s.pending⟩) ∧
  (∀ (s : State) (n m : Nat),
     let f := (s.dev.site n).fold
     (s.dev.awaiting f).contains n = true →
     (s.dev.awaiting f).any (fun k => decide ((s.dev.site k).logical < (s.dev.site n).logical)) = false →
     (s.dev.fold f).incoming = none → s.dev.bestSpare n = some m → m ≠ n → n < s.dev.sites.length → m < s.dev.sites.length →
     ∃ t : State, exec (.spareSubstitution n) s = .next t ∧ t.pending = s.pending ∧
       (t.dev.site n).logical = 63 ∧ (t.dev.site n).state = 2 ∧
       (t.dev.site m).state = 0 ∧ (t.dev.site m).logical = (s.dev.site n).logical ∧ (t.dev.site m).fold = f ∧
       (t.dev.site m).pad = (s.dev.site n).pad ∧ (t.dev.site m).tally = (s.dev.site n).tally ∧
       (t.dev.site m).handle = (s.dev.site n).handle ∧ (t.dev.site m).races = (s.dev.site n).races ∧
       (t.dev.site m).seqr = (s.dev.site n).seqr ∧
       (t.dev.site m).acc = (s.dev.site n).acc.filter (fun e => (s.dev.site n).live.contains e.1) ∧
       (∀ k, k ≠ n → k ≠ m → (t.dev.site k).pad = (s.dev.site k).pad ∧ (t.dev.site k).acc = (s.dev.site k).acc ∧
         (t.dev.site k).tally = (s.dev.site k).tally ∧ (t.dev.site k).logical = (s.dev.site k).logical) ∧
       t.dev.gtally = s.dev.gtally ∧ t.dev.mem = s.dev.mem ∧ t.dev.host = s.dev.host) ∧
  (∀ (s : State) (n cycles a b : Nat) (v w : Drive),
     let f := (s.dev.site n).fold
     let t := s.dev.site n
     t.seated = true → (s.dev.fold f).occ = some a → (s.dev.fold f).incoming = some b →
     s.dev.drive f a = some v → s.dev.drive f b = some w →
     t.stops.contains .preempt = true → t.level = 0 → t.ramp = none → slook t.saved a = none →
     let d := s.dev.savePen n a v
     let x := w.entryAt (d.penOf n)
     let d := (d.onSite n (·.restore b (saveArea w) (w.fresh x (d.streamLimit n w x)))).onDrive f b
       fun v => { v with usage := v.usage + cycles }
     let all := (d.foldSites f).all (fun m => (slook (d.site m).saved a).isSome)
     (all = false → exec (.preemption n cycles) s = .next ⟨d, s.pending⟩) ∧
     (all = true →
       let d := (d.foldSites f).foldl (fun d m => (d.onSite m (·.unstop .drive)).resumePen m .preempt)
         (d.onFold f fun o => { o with
           running := if w.stopped.isSome then none else some b, occ := some b, incoming := none })
       exec (.preemption n cycles) s = .next ⟨if w.stopped.isSome then d else d.resumeWaits f b, s.pending⟩))

/-! ## Drove and rings (04, 08) -/

/-- DROVE_TILE_ARRIVAL and DROVE_RESEND at a pen whose drive runs: a tile in sequence moves from the hop to the input
queue and its stream's position moves on (R97, R120); a tile with an uncorrectable error asks for a resend (R98); a
resend is counted with its event (R98); a tile out of sequence is DROVE_SEQUENCE, #17, of the command that names its
stream (R97). -/
def Obligations.DroveTilesArriveInSequence : Prop :=
  ∀ (s : State) (n : Nat) (x : Dir) (r : RingTile) (rest : List RingTile),
    let y := (s.dev.site n).node.dir x
    y.hop = r :: rest →
    let want := match y.posOf r.stream with | some p => p.next | none => 0
    (∀ k v e, s.dev.goes n = some (k, v) → y.asked = false → e ≠ .uncorrectable → r.seq = want →
      exec (.droveTileArrival n x e) s = .next ⟨(s.dev.onDir n x fun y =>
        ({ y with hop := rest, queue := y.queue ++ [r], resends := 0 }).setPos
          { drive := k, stream := r.stream, next := (r.seq + 1) % 2 ^ 32
            lot := match y.posOf r.stream with | some p => p.lot | none => none }).settleAt n, s.pending⟩) ∧
    (∀ p, s.dev.goes n = some p → y.asked = false → y.resends < 3 →
      exec (.droveTileArrival n x .uncorrectable) s =
        .next ⟨s.dev.onDir n x fun y => { y with asked := true }, s.pending⟩) ∧
    (∀ p e, s.dev.goes n = some p → y.asked = false → e ≠ .uncorrectable → r.seq ≠ want →
      exec (.droveTileArrival n x e) s = .next ⟨
        (s.dev.event .droveSequence [n, r.stream, want, r.seq]).stopTile n 0x17 x r.stream, s.pending⟩) ∧
    (y.asked = true → exec (.droveResend n x) s = .next ⟨
      ((s.dev.onDir n x fun y => { y with asked := false, resends := y.resends + 1 }).onSite n fun t =>
        { t with node := { t.node with resendCount := t.node.resendCount + 1 } }).event .droveResend [n, r.stream],
      s.pending⟩)

/-- BULK_WRITE_FLIT for a site of its own fold whose paddock is not being cleared: its valid words land in the site's paddock,
whose heft is awake (R142, R272). A flit of a transfer is one part less to wait for, and the last part increments the
transfer's tally once, unless the transfer was cut; a flit by itself increments its own tally where it is marked last
(R142, R255). A flit for a site of another fold, or whose paddock is being cleared, moves nothing, and its transfer
increments no tally (R138, R158).

REMOTE_READ_ORDER that may be served (words, of at most 1 MiB, out of one paddock of the fold, R131, R138, R244): toward a
paddock one bulk flit per destination line is issued at the station of the source, in ascending order and on the lane of
R241, from the words as the read finds them with their poison; toward LPDDR5X the data is written (R140, R148, R244).

FEED_FLIT: a feed flit that has reached the end of its lane is taken off the ring, and the FEED it was sent for counts its
bytes in the order of the header addresses, flits that came early being kept until those before them are there (R247); then the
drove goes on. One that no FEED has asked for changes nothing (log entry 125).

Control flits at their destination: kind 1 adds to its tally modulo 2^32 and kind 2 stores a value (R199, R245), an
increment of a tally whose row was found uncorrectable stops the drive instead (R156); kinds 5 and 6 open and end a setup
access; kind 9 reaches the crook, which takes a source's record with its last fragment, the eighth at the latest (R245).
Nothing else changes.

Where the spec leaves a point open, the clauses rest on the model's choice or reading in log entries 23, 24, 37 and 125. -/
def Obligations.RingFlitsActAtTheirDestination : Prop :=
  ((∀ (s : State) (f : BulkFlit) (part : Nat) (d : Device), s.dev.tookBulk (.write f) part d →
     let e := (d.wake f.site).onSite f.site fun t => (List.range 8).foldl (fun t i => t.landWord f i) t
     let lands := (s.dev.site f.site).seated && (s.dev.site f.site).fold = f.fold && f.off < padSize &&
       !(s.dev.site f.site).clearing
     exec (.bulkWriteFlit f) s = .next ⟨
       if lands then
         (if part ≠ 0 then e.partsDone part 1 else if f.last = true ∧ f.cut = false then e.tallyAdd f.fold f.tally f.inc else e)
       else if part = 0 then d
       else ({ d with fabric := { d.fabric with xfers := d.fabric.xfers.map fun x =>
         if x.1 = part then (x.1, { x.2 with cut := true }) else x } } : Device).partsDone part 1, s.pending⟩) ∧
   (∀ (d : Device) (part : Nat) (x : Xfer), slook d.fabric.xfers part = some x →
     (1 < x.left → d.partsDone part 1 =
       { d with fabric := { d.fabric with xfers := sput d.fabric.xfers part { x with left := x.left - 1 } } }) ∧
     (x.left = 1 → x.inc ≠ 0 →
       let e := { d with fabric := { d.fabric with xfers := sdel d.fabric.xfers part } }
       d.partsDone part 1 = if x.cut then e else (e.tallyAdd x.fold x.tally x.inc).endMove x))) ∧
  (∀ (s : State) (o : ReadOrder) (es : List (Nat × Ecc)) (part m src : Nat) (d : Device),
     s.dev.tookBulk (.order o) part d → s.dev.goodOrder o = true → s.dev.place o.fold o.src = some (.pad m src) →
     (∀ k off, s.dev.place o.fold o.dst = some (.pad k off) →
       let e := d.transferRead o.fold o.src o.len es
       let fs := lineFlits (stopOf m) o.fold o.fold k off (e.readLocal o.fold o.src o.len)
         (e.poisonWords o.fold o.src o.len) o.tally o.inc (stileSplit (off, o.len))
       let bulk := injectAll (e.room bulkRoom) (e.fabric.bulk ++ fs.map fun f =>
         ⟨.write f, stopOf m, stopOf f.site, bulkLane (stopOf m) (stopOf f.site) f.off, false, 0, none, part⟩)
       fs.length = (off % 64 + o.len + 63) / 64 ∧
       exec (.remoteReadOrder o es) s = .next ⟨{ e with fabric := { e.fabric with bulk := bulk } }, s.pending⟩) ∧
     (∀ a, s.dev.place o.fold o.dst = some (.lp a) →
       let e := d.moveRow o.fold o.src o.dst o.len es
       exec (.remoteReadOrder o es) s = .next ⟨
         if part ≠ 0 then e.partsDone part 1 else e.tallyAdd o.fold o.tally o.inc, s.pending⟩)) ∧
  (∀ (s : State) (c : FeedFlit),
     (arriveGo (fun x => decide (x = c)) [] s.dev.fabric.feed = none → exec (.feedFlit c) s = .next s) ∧
     (∀ x l a fd fm, arriveGo (fun x => decide (x = c)) [] s.dev.fabric.feed = some (x, l) →
       (s.dev.site c.site).seqr.act.filter (fun b => match b.cmd.body with | .feed _ => true | _ => false) = [a] →
       a.cmd.body = .feed fd → Fmt.ofCode fd.fmt = some fm → x.part / 2 ^ 40 = a.id →
       let d := { s.dev with fabric := { s.dev.fabric with feed := refill feedRoom x l } }.wake c.site
       let t := { a.feed with got := a.feed.got ++ [x.part % 2 ^ 40] }
       exec (.feedFlit c) s = .next ⟨(d.onAct c.site a.id fun a =>
         { a with feed := d.feedDue (s.dev.site c.site).fold fd fm t.got.length t }).settleAt c.site, s.pending⟩)) ∧
  (∀ s : State,
     let toPen (p : TallyAt) : Option Nat := match p with | .pen n _ => some n | .global _ => none
     (∀ f id inc p e, s.dev.tallyAt f id = some p → s.dev.tookCtl (.tallyAdd f id inc) (toPen p) e →
       exec (.controlTallyAdd f id inc) s = .next ⟨if s.dev.tallyBad p then e.tallyStop p
         else e.tallyPut p (s.dev.tallyGet p + BitVec.ofNat 32 inc), s.pending⟩) ∧
     (∀ f id v p e, s.dev.tallyAt f id = some p → s.dev.tookCtl (.tallySet f id v) (toPen p) e →
       exec (.controlTallySet f id v) s = .next ⟨e.tallyPut p (BitVec.ofNat 32 v), s.pending⟩) ∧
     (∀ c rd off e, s.dev.tookCtl (.setupAddr c rd off) none e →
       exec (.setupAddress c rd off) s = .next ⟨
         { e with fabric := { e.fabric with setup := some (c, rd, off) } }, s.pending⟩) ∧
     (∀ c r v e, s.dev.tookCtl (.setupData c r v) none e →
       exec (.setupData c r v) s = .next ⟨{ e with fabric := { e.fabric with setup := none } }, s.pending⟩) ∧
     (∀ n v last e, s.dev.tookCtl (.eventFrag n v) none e →
       let l := s.dev.fabric.frags
       let l := if last = true ∨ 7 ≤ (l.filter (·.1 = n)).length then l.filter (·.1 ≠ n) else l ++ [(n, v)]
       exec (.eventFragment n v last) s = .next ⟨{ e with fabric := { e.fabric with frags := l } }, s.pending⟩))

/-- A muster at the hub: an arrival of a pen of the fold is counted in its round; the last pen's arrival ends the round and
sends a release flit to every pen of the fold. The pens at level 0 begin their ramps in ascending order, one a cycle from 26
cycles on, and no ramp is granted until 32 cycles after the last of them (R79, R201).

MUSTER_RELEASE at a pen whose drive runs: its arrival in the round is over and its waits for the group are finished
(R201); a pen that was idle at the release begins its staggered ramp-up without a grant, not before its own cycle, unless it
is told to stop, and holds the grants for 32 cycles more (R79).

Where the spec leaves a point open, the clauses rest on the model's choice or reading in log entry 127. -/
def Obligations.MustersReleaseTogether : Prop :=
  (∀ (s : State) (f slot group pen cycle : Nat) (e : Device),
     s.dev.tookCtl (.musterArrive f slot group pen) none e → slot < 4 → group < 64 / s.dev.foldCount →
     let ss := s.dev.foldSites f
     let here := nins (sget [] (s.dev.fold f).musters (musterKey slot group)) pen
     let d := e.onFold f fun o => { o with musters := sput o.musters (musterKey slot group) here }
     let idle := ss.filter fun n => (s.dev.site n).level = 0
     pen < ss.length →
     ((List.range ss.length).all (here.contains ·) = false →
       exec (.musterArrive f slot group pen cycle) s = .next ⟨d, s.pending⟩) ∧
     ((List.range ss.length).all (here.contains ·) = true →
       ∃ t : State, exec (.musterArrive f slot group pen cycle) s = .next t ∧ t.pending = s.pending ∧
         (t.dev.fold f).musters = sdel (d.fold f).musters (musterKey slot group) ∧
         t.dev.fabric.stagger = s.dev.fabric.stagger ++ idle.zipIdx.map (fun x => (x.1, cycle + 26 + x.2)) ∧
         (idle ≠ [] → cycle + 26 + (idle.length - 1) + 32 ≤ t.dev.fabric.holdTo) ∧ s.dev.fabric.holdTo ≤ t.dev.fabric.holdTo ∧
         (∀ n ∈ ss, t.dev.fabric.ctl.any (·.flit =
           .musterRelease f slot group n (if idle.contains n then idle.idxOf n else 0)) = true) ∧
         t.dev.sites = s.dev.sites)) ∧
  (∀ (s : State) (f slot group n pos cycle : Nat) (v : Drive) (e : Device),
     s.dev.fabric.ctl.any (·.flit = .musterRelease f slot group n pos) = true →
     s.dev.tookCtl (.musterRelease f slot group n pos) (some n) e → s.dev.goes n = some (slot, v) →
     let d := (e.onSite n fun t => { t with arrived := ndel t.arrived (musterKey slot group) }).onSite n fun t =>
       { t with seqr := { t.seqr with act := t.seqr.act.map fun a => match a.cmd.body with
         | .muster g m _ => if g = group ∧ a.phase = .waiting ∧ (a.t = 1 ∨ m = 2) then { a with phase := .finished } else a
         | _ => a } }
     (s.dev.fabric.stagger.find? (·.1 = n) = none →
       exec (.musterRelease f slot group n pos cycle) s = .next ⟨d, s.pending⟩) ∧
     (∀ c, s.dev.fabric.stagger.find? (·.1 = n) = some (n, c) → c ≤ cycle →
       exec (.musterRelease f slot group n pos cycle) s = .next ⟨
         { d with fabric := { d.fabric with
             stagger := d.fabric.stagger.filter (·.1 ≠ n), holdTo := max d.fabric.holdTo (cycle + 32) } }.onSite n fun t =>
           if t.stops = [] then t.rampUp else t, s.pending⟩) ∧
     (∀ c, s.dev.fabric.stagger.find? (·.1 = n) = some (n, c) → cycle < c →
       exec (.musterRelease f slot group n pos cycle) s = .next s))

/-- ARBITER_DRAW: among the requesters whose bursts are within the port's largest, a shared arbiter draws by its own
tickets, a bank arbiter by those of ARB_SITE_RD or ARB_SITE_WR of its site (R249 to R252); nothing else changes.

CUT: the holder of a shared arbiter's grant, before its burst is whole, loses it and its tickets at that arbiter, the cut is
counted and recorded with its beats, and what its transfer was part of ends (R254, R255).

Where the spec leaves a point open, the clauses rest on the model's choice or reading in log entries 20 and 36. -/
def Obligations.ArbitersDrawAndCut : Prop :=
  (∀ (s : State) (a : Nat) (req : List (Nat × Nat)),
     let asks := req.filter fun x => 1 ≤ x.2 && x.2 ≤ if isBank a then 1 else if a < 12 then 16 else 32
     (a < 18 → exec (.arbiterDraw a req) s = .next ⟨{ s.dev with fabric := { s.dev.fabric with
       arbs := s.dev.fabric.arbs.modify a fun x => x.draw x.tickets asks } }, s.pending⟩) ∧
     (isBank a = true →
       let site := s.dev.site ((a - 0x100) / 0x80)
       let x := ((slook s.dev.fabric.banks a).getD (.reset a)).draw
         (bankTickets (if (a - 0x100) % 0x80 / 0x40 = 1 then site.arbWr else site.arbRd)) (asks.filter (·.1 < 4))
       exec (.arbiterDraw a req) s = .next ⟨{ s.dev with fabric := { s.dev.fabric with
         banks := sput s.dev.fabric.banks a x } }, s.pending⟩)) ∧
  (∀ (s : State) (a beats burst : Nat) (o : CutOwner), a < 18 → beats < burst →
     (s.dev.fabric.arbs.getD a (.reset a)).holder = some (s.dev.ownerIndex o, burst) →
     let r := s.dev.ownerIndex o
     let d : Device := { s.dev with fabric := { s.dev.fabric with
       arbs := s.dev.fabric.arbs.modify a fun (x : Arbiter) => { x with tickets := x.tickets.set r 0, holder := none }
       cutValid := true, cutArb := a, cutReq := r, cutBeats := beats % 1024, cutCount := satAdd 32 s.dev.fabric.cutCount 1 } }
     exec (.cut a beats o) s = .next ⟨(d.event .cut [a, r, beats]).endCut o, s.pending⟩)

/-- A draw grants a requester that asks: with one or more requesters below 16 asking, the arbiter's holder is one of
them with its burst, and one whose tickets are zero is granted only where no asking requester holds any; the turn of
those without tickets moves on by a grant without tickets alone (R250, R252). -/
def Obligations.DrawGrantsAnAskingRequester : Prop :=
  ∀ (x : Arbiter) (tickets : List Nat) (req : List (Nat × Nat)), (∃ q ∈ req, q.1 < 16) →
    ∃ w, (x.draw tickets req).holder = some w ∧ w ∈ req ∧ w.1 < 16 ∧
      (tickets.getD w.1 0 = 0 → (∀ q ∈ req, q.1 < 16 → tickets.getD q.1 0 = 0) ∧ (x.draw tickets req).last = w.1 ∧
        (x.draw tickets req).gen = x.gen) ∧
      (tickets.getD w.1 0 ≠ 0 → (x.draw tickets req).last = x.last)

/-! ## Memory quarters and paddocks (05, 10) -/

/-- MEMORY_READ and MEMORY_WRITE of a line that is served: its channel and quarter leave power-down and self refresh and the
check line of its chunk is in use (R272, R295, R308). A read of good halves changes nothing else; one of a poisoned half is
described without a count, and an uncorrectable error is described, counted and poisons the half (R303, R304, R311). A write
within one line of a fold's share stores its bytes under the fold's key (R297 to R301).

MEM_PATROL of a channel of a trained quarter outside self refresh, with MEM_SCRUB enabled and every half good: the
patrol position moves to the channel's next chunk, wrapping at the end, and the channel is awake (R305).

Upkeep of the memory quarters: REFRESH and RFM take the rate of MR4 of the quarter's two packages and record MEM_HOT at
most once a second (R290, R306, R307), WCK2DQ_CHECK of a drifted channel raises MEM_RETRAIN (R307), an idle channel powers
down, and self refresh, after 65,536 ticks without a request, stops the quarter's heft where gate_en is set and restarts it
(R271, R272, R308). Nothing else changes.

Where the spec leaves a point open, the clauses rest on the model's choice or reading in log entries 27 and 41. -/
def Obligations.MemoryQuarterCommandsComplete : Prop :=
  (∀ s : State,
     (∀ a, s.dev.serves a = true →
       let d := s.dev.touchChunk (a / 960) false
       let h := a / 64 * 2
       (s.dev.mem.poison.contains h = false → s.dev.mem.poison.contains (h + 1) = false →
         exec (.memoryRead a .ok .ok) s = .next ⟨d, s.pending⟩ ∧
         let e := d.onQuarter (quarterOf a) fun x =>
           { x with ue := min (x.ue + 1) (2 ^ 16 - 1), ueValid := true, ueKind := 0, ueHalf := false, ueAddr := a / 64 * 64 }
         exec (.memoryRead a .uncorrectable .ok) s = .next ⟨
           { e with mem := { e.mem with poison := nins s.dev.mem.poison h } }, s.pending⟩) ∧
       (∀ e, s.dev.mem.poison.contains h = true → s.dev.mem.poison.contains (h + 1) = false →
         exec (.memoryRead a e .ok) s = .next ⟨d.onQuarter (quarterOf a) fun x =>
           { x with ueValid := true, ueKind := 2, ueHalf := false, ueAddr := a / 64 * 64 }, s.pending⟩)) ∧
     (∀ f x bs, f < s.dev.foldCount → x + bs.length ≤ s.dev.share → bs ≠ [] → x % 64 + bs.length ≤ 64 →
       s.dev.serves (f * s.dev.share + x) = true →
       let a := f * s.dev.share + x
       let d := s.dev.touchMem a bs.length true
       exec (.memoryWrite f x bs) s = .next ⟨s.dev.memWrite (s.dev.fold f).key a bs [], s.pending⟩ ∧
       (s.dev.mem.poison = [] →
         exec (.memoryWrite f x bs) s = .next ⟨{ d with mem := d.mem.write (s.dev.fold f).key a bs }, s.pending⟩))) ∧
  (∀ (s : State) (ch : Nat), ch < 32 → bit s.dev.mem.scrub 31 = true → s.dev.mem.state = 2 →
     (s.dev.quarter (ch / 8)).selfRef = false → s.dev.mem.poison = [] →
     let u := s.dev.mem.patrol.getD ch 0
     let d := s.dev.useCheck (u * 32 + ch % 8 * 4 + ch / 8) false
     exec (.memPatrol ch []) s = .next ⟨{ d with mem := { d.mem with
       patrol := d.mem.patrol.set ch ((u + 1) % d.channelChunks), down := d.mem.down.set ch false } }, s.pending⟩) ∧
  (∀ (s : State) (q : Nat), q < 4 →
     (∀ hot : Bool × Bool,
       let d := s.dev.onQuarter q fun x => { x with hot := hot }
       let e := (s.dev.onQuarter q fun x => { x with hot := hot, lastHot := some s.dev.watch.age }).event .memHot [q]
       (hot = (false, false) → exec (.refresh q hot) s = .next ⟨d, s.pending⟩ ∧ exec (.rfm q hot) s = .next ⟨d, s.pending⟩) ∧
       (hot ≠ (false, false) → (s.dev.quarter q).lastHot = none →
         exec (.refresh q hot) s = .next ⟨e, s.pending⟩ ∧ exec (.rfm q hot) s = .next ⟨e, s.pending⟩) ∧
       (∀ t, hot ≠ (false, false) → (s.dev.quarter q).lastHot = some t →
         let r := if t + 100000000 ≤ s.dev.watch.age then e else d
         exec (.refresh q hot) s = .next ⟨r, s.pending⟩ ∧ exec (.rfm q hot) s = .next ⟨r, s.pending⟩)) ∧
     (∀ ch, ch < 8 → exec (.wck2dqCheck q ch true) s = .next ⟨s.dev.event .memRetrain [q, ch], s.pending⟩) ∧
     (∀ ch, ch < 32 → (s.dev.quarter (ch / 8)).selfRef = false → exec (.channelPowerDown ch) s =
       .next ⟨{ s.dev with mem := { s.dev.mem with down := s.dev.mem.down.set ch true } }, s.pending⟩) ∧
     (s.dev.mem.idleSr = true → s.dev.anyDrive = false → (s.dev.quarter q).selfRef = false →
       (s.dev.quarter q).used + 65536 ≤ s.dev.watch.age →
       exec (.selfRefreshEntry q) s = .next ⟨(s.dev.onQuarter q fun x => { x with selfRef := true }).onHeft (42 + q)
         fun h => { h with stopped := h.gateEn }, s.pending⟩) ∧
     ((s.dev.quarter q).selfRef = true → exec (.selfRefreshExit q) s = .next ⟨
       (s.dev.onQuarter q fun x => { x with selfRef := false, used := s.dev.watch.age }).onHeft (42 + q)
         fun h => { h with stopped := false }, s.pending⟩))

/-- Upkeep of a paddock: PADDOCK_SCRUB wakes its heft; granted, with a good line, it moves to the bank's next line, and one
that is not granted is counted as deferred (R150, R151, R272); a clear that ends leaves every word zero, no poison and no
live accumulator tile, clears PAD_CE and PAD_UE, and lets the heft go back to the step its limits ask (R149, R157, R263).

Row sparing: the correctable error of a row of an accumulator bank that reaches SPARE_CTRL's limit takes a spare,
recorded for good, while one is left, and raises SPARE_EXHAUSTED otherwise (R153, R154); when its copy ends the row is
spared and its count starts from zero (R155).

Where the spec leaves a point open, the clauses rest on the model's choice or reading in log entry 126. -/
def Obligations.PaddockUpkeepAndRowSparing : Prop :=
  (∀ (s : State) (n bank : Nat), n < 42 → bank < 64 →
     (bit s.dev.padScrub 31 = true → (s.dev.site n).poison = [] →
       exec (.paddockScrub n bank true []) s = .next ⟨(s.dev.wake n).onSite n fun t => { t with
         scrub := sset 0 t.scrub bank ((sget 0 (s.dev.site n).scrub bank + 1) % 16384) }, s.pending⟩) ∧
     (∀ errs, bit s.dev.padScrub 31 = true → exec (.paddockScrub n bank false errs) s =
       .next ⟨{ s.dev.wake n with deferred := min (s.dev.deferred + 1) (2 ^ 32 - 1) }, s.pending⟩) ∧
     ((s.dev.site n).clearing = true → exec (.paddockClear n) s = .next ⟨
       ((s.dev.onSite n fun t => { t with
           pad := [], poison := [], poisonMem := [], veil := [], padCE := 0, padUE := 0, acc := [], live := [], owner := []
           badRows := t.badRows.filter (2 ^ 20 ≤ ·), clearing := false }).onHeft n
         fun h => { h with clear := false }.follow).supply, s.pending⟩)) ∧
  (∀ (s : State) (n b row : Nat), n < 42 → b < 8 → row < 1024 → n < s.dev.sites.length →
     let st : RowStore := .acc n b
     let k := st.key row
     (s.dev.hardLimit ≠ 0 → s.dev.hardLimit ≤ s.dev.rowCount st row + 1 → s.dev.copyingRow st row = false →
       let d := s.dev.setRowCount st row (s.dev.rowCount st row + 1)
       (s.dev.sparesUsed st < st.spares → exec (.rowSpare st row .corrected) s = .next ⟨d.takeSpare st row, s.pending⟩) ∧
       (st.spares ≤ s.dev.sparesUsed st →
         exec (.rowSpare st row .corrected) s = .next ⟨d.event .spareExhausted [0, n, b, row], s.pending⟩)) ∧
     (s.dev.copyingRow st row = true → exec (.rowRemapDone st row) s = .next ⟨
       s.dev.onSite n fun t => { t with
         rowErrs := sset 0 t.rowErrs k 0, copying := ndel t.copying k, spared := nins t.spared k }, s.pending⟩))

/-! ## Shears and collectives (07, 11) -/

/-- MEMORY_SHEARS_UPDATE: memory shears u carries out its oldest request alone. An elementwise request whose blocks
are free of poison writes each of its blocks in ascending order, a matrix request all it writes after all it reads; then
its increment is added to its done tally, and its drive may end (R166, R206, R218).

LINK_SHEARS_BLOCK_UPDATE of a block held under the oldest class 1 request of its plan and of the leaf in whose shard it
lies: the block is updated by the rule from its reduced gradient and written, alone, or with its mate once both of a pair
are updated; its copy record is handed to the plan's all-gather and its moments to the foster's packets, and the request
ends with its last block (R216, R222, R223, R339). A block beyond the request's count is BAD_OPERAND, #03 (R222), and a
block without a request waits (R224).

Where the spec leaves a point open, the clauses rest on the model's choice or reading in log entries 45, 46, 47 and 48. -/
def Obligations.ShearsCarryOutTheirRequests : Prop :=
  (∀ (s : State) (u : Nat) (r : ShearReq) (rest : List ShearReq) (d : Device),
     s.dev.shears.mem.getD u [] = r :: rest →
     let e := { s.dev with shears := { s.dev.shears with mem := s.dev.shears.mem.set u rest } }
     (r.cmd.rule = 0 ∨ r.cmd.rule = 1 →
       Device.shearBlocks r (if r.cmd.copyWord.pair ∧ r.cmd.copyWord.en then 2 else 1) (r.cmd.count / 2048) e 0 = (d, true) →
       exec (.memoryShearsUpdate u) s = .next ⟨(d.hubAdd r.fold r.done r.inc).endCheck r.fold, s.pending⟩) ∧
     (r.cmd.rule = 2 ∨ r.cmd.rule = 3 → e.shearMatrix r = (d, true) →
       exec (.memoryShearsUpdate u) s = .next ⟨(d.hubAdd r.fold r.done r.inc).endCheck r.fold, s.pending⟩)) ∧
  (∀ (s : State) (k plan j slot : Nat) (run : RunC) (p : PlanE) (grad : List Byte),
     s.dev.runOf plan = some (slot, run) → s.dev.planOf plan = some p → run.blocks.find? (·.1 = j) = some (j, grad) →
     let per := max 1 (s.dev.shardSize p / 8192)
     let leaf := s.dev.leavesHosted.getD (j / per) 64
     let i := j % per
     let asks := s.dev.shears.link.find? fun q => q.cmd.plan = plan && q.leaf = leaf
     (asks = none → exec (.linkShearsBlockUpdate k plan j) s = .next s) ∧
     (∀ r, k < 6 → asks = some r → r.cmd.count / 2048 ≤ i →
       exec (.linkShearsBlockUpdate k plan j) s = .next ⟨s.dev.stopDrive r.fold r.slot 0 0x03 r.pen r.addr, s.pending⟩) ∧
     (∀ r, k < 6 → asks = some r → i < r.cmd.count / 2048 →
       let x := r.cmd.state + i * blockSize
       let d := s.dev.transferRead r.fold x blockSize []
       d.poisonLocal r.fold x blockSize = false →
       let done := nins r.blocks i
       let mate := if i % 2 = 0 then i + 1 else i - 1
       let new := r.cmd.blockRule (wordsOfBytes grad) (d.stateBlock r.fold x)
       let whole := (List.range per).all fun q => done.contains q
       let d := { d with shears := { d.shears with link := d.shears.link.map fun q =>
         if q = r then { q with blocks := done } else q } }
       let d := d.onRun slot fun q => { q with blocks := q.blocks.filter (·.1 ≠ j) }
       let d := d.writeUpdated r (leaf * per) i new
       let d := if r.cmd.copyWord.pair = false then d.handBlock slot plan r p (leaf * per) i whole
         else if r.blocks.contains mate then
           (d.handBlock slot plan r p (leaf * per) (min i mate) whole).handBlock slot plan r p (leaf * per) (max i mate)
             (whole && max i mate = min i mate)
         else d
       exec (.linkShearsBlockUpdate k plan j) s = .next ⟨(d.endLinkShear r done.length).endRun slot, s.pending⟩))

/-- COLLECTIVE_START: the oldest accepted COLLECT, whose buffer reads without poison, takes the lowest free plan slot (R207,
R340): a reduction's partials are formed and kept or sent (R335), an all-gather's own shards and a broadcast's bytes are
written and spread (R337), and a broadcast of another device's root waits for its bytes. Then its done tally counts, and its
drive may end (R166, R207).

Packets of a running plan that reach the device their destination names on a keyed port with a good tag, none of
them marked for discard: REDUCE_DATA for a shard of this device adds its partial, its credits withheld as far as its blocks wait
for a class 1 request (R224, R335); GATHER_DATA and the data of a REPAIR land in the result area, and with the repair that ends
the run the detachment ends (R337, R345); a REPAIR without data asks a device that has ended that run for the range. MULTICAST_DATA
is delivered and forwarded once every egress has credits and delivery has room; without credits it stays, and then a hold of
local delivery is no longer timed; without room the stream is held back, and the hold timed (R343, R344). A detached member, or
one to which it is not delivered, forwards alone.

A detached member with room again asks its foster, where that is a member of the group, else the group's source, for what it
misses, once (REPAIR_REQUEST, R345); a repair not done 1,000,000 ticks after detachment declares the device failed with a
LAGGARD_FAIL event, and not earlier (R346).

Where the spec leaves a point open, the clauses rest on the model's choice or reading in log entries 24, 49, 50, 51, 52, 53, 54, 129 and 130. -/
def Obligations.CollectivesStartLandAndRepair : Prop :=
  (∀ (s : State) (c : Coll) (rest : List Coll) (slot : Nat) (p : PlanE) (es : List (Nat × Ecc)),
     s.dev.coll.queue = c :: rest → [0, 1, 2, 3].find? (fun i => (slook s.dev.coll.slots i).isNone) = some slot →
     s.dev.planOf c.plan = some p →
     let d := s.dev.transferRead c.fold c.buf c.bytes es
     d.poisonWords c.fold c.buf c.bytes = [] →
     let d := { d with coll := { d.coll with
       queue := rest, slots := sput d.coll.slots slot ⟨c, [], d.dueOf p, [], [], [], []⟩ } }
     let size := d.shardSize p
     let go (d : Device) : Prop :=
       exec (.collectiveStart es) s = .next ⟨(d.hubAdd c.fold c.done c.inc).endCheck c.fold, s.pending⟩
     (p.op ≤ 1 → go (d.startReduce slot c p)) ∧
     (p.op = 2 → go (d.leavesHosted.zipIdx.foldl (fun d x =>
       let bs := d.readLocal c.fold (c.buf + x.2 * size) size
       let d := d.writeLocal c.fold (p.out + x.1 * size) bs []
       (d.spread slot c.plan x.1 p (x.1 * size) bs true).shardDone slot c.fold x.1 p) d)) ∧
     (p.op = 3 → s.dev.leavesHosted.contains p.root = true →
       let bs := d.readLocal c.fold c.buf p.size
       go (((d.writeLocal c.fold p.out bs []).spread slot c.plan p.root p 0 bs true).shardDone slot c.fold 0 p)) ∧
     (p.op = 3 → s.dev.leavesHosted.contains p.root = false → go d)) ∧
  (∀ (s : State) (k : Nat) (p : Packet) (slot : Nat) (r : RunC) (e : PlanE),
     s.dev.runOf p.plan = some (slot, r) → s.dev.planOf p.plan = some e → (s.dev.link k).receives = true →
     p.tagOk = true → bit p.status 7 = false →
     let d := s.dev.owe k p
     (p.dst = s.dev.flock.rank → s.dev.hostOf (p.offset / s.dev.shardSize e) = s.dev.flock.rank →
       exec (.reduceData k p) s =
         .next ⟨((d.addPartial slot e ⟨p.leaf, p.node, p.offset, p.data⟩).withhold slot k p).endRun slot, s.pending⟩) ∧
     (p.dst = s.dev.flock.rank → exec (.gatherData k p) s = .next ⟨d.landGather slot r.coll.fold e p, s.pending⟩) ∧
     (∀ g, p.dst = s.dev.flock.rank → p.data ≠ [] → p.group = some g →
       let x := d.landGather slot r.coll.fold e p
       exec (.repair k p) s = .next ⟨if (x.runOf p.plan).isNone then x.setLag g none else x, s.pending⟩) ∧
     (p.dst = s.dev.flock.rank → p.data = [] → (∀ g, p.group = some g → s.dev.lagOf g = none) →
       p.tally ≤ sget 0 s.dev.coll.ended p.plan → exec (.repair k p) s = .next ⟨d.sendRepair e
         { d.packetTo p.src 3 10 with slot := p.slot, plan := p.plan, group := p.group } p.offset, s.pending⟩) ∧
     (∀ g x room, p.group = some g → slook s.dev.coll.groups g = some x →
       let sent := (x.outs (some k)).foldl (fun d o => d.transmit o { p with cls := d.classOut (some k) p.cls o }) d
       ((∃ o, o ∈ x.outs (some k) ∧ (s.dev.link o).maySend { p with cls := s.dev.classOut (some k) p.cls o } = false) →
         exec (.multicastData k p room) s = .next ⟨s.dev.stopHold g, s.pending⟩) ∧
       ((∀ o, o ∈ x.outs (some k) → (s.dev.link o).maySend { p with cls := s.dev.classOut (some k) p.cls o } = true) →
         (x.deliver = false ∨ (∃ l, s.dev.lagOf g = some l ∧ l.det = true) →
           exec (.multicastData k p room) s = .next ⟨sent, s.pending⟩) ∧
         (x.deliver = true → (∀ l, s.dev.lagOf g = some l → l.det = false) →
           (room = true → exec (.multicastData k p room) s =
             .next ⟨(sent.stopHold g).landGather slot r.coll.fold e p, s.pending⟩) ∧
           (room = false → exec (.multicastData k p room) s = .next ⟨s.dev.holdBack g k p, s.pending⟩))))) ∧
  (∀ (s : State) (g : Nat) (l : Lag), s.dev.lagOf g = some l → l.det = true →
     (∀ slot r e ge, l.asked = false → s.dev.runOf l.plan = some (slot, r) → s.dev.planOf l.plan = some e →
       slook s.dev.coll.groups g = some ge →
       let server := match s.dev.flock.foster with | some t => if bit ge.mask t then t else ge.src | none => ge.src
       let missed := if e.op = 3 then [l.off]
         else ((List.range s.dev.leafCount).filter fun h => !r.counted.contains h).map (· * s.dev.shardSize e)
       exec (.repairRequest g) s = .next ⟨missed.foldl (fun d o => d.sendTo { d.packetTo server 3 10 with
         slot := slot, plan := l.plan, group := some g, offset := o, tally := sget 0 d.coll.ended l.plan + 1 })
         (s.dev.setLag g (some { l with asked := true })), s.pending⟩) ∧
     (l.since + 1000000 ≤ s.dev.watch.age → exec (.laggardFail g) s =
       .next ⟨((s.dev.setLag g none).event .laggardFail [g]).declareFailed, s.pending⟩) ∧
     (s.dev.watch.age < l.since + 1000000 → exec (.laggardFail g) s = .next s))

/-! ## Rings, doorbells and descriptors (13) -/

/-- RING_ENABLE and RING_DISABLE of a ring that the function sees, in a request that R459 does not discard, with a legal
owner, size and link: a disabled ring that R404 and R459 admit is enabled with both positions at 0; an enabled SQ stops
fetching and, without descriptors in progress, is disabled at once; with some it drains (R403 to R405).

A doorbell write of a position outside its ring or its span halts the ring with cause 1 (R407); an accepted one
stores the host's position, and an arming write of an empty CQ arms it (R407, R410). A doorbell of a fold that is being
cleared is held until the fold is ready (R22).

A doorbell position is accepted exactly where its index lies in the ring and, for an SQ, it is at most the entry
count from the device's head and not behind the tail last accepted; for a CQ, it is not beyond the device's tail
(R407).

Where the spec leaves a point open, the clauses rest on the model's choice or reading in log entries 60, 63 and 133. -/
def Obligations.RingsAndDoorbellsComplete : Prop :=
  (∀ (s : State) (fn n value : Nat), s.dev.shut fn = false → n < 512 → s.dev.seesRing fn n = true →
     let r := s.dev.ring n
     let owner := if fn = 0 then bits value 30 27 else r.owner
     let size := bits value 26 22
     let link := bits value 21 13
     owner ≤ 8 → 6 ≤ size → size ≤ 16 →
     (r.state = 0 → s.dev.enableStatus n owner link = 0 → (s.dev.ring (512 + link)).state ≠ 3 →
       exec (.ringEnable fn n value) s = .next ⟨s.dev.setRing n { r with
         owner := owner, size := size, link := link, state := 1, cause := 0, pos := 0, host := 0
         arm := false, reserved := 0, held := [] }, s.pending⟩) ∧
     (r.state = 1 → owner = r.owner → size = r.size → link = r.link →
       let d := s.dev.stopFetch n
       (s.dev.descs.any (·.sq = n) = false → exec (.ringDisable fn n value) s = .next ⟨d.setRing n { r with
         state := 0, cause := 0, arm := false, reserved := 0, held := [] }, s.pending⟩) ∧
       (s.dev.descs.any (·.sq = n) = true →
         exec (.ringDisable fn n value) s = .next ⟨d.setRing n { r with state := 2, cause := 0, held := [] }, s.pending⟩))) ∧
  (∀ (s : State) (fn n value : Nat), s.dev.shut fn = false → n < 512 →
     (s.dev.seesRing fn n = true → (s.dev.ring n).state = 1 →
       let r := s.dev.ring n
       let clearing := r.owner < 8 ∧ (s.dev.fold r.owner).state = 1
       (clearing → exec (.sqDoorbell fn n 4 value) s =
         .next ⟨s.dev.setRing n { r with held := r.held ++ [value] }, s.pending⟩) ∧
       (¬clearing → r.accepts true value = true → exec (.sqDoorbell fn n 4 value) s =
         .next ⟨s.dev.setRing n { r with host := r.posOf value }, s.pending⟩) ∧
       (¬clearing → r.accepts true value = false → exec (.sqDoorbell fn n 4 value) s =
         .next ⟨((s.dev.stopFetch n).setRing n { r with state := 3, cause := 1 }).event .ringHalted [n, 1], s.pending⟩)) ∧
     (s.dev.seesRing fn (512 + n) = true → (s.dev.ring (512 + n)).state = 1 →
       (s.dev.ring (512 + n)).accepts false value = true →
       (bit value 31 = false → exec (.cqDoorbell fn n 4 value) s =
         .next ⟨s.dev.setRing (512 + n) { s.dev.ring (512 + n) with
           host := (s.dev.ring (512 + n)).posOf value }, s.pending⟩) ∧
       (bit value 31 = true → (s.dev.ring (512 + n)).posOf value = (s.dev.ring (512 + n)).pos →
         exec (.cqDoorbell fn n 4 value) s = .next ⟨s.dev.setRing (512 + n) { s.dev.ring (512 + n) with
           host := (s.dev.ring (512 + n)).posOf value, arm := true }, s.pending⟩))) ∧
  (∀ (r : Ring) (value : Nat),
     let p := r.posOf value
     (r.accepts true value = true ↔ bits value 15 0 < 2 ^ r.size ∧
       (p + 2 * 2 ^ r.size - r.pos) % (2 * 2 ^ r.size) ≤ 2 ^ r.size ∧
       (r.host + 2 * 2 ^ r.size - r.pos) % (2 * 2 ^ r.size) ≤ (p + 2 * 2 ^ r.size - r.pos) % (2 * 2 ^ r.size)) ∧
     (r.accepts false value = true ↔ bits value 15 0 < 2 ^ r.size ∧
       (p + 2 * 2 ^ r.size - r.host) % (2 * 2 ^ r.size) ≤ (r.pos + 2 * 2 ^ r.size - r.host) % (2 * 2 ^ r.size)))

/-- DESCRIPTOR_FETCH of an enabled SQ with a covered entry not asked for yet, where its CQ has an entry neither written nor
reserved: one CQ entry is reserved and the entry's 64 bytes are asked of host memory, at once under a free tag where no
read waits and the function may have one more (R400, R402, R408, R409). When they come the entry's descriptor is in progress
and the head moves on; then descriptors with a reserved opcode are turned away (R411). A failed fetch frees the reserved entry
and halts the SQ with cause 2 (R425).

The completion of a descriptor in progress takes it out of progress, and of no other; a quiet one that is OK only
frees its reserved entry; any other is written at its CQ's tail with the phase of R409, and an armed CQ is disarmed
and its interrupt sent, a tunnelled member's by packets of the bellwether's port (R350, R409, R410). The reserved entry is used
up in every case.

Where the spec leaves a point open, the clauses rest on the model's choice or reading in log entry 128. -/
def Obligations.DescriptorsReserveAndUseOneEntry : Prop :=
  (∀ (s : State) (sq : Nat), sq < 512 →
     let r := s.dev.ring sq
     let c := 512 + r.link
     let cq := s.dev.ring c
     let src := ownerFn r.owner
     (r.state = 1 → r.pos ≠ r.host → cq.state = 1 → cq.room ≠ 0 → s.dev.hport.fetching sq = false →
       s.dev.hport.waiting = [] → s.dev.hport.may src = true → 64 ≤ s.dev.hport.maxRead →
       let q : HostReq := ⟨src, .fetch sq, 0, r.base + 64 * (r.pos % 2 ^ r.size), 64⟩
       let tag := s.dev.hport.freeTag
       let d := s.dev.setRing c { cq with reserved := cq.reserved + 1 }
       exec (.descriptorFetch sq) s = .next ⟨({ d with hport := { d.hport with
         tags := d.hport.tags ++ [(tag, src, some q)], turn := src } } : Device).readOut tag q, s.pending⟩) ∧
     (∀ tag src q d, q.job = .fetch sq → s.dev.returned tag src q d →
       (∀ bs : List Byte, bs.length = q.len →
         exec (.hostReadCompletion tag (.data bs)) s = .next ⟨Device.serveReads 4096 (Device.sweepGo 16
           ({ d with
             descs := d.descs ++ [(⟨sq, r.pos % 2 ^ r.size, bs, d.fetchOrder, false, 0⟩ : Desc)]
             fetchOrder := d.fetchOrder + 1 }.setRing sq { r with pos := (r.pos + 1) % (2 * 2 ^ r.size) }) sq), s.pending⟩) ∧
       (exec (.hostReadCompletion tag .abort) s = .next ⟨Device.serveReads 4096
         ((d.setRing c { cq with reserved := cq.reserved - 1 }).haltRing sq 2), s.pending⟩))) ∧
  (∀ (d : Device) (sq idx status detail : Nat) (x : Desc), sq < 512 →
     d.desc sq idx = some x → x.sq = sq → (d.ring sq).state = 1 →
     let c := 512 + (d.ring sq).link
     let cq := d.ring c
     cq.state = 1 →
     let e := d.finish sq idx status detail
     e.descs = d.descs.filter (fun y => !(y.sq = sq ∧ y.idx = idx)) ∧
     (e.ring c).reserved = cq.reserved - 1 ∧
     (x.quiet = true → status = 0 → e.host = d.host ∧ (e.ring c).pos = cq.pos ∧ e.out = d.out) ∧
     ((x.quiet = false ∨ status ≠ 0) →
       (d.tunnelled = false → e.host = d.host.store (cq.base + 16 * (cq.pos % 2 ^ cq.size))
         (cqEntry x ((d.ring sq).pos % 2 ^ (d.ring sq).size) detail status (1 - cq.pos / 2 ^ cq.size % 2))) ∧
       (e.ring c).pos = (cq.pos + 1) % (2 * 2 ^ cq.size) ∧ (e.ring c).arm = false ∧
       (cq.arm = false → d.tunnelled = false → e.out = d.out) ∧
       (cq.arm = true → d.tunnelled = false → e.out = d.out ++ [.msix (ownerFn cq.owner) cq.link])) ∧
     e.sites = d.sites ∧ e.folds = d.folds ∧ e.mem = d.mem ∧ e.gtally = d.gtally ∧
     (∀ m, m ≠ c → e.ring m = d.ring m))

/-- DMA whose checks pass and whose wait, if it has one, is over. To the host the range is written to host memory where the
read finds none of its words poisoned, the tally is incremented and the descriptor completes OK with its length. From the
host the descriptor stands started, the pages it touches become dirty (R374) and its reads are asked for; the bytes of each
land piece by piece where no paddock of the range is being cleared, and with the last of them the tally is incremented and the
descriptor completes OK with its length (R402, R412, R413, R426).

What a DMA completes with instead: the first of alignment, address and tally that fails, before any byte moves
(R412); HOST_ABORT or HOST_TIMEOUT for a failed read, whose range then holds open bytes (R425).

Where the spec leaves a point open, the clauses rest on the model's choice or reading in log entries 11, 24, 58 and 128. -/
def Obligations.DmaMovesTheRangeOrRefuses : Prop :=
  (∀ (s : State) (sq idx : Nat) (x : Desc),
     let m := s.dev.dmaFor sq x.bytes
     let f := s.dev.ringFold sq
     (∀ es, s.dev.takesUp sq idx 0x01 x → s.dev.dmaStatus sq m = 0 →
       (m.wt = true → s.dev.tallyReached f m.wtally m.wthr = true) →
       (m.toHost = false → exec (.dma sq idx es) s = .next ⟨
         ((s.dev.markStarted sq idx).noteDirty f m.loc m.len).askDma (ownerFn (s.dev.ring sq).owner) (.ring sq idx) m.host m.len,
         s.pending⟩) ∧
       (m.toHost = true →
         let e := s.dev.transferRead f m.loc m.len es
         e.poisonIn f m.loc m.len = [] →
         let d := e.hostWrite m.host (e.readLocal f m.loc m.len)
         exec (.dma sq idx es) s = .next ⟨
           (if m.inc ≠ 0 then d.tallyAdd f m.tally m.inc else d).complete sq idx 0 m.len, s.pending⟩)) ∧
     (∀ tag src q bs d e k, q.job = .ring sq idx → s.dev.returned tag src q d → s.dev.desc sq idx = some x →
       bs.length = q.len → d.landPieces f bs (m.loc + q.off) (windowsOf (m.loc + q.off) bs.length) 0 = (e, k, true) →
       let due := ((d.hport.moves.find? (·.1 = q.job)).map (·.2)).getD (q.len, 0)
       exec (.hostReadCompletion tag (.data bs)) s = .next ⟨Device.serveReads 4096 (
         if due.1 ≤ bs.length then (if m.inc ≠ 0 then e.tallyAdd f m.tally m.inc else e).complete sq idx 0 m.len
         else { e with hport := { e.hport with moves := e.hport.moves.map fun y =>
           if y.1 = q.job then (y.1, due.1 - bs.length, due.2 + bs.length) else y } }), s.pending⟩)) ∧
  (∀ (s : State) (sq idx : Nat) (x : Desc),
     let m := s.dev.dmaFor sq x.bytes
     let f := s.dev.ringFold sq
     (∀ es, s.dev.takesUp sq idx 0x01 x → s.dev.dmaStatus sq m ≠ 0 →
       exec (.dma sq idx es) s = .next ⟨s.dev.complete sq idx (s.dev.dmaStatus sq m) 0, s.pending⟩) ∧
     (∀ tag src q d, q.job = .ring sq idx → s.dev.returned tag src q d → s.dev.desc sq idx = some x →
       exec (.hostReadCompletion tag .abort) s = .next ⟨Device.serveReads 4096
         ((d.undefine f m.loc m.len).complete sq idx 0x0E 0), s.pending⟩ ∧
       exec (.hostReadCompletion tag .timeout) s = .next ⟨Device.serveReads 4096
         ((d.undefine f m.loc m.len).complete sq idx 0x0F 0), s.pending⟩))

/-- TALLY_ADD and WAIT descriptors that name a tally of their fold: TALLY_ADD adds once and completes OK; a WAIT
completes OK where its tally has reached the threshold, else it starts at the watch count; once its deadline has
passed short of the threshold it completes with WAIT_TIMEOUT and the tally's value (R199, R414).

LAUNCH into a free slot of a fold that is ready, whose function may read host memory (R22, R402), with a launch block and
step blocks that pass every check of R415 and R416 and an extent that no resident drive's overlaps, its first step in keeping
with any original record it names (R387): the drive is resident with its first step, its batch DMAs start, and the
descriptor completes OK.

Where the spec leaves a point open, the clauses rest on the model's choice or reading in log entries 64, 70 and 128. -/
def Obligations.TallyWaitAndLaunchDescriptors : Prop :=
  (∀ (s : State) (sq idx : Nat) (x : Desc),
     let f := s.dev.ringFold sq
     let id := x.u 8 4 % 2 ^ 17
     (s.dev.takesUp sq idx 0x02 x → s.dev.tallyStatus sq id = 0 →
       exec (.tallyAddDescriptor sq idx) s =
         .next ⟨(s.dev.tallyAdd f id (x.u 12 4)).complete sq idx 0 0, s.pending⟩) ∧
     (s.dev.takesUp sq idx 0x03 x → s.dev.tallyStatus sq id = 0 → s.dev.tallyReached f id (x.u 12 4) = true →
       exec (.wait sq idx) s = .next ⟨s.dev.complete sq idx 0 0, s.pending⟩) ∧
     (s.dev.takesUp sq idx 0x03 x → s.dev.tallyStatus sq id = 0 → s.dev.tallyReached f id (x.u 12 4) = false →
       exec (.wait sq idx) s = .next ⟨{ s.dev with descs := s.dev.descs.map fun y =>
         if y.sq = sq ∧ y.idx = idx then { y with started := true, start := s.dev.now } else y }, s.pending⟩) ∧
     (∀ p, s.dev.desc sq idx = some x → x.op = 0x03 → x.started = true → x.u 16 4 ≠ 0 →
       x.start + x.u 16 4 ≤ s.dev.now → s.dev.tallyReached f id (x.u 12 4) = false → s.dev.tallyAt f id = some p →
       exec (.waitTimeout sq idx) s = .next ⟨s.dev.complete sq idx 0x0D (s.dev.tallyGet p).toNat, s.pending⟩)) ∧
  (∀ (s : State) (sq idx : Nat) (x : Desc) (b : List Byte) (reads : StepReads) (r : StepRec) (ms : List DmaD),
     s.dev.takesUp sq idx 0x10 x → x.u 8 8 % 64 = 0 →
     let f := s.dev.ringFold sq
     let v := driveOf b s.dev.leavesHosted
     (s.dev.fold f).state ≠ 1 → s.dev.mayRead (ownerFn (s.dev.ring sq).owner) = true →
     s.dev.drive f x.slot = none → b.length = 1024 →
     (s.dev.launchFaults f v (u b 0xE4 4)).find? (·.2) = none → s.dev.overlap f v = none →
     s.dev.prepStep f v v.first 0 (bit (u b 0xE4 4) 1) none reads = .ok (r, ms) →
     let r := if bit (u b 0xE4 4) 1 then r else { r with starts := some (v.streams.map (·.1)) }
     s.dev.digestBad f v r = none →
     exec (.launch sq idx (.data b) reads) s = .next ⟨(s.dev.install f x.slot v r ms).complete sq idx 0 0, s.pending⟩)

/-- STEP, STEP_PREPARE, STEP_OPEN and STEP_CLOSE of an unlogged drive: the STEP of the next number starts, its blocks
that pass R417 and R418 make it the prepared step, whose batch DMAs start, it opens once no step is open with the watch
base at the watch count, and an open step that every pen has reached closes and completes its STEP OK (R356, R361,
R417 to R419).

STEP_CLOSE of a logged drive whose records match any replay's: the records of its leaves are written, the step is
closed, its STEP completes OK with bit 0 for a snapshot step and bit 1 for an export step, and what follows a close
begins (R352 to R365, R419). A row of the studbook buffer that reports a correctable error meanwhile is counted, and may take a
spare (R154).

HOST_READ_COMPLETION of a batch DMA's read: its bytes land, and with the last of them its tally is incremented (R413,
R418); a read that fails stops the drive with the ring status and a stream address of zero (R420).

Where the spec leaves a point open, the clauses rest on the model's choice or reading in log entries 57, 66, 71 and 128. -/
def Obligations.StepsOpenAndClose : Prop :=
  (∀ (s : State) (v : Drive),
     (∀ sq idx x, s.dev.takesUp sq idx 0x11 x → s.dev.drive (s.dev.ringFold sq) x.slot = some v →
       x.u 8 8 % 64 = 0 → v.stopped = none → s.dev.stepsStarted (s.dev.ringFold sq) x.slot v = [] →
       v.prepared = none → x.u 16 8 = (v.last + 1) % 2 ^ 48 →
       exec (.stepDescriptor sq idx) s = .next ⟨{ s.dev with descs := s.dev.descs.map fun y =>
         if y.sq = sq ∧ y.idx = idx then { y with started := true, start := s.dev.now } else y }, s.pending⟩) ∧
     (∀ sq idx x reads r ms, s.dev.desc sq idx = some x → x.op = 0x11 → x.started = true →
       s.dev.mayRead (ownerFn (s.dev.ring sq).owner) = true →
       s.dev.drive (s.dev.ringFold sq) x.slot = some v → v.prepared = none → v.abandoned = false →
       (s.dev.stepsStarted (s.dev.ringFold sq) x.slot v).head? = some x → x.u 16 8 = (v.last + 1) % 2 ^ 48 →
       s.dev.prepStep (s.dev.ringFold sq) v (x.u 16 8) (x.u 24 8) (bit (x.u 32 1) 0) (some (sq, idx)) reads =
         .ok (r, ms) →
       s.dev.digestBad (s.dev.ringFold sq) v r = none →
       exec (.stepPrepare sq idx reads) s = .next ⟨(s.dev.onDrive (s.dev.ringFold sq) x.slot fun v => { v with
         prepared := some r, last := x.u 16 8, dmas := v.dmas ++ numberDmas (x.u 16 8) ms }).startBatches
           (s.dev.ringFold sq) x.slot, s.pending⟩) ∧
     (∀ f slot r, s.dev.drive f slot = some v → v.unlogged = true → v.prepared = some r → v.opened = none →
       v.stopped = none → v.abandoned = false → s.dev.flock.state ≠ 3 →
       exec (.stepOpen f slot) s = .next ⟨s.dev.openStep f slot r (false, false), s.pending⟩) ∧
     (∀ f slot r, s.dev.drive f slot = some v → v.unlogged = true → v.opened = some r → v.stopped = none →
       s.dev.mayClose f slot = true →
       exec (.stepClose f slot none) s = .next ⟨(s.dev.onDrive f slot fun v => { v with
         opened := none, closed := some r.number, past := v.past ++ [(r.number, v.chain)] }).completeStep (some r) 0 0,
         s.pending⟩)) ∧
  (∀ (s : State) (f slot : Nat) (v : Drive) (r : StepRec),
     (s.dev.drive f slot = some v → v.unlogged = false → v.opened = some r → v.stopped = none →
       s.dev.mayClose f slot = true → s.dev.seedSent v r.number = true → s.dev.recordBad f v r = none →
       exec (.stepClose f slot none) s = .next ⟨
         (((s.dev.writeRecords f slot r).onDrive f slot fun v => { v with
           opened := none, closed := some r.number, past := v.past ++ [(r.number, v.chain)] }).completeStep (some r) 0
             ((if r.snap then 1 else 0) + (if r.exp then 2 else 0))).afterClose f slot r, s.pending⟩) ∧
     (∀ row, row < 2048 →
       exec (.stepClose f slot (some (row, .corrected))) s =
         exec (.stepClose f slot none) ⟨s.dev.rowReport .studbook row .corrected, s.pending⟩)) ∧
  (∀ (s : State) (tag src f slot k : Nat) (q : HostReq) (d : Device) (v : Drive) (m : DmaD),
     q.job = .batch f slot k → s.dev.returned tag src q d →
     s.dev.drive f slot = some v → slook v.dmas k = some m → v.stopped = none →
     let gone (d : Device) : Device := (d.dropJobs fun j => decide (j = .batch f slot k)).onDrive f slot fun v =>
       { v with dmas := v.dmas.filter (·.1 ≠ k) }
     (∀ bs e n, bs.length = q.len →
       d.landPieces f bs (m.loc + q.off) (windowsOf (m.loc + q.off) bs.length) 0 = (e, n, true) →
       (((d.hport.moves.find? (·.1 = q.job)).map (·.2)).getD (q.len, 0)).1 ≤ bs.length →
       exec (.hostReadCompletion tag (.data bs)) s = .next ⟨Device.serveReads 4096
         (if m.inc ≠ 0 then (gone e).tallyAdd f m.tally m.inc else gone e), s.pending⟩) ∧
     (exec (.hostReadCompletion tag .abort) s = .next ⟨Device.serveReads 4096
       ((gone (d.undefine f m.loc m.len)).stopDrive f slot 1 0x0E 0 0), s.pending⟩))

/-- RUN and END: RUN of the drive that already runs completes OK at once; RUN of another resident drive while one runs
stops the running one, and every pen of the fold, for the change (R82, R205, R421); END of a resident drive ends it, writes
its report where one is asked for, releases the slot and completes OK (R422).

PLAN, GROUP_OPEN and GROUP_CLOSE: PLAN writes its entry on an active member of a formed flock, for a plan with no
unfinished COLLECT, and tells the bellwether of the group it names (R423, R424); on the bellwether of a formed flock GROUP_OPEN builds the lowest free group and returns its
number, and GROUP_CLOSE frees a group that no plan names, on every member (R342, R424).

Where the spec leaves a point open, the clauses rest on the model's choice or reading in log entries 39, 59, 65 and 131. -/
def Obligations.RunEndPlanAndGroups : Prop :=
  (∀ (s : State) (sq idx : Nat) (x : Desc) (v : Drive),
     let f := s.dev.ringFold sq
     s.dev.drive f x.slot = some v →
     (s.dev.takesUp sq idx 0x12 x → v.stopped = none → (s.dev.fold f).running = some x.slot →
       exec (.run sq idx) s = .next ⟨s.dev.complete sq idx 0 0, s.pending⟩) ∧
     (∀ o, s.dev.takesUp sq idx 0x12 x → v.stopped = none → v.ended = false → (s.dev.fold f).running = some o →
       o ≠ x.slot → (s.dev.fold f).incoming = none →
       let d := ((s.dev.markStarted sq idx).onDrive f o fun v => { v with paused := some s.dev.now }).onFold f fun o =>
         { o with incoming := some x.slot }
       exec (.run sq idx) s = .next ⟨(d.foldSites f).foldl (fun d n => d.stopPen n .preempt) d, s.pending⟩) ∧
     (s.dev.takesUp sq idx 0x13 x → x.u 8 8 = 0 →
       exec (.endDescriptor sq idx) s =
         .next ⟨((s.dev.endDrive f x.slot).releaseSlot f x.slot).complete sq idx 0 0, s.pending⟩) ∧
     (∀ w, s.dev.takesUp sq idx 0x13 x → x.u 8 8 ≠ 0 → x.u 8 8 % 64 = 0 →
       let d := s.dev.endDrive f x.slot
       d.drive f x.slot = some w →
       exec (.endDescriptor sq idx) s = .next ⟨
         (((d.hostWrite (x.u 8 8) (d.driveReport w)).draw).releaseSlot f x.slot).complete sq idx 0 0, s.pending⟩)) ∧
  (∀ (s : State) (sq idx : Nat) (x : Desc),
     (s.dev.takesUp sq idx 0x20 x → s.dev.foldCount = 1 → s.dev.active = true → s.dev.flock.state = 2 →
       s.dev.planBusy (x.u 8 1) = false → s.dev.planFault x = none →
       let group := if bit (x.u 12 2) 8 then some (x.u 12 1) else none
       let d := { s.dev with coll := { s.dev.coll with
         plans := sput s.dev.coll.plans (x.u 8 1)
           { op := x.u 9 1, fmt := x.u 10 1, shears := bit (x.u 11 1) 0, foster := bit (x.u 11 1) 1
             group := group, root := x.u 14 1, size := x.u 16 8
             out := x.u 24 8, tally := bits (x.u 32 4) 16 0, inc := bits (x.u 32 4) 24 17 } } }
       exec (.plan sq idx) s = .next ⟨
         (if s.dev.flock.isBell then d else d.tellBell (.manage (.planGroup s.dev.flock.rank (x.u 8 1) group))).complete
           sq idx 0 0, s.pending⟩) ∧
     (∀ g e, s.dev.takesUp sq idx 0x21 x → s.dev.leads = true →
       (List.range 256).find? (fun g => (slook s.dev.coll.live g).isNone) = some g →
       let d := { s.dev with
         coll := { s.dev.coll with live := sput s.dev.coll.live g (ranksOf (x.u 16 8)) }
         flock := { s.dev.flock with groupsLive := s.dev.flock.groupsLive + 1 } }
       d.groupEntry (x.u 8 1) (x.u 16 8) d.flock.rank = some e →
       let d := d.setGroup g (some e)
       exec (.groupOpen sq idx) s = .next ⟨
         (d.tellMembers fun r => (d.groupEntry (x.u 8 1) (x.u 16 8) r).map fun e => .group g (some e)).complete
           sq idx 0 g, s.pending⟩) ∧
     (s.dev.takesUp sq idx 0x22 x → s.dev.leads = true →
       s.dev.coll.plans.any (fun e => e.2.group = some (x.u 8 1)) = false →
       s.dev.coll.named.any (fun e => e.2.2 = x.u 8 1) = false →
       (slook s.dev.coll.live (x.u 8 1)).isSome = true →
       exec (.groupClose sq idx) s = .next ⟨
         (({ s.dev with
           coll := { s.dev.coll with live := sdel s.dev.coll.live (x.u 8 1) }
           flock := { s.dev.flock with groupsLive := s.dev.flock.groupsLive - 1 } }.setGroup (x.u 8 1) none).tellMembers
             fun _ => some (.group (x.u 8 1) none)).complete sq idx 0 0, s.pending⟩))

/-! ## Setup registers, folds, sites and functions (01, 15, 17) -/

/-- FOLDCFG_COUNT through PF0: a count other than 1, 2, 4 or 8 is refused with BAD_VALUE and a change that R20 forbids
with FOLD_BUSY, in WRSTAT; an accepted one changes the fold count, of which the bellwether
hears (R20, R21, R367, R525, R529).

After an accepted fold-count change FOLDCFG.count holds the new count, every tally is 0, no drive is resident, every
named fold is clearing and the others are absent, and every paddock is being cleared (R20, R21). -/
def Obligations.FoldCountWritesAndClears : Prop :=
  (∀ (s : State) (value : Nat), s.dev.shut 0 = false →
     (s.dev.countStatus (value % 16) = 0 → exec (.foldcfgCount 0 value) s =
       .next ⟨(s.dev.changeCount (value % 16)).tellFolds (value % 16), s.pending⟩) ∧
     (value % 16 ∉ [1, 2, 4, 8] → exec (.foldcfgCount 0 value) s =
       .next ⟨s.dev.refuse 0 0x0A 0x30000 false, s.pending⟩) ∧
     (value % 16 ∈ [1, 2, 4, 8] → s.dev.anyDrive = true → exec (.foldcfgCount 0 value) s =
       .next ⟨s.dev.refuse 0 0x03 0x30000 false, s.pending⟩)) ∧
  (∀ (d : Device) (f : Nat), d.countStatus f = 0 → d.sites.length = 42 → d.folds.length = 8 →
     let e := d.changeCount f
     e.foldCount = f ∧ e.gtally = [] ∧ (∀ n, n < 42 → (e.site n).tally = [] ∧ (e.site n).clearing = true) ∧
     (∀ g, g < 8 → (e.fold g).drives = [] ∧ (e.fold g).key = .none ∧ (e.fold g).epoch = (d.fold g).epoch + 1 ∧
       (e.fold g).state = if g < f then 1 else 0))

/-- FOLD_HANDOVER through PF0 of a ready fold without a drive, in full service outside a recovery: a function-level
reset of its VF, and its fault record is cleared (R530, R532); with a drive resident it is refused with FOLD_BUSY
(R531). FOLD_READY of a fold whose clear has ended: the fold of a handover, or every fold of a fold-count change, gets its key
and is ready, and the doorbells held for it are accepted (R21, R22, R452).

SITE_CTRL through PF0 in full service: `retire` of a spare site retires it for good, of a pen of a fold retires
the pen (R71), outside full service it is refused with NOT_FULL_SERVICE; `clear_counts` clears SITE_MISMATCH and
SITE_LOST_NAN and no other count.

Where the spec leaves a point open, the clauses rest on the model's choice or reading in log entries 101, 103, 131 and 133. -/
def Obligations.FoldAndSiteCommandsComplete : Prop :=
  (∀ (s : State) (f : Nat), f < 8 →
     (s.dev.shut 0 = false → (s.dev.fold f).drives = [] → (s.dev.fold f).state = 2 → s.dev.flock.state ≠ 3 →
       s.dev.full = true →
       exec (.foldHandover 0 f) s = .next ⟨(s.dev.resetVf f).onFold f fun o => { o with
         fValid := false, fSource := 0, fSlot := 0, fPen := 0, fStatus := 0, fAddr := 0, fWatch := 0 }, s.pending⟩) ∧
     (s.dev.shut 0 = false → (s.dev.fold f).drives ≠ [] → exec (.foldHandover 0 f) s =
       .next ⟨s.dev.refuse 0 0x03 (0x30100 + f * 0x40 + 8) false, s.pending⟩) ∧
     ((s.dev.fold f).state = 1 → s.dev.cleared f = true → s.dev.sec.drbg = true →
       let fs := if (s.dev.fold f).handover then [f]
         else (List.range 8).filter fun g => (s.dev.fold g).state = 1 && !(s.dev.fold g).handover
       let d := fs.foldl (fun d g => d.drawKey g) s.dev.needRoot
       let d := fs.foldl (fun d g => d.onFold g fun o => { o with state := 2, handover := false }) d
       f ∈ fs ∧ exec (.foldReady f) s = .next ⟨fs.foldl (fun d g => d.ringHeld g) d, s.pending⟩)) ∧
  (∀ (s : State) (n : Nat), s.dev.shut 0 = false → n < 42 →
     (s.dev.full = true → s.dev.inFold n = false → (s.dev.site n).state = 1 →
       let d := (s.dev.onSite n fun t => { t with state := 2 }).event .penRetired [n, 63]
       exec (.siteCtrlRetire 0 n) s = .next ⟨{ d with
         persist := { d.persist with retired := nins d.persist.retired n } }, s.pending⟩) ∧
     (s.dev.full = true → s.dev.inFold n = true →
       exec (.siteCtrlRetire 0 n) s = .next ⟨s.dev.retirePen n, s.pending⟩) ∧
     (s.dev.full = false → exec (.siteCtrlRetire 0 n) s =
       .next ⟨s.dev.refuse 0 0x02 (0x40000 + n * 0x1000 + 0x20) false, s.pending⟩) ∧
     exec (.siteCtrlClearCounts 0 n) s = .next ⟨s.dev.onSite n fun t => { t with mismatch := 0, lostNan := 0 }, s.pending⟩)

/-- TRACE_CTRL through PF0: 1 starts a capture into a clean buffer unless studbook logging
runs, which refuses it with LOGGING; 0 stops it (R496, R536).

Writes of plain fields through PF0 where the register takes them: the HEFT_CTRL of a gated heft, PWR_LIMIT,
PAD_SCRUB, SPARE_CTRL, ARB_HOLD, ARB_SITE_RD and MEM_SCRUB take their fields and nothing else changes; a write that
no register takes changes nothing (R7, R522). A gated heft whose gating is switched off runs again (R271).

A row that writes a register changes nothing through a function outside its IDE stream in approved mode, in the recovery
function and in the error state (R459, R524).

Where the spec leaves a point open, the clauses rest on the model's choice or reading in log entries 106, 119 and 133. -/
def Obligations.TraceAndPlainRegisterWrites : Prop :=
  (∀ (s : State) (value : Nat), s.dev.shut 0 = false →
     (bit value 0 = true → s.dev.logging = false → exec (.traceEnable 0 value) s = .next ⟨{ s.dev with
       trace := { s.dev.trace with enable := true, wrapped := false, lost := 0, next := 0, buf := [] } }, s.pending⟩) ∧
     (bit value 0 = true → s.dev.logging = true →
       exec (.traceEnable 0 value) s = .next ⟨s.dev.refuse 0 0x09 0x20030 false, s.pending⟩) ∧
     (bit value 0 = false → exec (.traceEnable 0 value) s = .next ⟨{ s.dev with
       trace := { s.dev.trace with enable := false } }, s.pending⟩)) ∧
  (∀ (s : State) (v : Nat), s.dev.outside 0 = false → v < 2 ^ 32 →
     (∀ off, s.dev.takesWrite 0 off = false → off % 4 = 0 → (off < 0x200000 ∨ (0x300000 ≤ off ∧ off < 0x1000000)) →
       exec (.registerWrite 0 off 4 v) s = .next s) ∧
     (∀ h, h < 46 → s.dev.takesWrite 0 (0x10000 + h * 16) = true →
       exec (.registerWrite 0 (0x10000 + h * 16) 4 v) s = .next ⟨s.dev.onHeft h fun x => { x with
         ceiling := bits v 2 0, gateEn := bit v 3, stopped := x.stopped && bit v 3 }, s.pending⟩) ∧
     (s.dev.takesWrite 0 0x20000 = true → exec (.registerWrite 0 0x20000 4 v) s =
       .next ⟨{ s.dev with power := { s.dev.power with limit := bits v 10 0 } }, s.pending⟩) ∧
     (s.dev.takesWrite 0 0xA0000 = true → exec (.registerWrite 0 0xA0000 4 v) s =
       .next ⟨{ s.dev with padScrub := (if bit v 31 then 2 ^ 31 else 0) + bits v 23 0 }, s.pending⟩) ∧
     (s.dev.takesWrite 0 0xA0010 = true → exec (.registerWrite 0 0xA0010 4 v) s =
       .next ⟨{ s.dev with hardLimit := bits v 2 0 }, s.pending⟩) ∧
     (s.dev.takesWrite 0 0xC2000 = true → exec (.registerWrite 0 0xC2000 4 v) s =
       .next ⟨{ s.dev with fabric := { s.dev.fabric with hold := bits v 9 0 } }, s.pending⟩) ∧
     (∀ n, n < 42 → s.dev.takesWrite 0 (0xC0000 + n * 16) = true →
       exec (.registerWrite 0 (0xC0000 + n * 16) 4 v) s = .next ⟨s.dev.onSite n fun t => { t with arbRd := v }, s.pending⟩) ∧
     (s.dev.takesWrite 0 0xD0008 = true → exec (.registerWrite 0 0xD0008 4 v) s =
       .next ⟨{ s.dev with mem := { s.dev.mem with scrub := (if bit v 31 then 2 ^ 31 else 0) + bits v 23 0 } }, s.pending⟩)) ∧
  (∀ (s : State) (fn n v w : Nat), s.dev.shut fn = true →
     exec (.traceEnable fn v) s = .next s ∧ exec (.foldcfgCount fn v) s = .next s ∧ exec (.foldHandover fn n) s = .next s ∧
     exec (.siteCtrlRetire fn n) s = .next s ∧ exec (.siteCtrlClearCounts fn n) s = .next s ∧
     exec (.ringEnable fn n v) s = .next s ∧ exec (.ringDisable fn n v) s = .next s ∧
     exec (.sqDoorbell fn n w v) s = .next s ∧ exec (.cqDoorbell fn n w v) s = .next s ∧
     exec (.watchReload fn) s = .next s ∧ (∀ ms, exec (.flockForm fn ms) s = .next s) ∧
     (∀ rs, exec (.flockDissolve fn rs) s = .next s) ∧ (∀ m, exec (.recovReadmit fn n m) s = .next s) ∧
     exec (.recovHandover fn n) s = .next s ∧ exec (.exportDone fn) s = .next s ∧ exec (.recovSignArm fn v) s = .next s ∧
     exec (.recovSnapatArm fn v) s = .next s ∧ exec (.linkCtrlRetrain fn n v) s = .next s)

/-- A refused write or a faulted aperture access is recorded in WRSTAT and WRSTAT_OFFSET of its own function and
changes nothing else; the count saturates (R525, R534).

The aperture of a function (R533, R534): a word-aligned read inside the fold, free of poison, answers with the
bytes at the aperture's local addresses; a word-aligned write to a range that is not being cleared stores its bytes;
a misaligned access faults with PADDOCK_ALIGN and one outside the fold with ADDRESS_NOT_OWNED, with zeros for a read.

Where the spec leaves a point open, the clauses rest on the model's choice or reading in log entries 24, 117 and 133. -/
def Obligations.AperturesAndRefusals : Prop :=
  (∀ (d : Device) (fn status off : Nat) (ap : Bool), fn < d.fns.length →
     let e := d.refuse fn status off ap
     e.fn fn = { d.fn fn with valid := true, status := status, count := min ((d.fn fn).count + 1) (2 ^ 16 - 1), kind := ap, offset := off % 2 ^ 25 } ∧
     (∀ g, g ≠ fn → e.fn g = d.fn g) ∧ { e with fns := d.fns } = d) ∧
  (∀ (s : State) (fn off width value : Nat) (es : List (Nat × Ecc)), s.dev.outside fn = false →
     s.dev.apOpen fn = true →
     let y := off % 2 ^ 20
     let x := s.dev.apAddr fn y
     let f := apFold fn
     (s.dev.apStatus fn y width = 0 →
       let d := s.dev.transferRead f x width es
       d.poisonIn f x width = [] →
       exec (.apertureRead fn off width es) s =
         .next ⟨d.emit (.reply (.host fn) (d.readLocal f x width)), s.pending⟩) ∧
     (s.dev.apStatus fn y width = 0 → s.dev.clearingAt f x = false → s.dev.clearingAt f (x + width - 1) = false →
       exec (.apertureWrite fn off width value) s =
         .next ⟨(s.dev.writeLocal f x (leBytes width value) []).noteDirty f x width, s.pending⟩) ∧
     (y % 8 ≠ 0 →
       exec (.apertureRead fn off width es) s = .next ⟨(s.dev.refuse fn 0x0C (0x200000 + y) true).emit
         (.reply (.host fn) (zeros width)), s.pending⟩ ∧
       exec (.apertureWrite fn off width value) s = .next ⟨s.dev.refuse fn 0x0C (0x200000 + y) true, s.pending⟩) ∧
     (y % 8 = 0 → width % 8 = 0 → width ≠ 0 → fn ≤ s.dev.foldCount → (fn = 0 → s.dev.foldCount = 1) →
       s.dev.owns f x width = false →
       exec (.apertureWrite fn off width value) s = .next ⟨s.dev.refuse fn 0x0B (0x200000 + y) true, s.pending⟩))

/-- SEC_CTRL_ZEROISE with #A5 through PF0: everything volatile is destroyed, a cote-generation fuse burns, the stored
record goes, and the folds are rebuilt (R428, R461, R462); another value does nothing. FUNCTION_LEVEL_RESET of PF0 and of
a VF, and HOST_PORT_RESET (R406, R492, R528). ENTER_FULL_SERVICE when the conditions of R483 hold: the recovery function
ends with the drives of the implicit fold, the pens are mapped into one fold with its own key, and every heft follows its
divider.

Where the spec leaves a point open, the clauses rest on the model's choice or reading in log entries 61, 100, 101, 102 and 133. -/
def Obligations.ResetsAndFullServiceComplete : Prop :=
  ∀ (s : State),
    exec (.secCtrlZeroise 0 0xA5) s = .next ⟨s.dev.destroy.persistent.rebuild, s.pending⟩ ∧
    (∀ v, v % 256 ≠ 0xA5 → exec (.secCtrlZeroise 0 v) s = .next s) ∧
    exec (.functionLevelReset 0) s = .next ⟨(s.dev.endAll.closeRings (fun _ => true) 0x0C).onFn 0 (·.clear), s.pending⟩ ∧
    (∀ f, f < s.dev.foldCount → s.dev.full = true → exec (.functionLevelReset (f + 1)) s =
      .next ⟨((((s.dev.endFold f).closeRings (· = f) 0x0C).handFold f)).onFn (f + 1) (·.clear), s.pending⟩) ∧
    (∀ d, d = (if s.dev.resetPf.flock.isBell then (s.dev.resetPf.tellMembers fun _ => some (.ide false)) else s.dev.resetPf) →
      exec .hostPortReset s = .next ⟨{ d with
        hport := .reset
        fns := d.fns.map fun (r : FnRegs) => { r.clear with ide := false }
        sec := { d.sec with sessions := [], spdmUp := 0 } }, s.pending⟩) ∧
    (s.dev.mayEnter = true →
      let c := ((s.dev.fold 0).drives.map (·.1)).foldl (fun d n => (d.endDrive 0 n).releaseSlot 0 n) s.dev
      let d := c.onSites (c.foldSites 0) fun t => { t.cleared with clearing := false }
      let e := ((d.mapPens d.goodSites 1).needRoot.drawKey 0).onFold 0 fun o => { o with state := 2 }
      exec .enterFullService s = .next ⟨({ e with
        hefts := e.hefts.map fun (h : Heft) => ({ h with fixed := false } : Heft).follow
        bring := { e.bring with stage := 4 } } : Device).supply.haltTrace, s.pending⟩)

/-- What a persistent zeroisation leaves: no DRBG, no KEK, no root, no record, no session, no fold key, one more
cote-generation fuse (R461, R462, R465).

Where the spec leaves a point open, the clauses rest on the model's choice or reading in log entries 18, 101 and 104. -/
def Obligations.ZeroisationDestroysTheKeys : Prop :=
  ∀ (s : State), ∃ t, exec (.secCtrlZeroise 0 0xA5) s = .next t ∧ t.pending = s.pending ∧
    t.dev.sec.drbg = false ∧ t.dev.sec.kek = false ∧ t.dev.sec.root = none ∧ t.dev.sec.record = none ∧
    t.dev.sec.sessions = [] ∧ t.dev.sec.approved = false ∧
    t.dev.sec.fuses = { s.dev.sec.fuses with coteGen := min 32 (s.dev.sec.fuses.coteGen + 1) } ∧
    (∀ o, o ∈ t.dev.folds → o.key = .none) ∧ (∀ l, l ∈ t.dev.links → l.keyed = false) ∧
    (∀ r, r ∈ t.dev.fns → r.ide = false)

/-! ## The flock, links and recovery (11, 12) -/

/-- FLOCK_FORM on the device FLOCK_CFG names, unformed, failed or forming (R330 to R333, R441): e is the device as it forms. With
legal fields, a watch of its own, a report the crook accepts, this device and at least one active rank admitted, every link of
an admitted device keyed and a route to each, the flock is formed, its members are the ranks admitted, each device turned away
is named in an event, and the leaves are dealt to the active ranks. What stops it ends it with its reason: 8 for an illegal
field, 7 for a watch neither locked nor running free alone, 4 for a report, 2 for this device not admitted, 5 for keys, 6 for a
route. Without itself discovered it goes on forming. FORMATION_TIMEOUT: failed with reason 1 after 200,000,000 ticks.

The leaves dealt to the active ranks (R333): with A active ranks, at most L of them, the first (L mod A) host one leaf
more than the others, which host the quotient; each hosts a run of consecutive leaves, beginning where the run before ends,
from leaf 0; and the runs make up all L leaves.

Where the spec leaves a point open, the clauses rest on the model's choice or reading in log entries 83, 84 and 131. -/
def Obligations.FlockFormsAndDealsItsLeaves : Prop :=
  (∀ (s : State) (ms : List MemberInfo),
     let d := s.dev
     let c := d.clearFlock
     let e := if d.flock.state = 1 then d
       else ({ c with flock := { c.flock with state := 1, since := d.watch.age, isBell := true } } : Device).checkAll
     let l := bits e.flock.cfg 12 6
     let me := e.flock.rank
     let ok := (e.sortMembers ms).1
     let no := (e.sortMembers ms).2
     let said := no.foldl (fun d m => d.event .flockRefused [m.rank]) e
     let failed (d : Device) (r : Nat) : Device := { d with flock := { d.flock with state := 4, reason := r } }
     let reached (m : MemberInfo) : Prop := (({ said with flock := { said.flock with
       members := (ok.map fun (m : MemberInfo) => 2 ^ m.rank).sum } } : Device).routeOf me m.rank).valid = true
     let actives := (List.range 64).filter fun r => ok.any (fun m => m.rank = r && m.folds = 1) &&
       !bit (e.flock.standbyHi * 2 ^ 32 + e.flock.standbyLo) r
     let legal := 16 ≤ l ∧ l ≤ 64 ∧ bits e.flock.cfg 5 4 ≠ 3 ∧ bits e.flock.cfg 3 2 ≠ 3 ∧ bits e.flock.cfg 1 0 ≠ 3
     (d.shut 0 = false → d.full = true → d.bellRank = d.flock.rank → d.flock.state ≠ 2 → d.flock.state ≠ 3 →
       (¬ legal → exec (.flockForm 0 ms) s = .next ⟨failed e 8, s.pending⟩) ∧
       (legal → ms.find? (·.rank = me) = none → exec (.flockForm 0 ms) s = .next ⟨e, s.pending⟩) ∧
       (∀ own, legal → ms.find? (·.rank = me) = some own →
         let watched := own.watchLocked = true ∨ (own.watchFree = true ∧ e.aloneIn ms = true)
         let mine := ∃ m, m ∈ ok ∧ m.rank = me
         let keyed := ∀ m, m ∈ ok → m.keysOk = true
         let routed := ∀ m, m ∈ ok → reached m
         (¬ watched → exec (.flockForm 0 ms) s = .next ⟨failed said 7, s.pending⟩) ∧
         (watched → e.reportOk own.report = false → exec (.flockForm 0 ms) s = .next ⟨failed said 4, s.pending⟩) ∧
         (watched → e.reportOk own.report = true → ¬ mine → exec (.flockForm 0 ms) s = .next ⟨failed said 2, s.pending⟩) ∧
         (watched → e.reportOk own.report = true → mine → ¬ keyed →
           exec (.flockForm 0 ms) s = .next ⟨failed said 5, s.pending⟩) ∧
         (watched → e.reportOk own.report = true → mine → keyed → ¬ routed →
           exec (.flockForm 0 ms) s = .next ⟨failed said 6, s.pending⟩) ∧
         (watched → e.reportOk own.report = true → mine → keyed → routed → actives = [] →
           exec (.flockForm 0 ms) s = .next ⟨failed said 3, s.pending⟩) ∧
         (watched → e.reportOk own.report = true → mine → keyed → routed → actives ≠ [] →
           ∃ t, exec (.flockForm 0 ms) s = .next t ∧ t.pending = s.pending ∧ t.dev.flock.state = 2 ∧
             t.dev.flock.isBell = true ∧ t.dev.flock.members = (ok.map fun (m : MemberInfo) => 2 ^ m.rank).sum ∧
             t.dev.flock.leaves = leafRuns l actives ∧
             ∀ m, m ∈ no → (⟨.flockRefused, [m.rank], e.now⟩ : Event) ∈ t.dev.events))) ∧
     (d.flock.state = 1 → d.flock.isBell = true → d.flock.since + 200000000 ≤ d.watch.age →
       exec .formationTimeout s = .next ⟨failed d 1, s.pending⟩)) ∧
  (∀ (l : Nat) (ranks : List Nat), ranks ≠ [] →
     let runs := leafRuns l ranks
     let a := min ranks.length l
     runs.map (·.1) = ranks.take l ∧ runs.length = a ∧
     (∀ i, i < a → (runs.getD i (0, 0, 0)).2.2 = (if i < l % a then l / a + 1 else l / a) ∧
       (runs.getD i (0, 0, 0)).2.1 = ((runs.take i).map (·.2.2)).sum) ∧
     (runs.map (·.2.2)).sum = l)

/-- FLOCK_DISSOLVE on the bellwether of a formed flock: refused with FLOCK_BUSY while a drive is resident on a member, else the
members are told and the flock ends (R332); a member whose bellwether has failed leaves by itself (R351). ROUTE_UPDATE: every
table is computed again without the failed link (R326). RECOV_READMIT: a rank that passes joins as a standby, one that does not
is refused with an event (R390). HEARTBEAT: a member sends its own, the bellwether notes those it receives (R380).

FLOCK_MANAGEMENT in full service: what each message on VC0 changes on the device it reaches; e is the device once the
packet is in.

Where the spec leaves a point open, the clauses rest on the model's choice or reading in log entries 65, 80, 82 and 131. -/
def Obligations.FlockUpkeepAndManagement : Prop :=
  (∀ (s : State) (rank port : Nat) (m : MemberInfo),
     let d := s.dev
     (∀ rs, d.shut 0 = false → d.flock.isBell = true → d.flock.state = 2 →
       (d.anyDrive = true ∨ ∃ r, r ∈ rs ∧ bit d.flock.members r = true) →
       exec (.flockDissolve 0 rs) s = .next ⟨d.refuse 0 0x04 0x100004 false, s.pending⟩) ∧
     (∀ rs, d.shut 0 = false → d.flock.isBell = true → d.flock.state = 2 → d.anyDrive = false →
       (∀ r, r ∈ rs → bit d.flock.members r = false) →
       exec (.flockDissolve 0 rs) s = .next ⟨(d.tellMembers fun _ => some (.state 0 0)).leaveFlock, s.pending⟩) ∧
     (∀ rs, d.shut 0 = false → d.orphaned = true → d.anyDrive = false →
       exec (.flockDissolve 0 rs) s = .next ⟨d.leaveFlock, s.pending⟩) ∧
     (d.flock.isBell = true → d.flock.state = 2 ∨ d.flock.state = 3 →
       exec (.routeUpdate rank port) s = .next ⟨({ d with flock := { d.flock with
         badLinks := if d.flock.badLinks.contains (rank, port) then d.flock.badLinks else d.flock.badLinks ++ [(rank, port)] } } :
           Device).writeRoutes, s.pending⟩) ∧
     (d.shut 0 = false → d.leads = true → bit d.flock.members rank = false →
       (m.rank ≠ rank ∨ d.admissible m = false ∨ m.watchLocked = false ∨ m.keysOk = false) →
       exec (.recovReadmit 0 rank m) s = .next ⟨d.event .flockRefused [rank], s.pending⟩) ∧
     (d.shut 0 = false → d.leads = true → bit d.flock.members rank = false → m.rank = rank → d.admissible m = true →
       m.watchLocked = true → m.keysOk = true →
       let e : Device := { d with flock := { d.flock with
         members := d.flock.members ||| 2 ^ rank, failed := ndel d.flock.failed rank, silent := ndel d.flock.silent rank
         folds := sput d.flock.folds rank m.folds, heard := sput d.flock.heard rank d.watch.age
         badLinks := d.flock.badLinks.filter fun l => l.1 ≠ rank ∧ d.neighbour l.1 l.2 ≠ rank } }
       exec (.recovReadmit 0 rank m) s = .next ⟨((e.ownRoutes.tell rank
         (.manage (.config d.flock.cfg d.recov.cfg))).writeRoutes.writeLeaves).tell rank (.manage (.state 2 0)), s.pending⟩) ∧
     (∀ v e, d.hears v e → (d.flock.state = 2 ∨ d.flock.state = 3) → d.flock.isBell = true → bit d.flock.members rank = true →
       exec (.heartbeat v rank) s =
         .next ⟨{ e with flock := { e.flock with heard := sput e.flock.heard rank d.watch.age } }, s.pending⟩) ∧
     ((d.flock.state = 2 ∨ d.flock.state = 3) → d.flock.isBell = false →
       exec (.heartbeat .own d.flock.rank) s = .next ⟨d.tellBell .heartbeat, s.pending⟩)) ∧
  (∀ (s : State) (v : Via) (e : Device), s.dev.full = true → s.dev.hears v e →
     let gives (m : FlockMsg) (t : Device) : Prop := exec (.flockManagement v m) s = .next ⟨t, s.pending⟩
     (∀ cfg recov, e.orphaned = false → e.flock.state ≠ 2 → e.flock.state ≠ 3 → gives (.config cfg recov)
       ({ e with flock := { e.flock with cfg := cfg, isBell := bits cfg 18 13 = e.flock.rank, state := 1 }
                 recov := { e.recov with cfg := recov }, coll := .reset } : Device).checkAll) ∧
     (∀ mask, gives (.members mask) { e with flock := { e.flock with members := mask } }) ∧
     (∀ l, gives (.leaves l) { e with flock := { e.flock with leaves := l } }) ∧
     (∀ r p a x, gives (.route r p a x) { e with flock := { e.flock with
       routes := if x then sput e.flock.routes r ⟨true, p, a⟩ else sdel e.flock.routes r } }) ∧
     (∀ r, e.flock.isBell = true → gives (.loaded r) { e with recov := { e.recov with awaited := ndel e.recov.awaited r } }) ∧
     (∀ w ok, w ≠ e.flock.rank → gives (.fosterState w ok) { e with recov := { e.recov with
       noCopy := if ok then ndel e.recov.noCopy w else nins e.recov.noCopy w } }) ∧
     (∀ ok, gives (.fosterState e.flock.rank ok) { e with recov := { e.recov with
       fosterOk := ok
       noCopy := if ok then ndel e.recov.noCopy e.flock.rank else nins e.recov.noCopy e.flock.rank } }) ∧
     (∀ r n, e.flock.isBell = true → (e.flock.state = 2 ∨ e.flock.state = 3) → bit e.flock.members r = true → gives (.folds r n)
       ({ e with flock := { e.flock with folds := sput e.flock.folds r n } } : Device).writeLeaves) ∧
     (∀ r p g, gives (.planGroup r p g) { e with coll := { e.coll with
       named := (e.coll.named.filter fun x => x.1 ≠ r ∨ x.2.1 ≠ p) ++ (g.map fun x => (r, p, x)).toList } }) ∧
     (∀ keyed, gives (.ide keyed) { e with flock := { e.flock with bellIde := keyed } }) ∧
     (∀ g x, gives (.group g x) (e.setGroup g x)) ∧
     (∀ b f w, gives (.assign b f w) (e.takeState b f w)) ∧
     (e.flock.state ≠ 0 → gives (.state 0 0) e.leaveFlock) ∧
     (∀ dest whose step pages, gives (.pull dest whose step pages) (e.servePull dest whose step pages)) ∧
     (∀ layer lost k0 src, gives (.load layer lost k0 src) (e.takeLoad layer lost k0 src)))

/-- FOSTER: a page packet of the ward's copy that has come in lands in the foster region, unless packets of the copy wait for
the COMMIT of the ward's last foster end: then it waits behind them and its credits are not returned (R318, R371). FOSTER_END, a
packet with step, page count and record digests, is held for the ward, or waits likewise. FOSTER_SEND: the pages written in a
foster step leave, and behind the last page of a closed one its foster end (R370); a poisoned page stops the drive with the
status of an uncorrectable page (R370, R373).

DONE on the leading bellwether from an admitted rank: it is noted, and COMMIT goes out once every awaited rank has
sent DONE of that step and not before (R359, R360).

COMMIT k in a formed flock: noted with its marks; an active member's commit register, for its fold too, becomes k;
at a foster step k0 becomes k, the dirty bits clear, a foster that is being seeded and has sent that step's end is seeded, the
ward's copy is committed and what waited of it is taken (R361, R371, R373, R374).

Where the spec leaves a point open, the clauses rest on the model's choice or reading in log entries 40, 74, 75 and 130. -/
def Obligations.FosterDoneAndCommit : Prop :=
  (∀ (s : State) (k : Nat) (p : Packet),
     let d := s.dev
     (∀ e, d.takesIn k p e → (d.flock.state = 2 ∨ d.flock.state = 3) → p.node ≠ 2 →
       (d.endWaits = false → d.recov.waitPages = [] → exec (.foster k p) s = .next ⟨e.landFoster p, s.pending⟩) ∧
       (d.endWaits = true ∨ d.recov.waitPages ≠ [] → exec (.foster k p) s = .next ⟨{ e.holdCredits k p with
         recov := { e.recov with waitPages := e.recov.waitPages ++ [(k, p)] } }, s.pending⟩)) ∧
     (∀ e w, d.takesIn k p e → (d.flock.state = 2 ∨ d.flock.state = 3) → p.node = 2 → d.recov.ward = some w →
       d.flock.ward = some w.rank → p.src = w.rank → d.recov.noCopy.contains w.rank = false →
       (w.endStep = none → d.recov.waitPages = [] →
         let step := leNat (p.data.take 8)
         exec (.fosterEnd k p) s = .next ⟨({ e with recov := { e.recov with ward := some { w with
           endStep := some (step, leNat ((p.data.drop 8).take 8), chunks 64 (p.data.length / 64) (p.data.drop 16)) } } } :
             Device).wardDone false step, s.pending⟩) ∧
       (w.endStep ≠ none → exec (.fosterEnd k p) s = .next ⟨{ e.holdCredits k p with
         recov := { e.recov with waitPages := e.recov.waitPages ++ [(k, p)] } }, s.pending⟩)) ∧
     (∀ t n v, d.flock.foster = some t → d.flockDrive = some (n, v) → d.active = true → d.flock.state = 2 → v.stopped = none →
       let due := d.endOwed v
       let mine (e : Nat × Nat) : Bool := d.fosterStep e.1 && (match due with | some k => decide (e.1 ≤ k) | none => true)
       let own := (v.written.filter mine).map (·.2)
       let seed := match v.opened with
         | some r => if due.isNone && d.recov.seeding && d.fosterStep r.number && d.mayClose 0 n then
             (List.range (v.xsize / 32768)).filter fun p => !d.recov.fosterSent.contains p && !own.contains p else []
         | none => []
       let sent := ((own ++ seed).foldl (fun d p => d.sendPage 0 t v p) d).onDrive 0 n
         fun v => { v with written := v.written.filter fun e => !mine e }
       ((∃ p, p ∈ own ++ seed ∧ d.poisonLocal 0 (v.xbase + p * 32768) 32768 = true) →
         exec (.fosterSend 0) s = .next ⟨d.stopOpen 0 n 0x1E, s.pending⟩) ∧
       ((∀ p, p ∈ own ++ seed → d.poisonLocal 0 (v.xbase + p * 32768) 32768 = false) →
         (due = none → exec (.fosterSend 0) s = .next ⟨sent, s.pending⟩) ∧
         (∀ j, due = some j →
           let x := sent.sendData { sent.packetTo t 3 9 with node := 2 } 0
             (leBytes 8 j ++ leBytes 8 sent.recov.fosterSent.length ++ v.chain.flatMap (·.2)) id
           exec (.fosterSend 0) s =
             .next ⟨{ x with recov := { x.recov with fosterEnded := some j, fosterSent := [] } }, s.pending⟩)))) ∧
  (∀ (s : State) (v : Via) (d : Device) (rank step : Nat) (reading : Bool), s.dev.hears v d → d.leads = true →
     bit d.flock.members rank = true →
     let ds := (d.recov.dones.filter fun e => !(e.1 = rank && e.2.1 = step)) ++ [(rank, step, reading)]
     let e : Device := { d with recov := { d.recov with dones := ds } }
     ((∃ r, r ∈ d.awaitsDone step ∧ ∀ x, x ∈ ds → ¬ (x.1 = r ∧ x.2.1 = step)) →
       exec (.done v rank step reading) s = .next ⟨e, s.pending⟩) ∧
     ((∀ r, r ∈ d.awaitsDone step → ∃ x, x ∈ ds ∧ x.1 = r ∧ x.2.1 = step) →
       exec (.done v rank step reading) s = .next ⟨e.issueCommit step, s.pending⟩)) ∧
  (∀ (s : State) (v : Via) (d : Device) (k : Nat) (snap exp : Bool), s.dev.hears v d → d.flock.state = 2 →
     let noted := (d.recov.commits.filter fun (e : Nat × Bool × Bool) => e.1 ≠ k) ++ [(k, snap, exp)]
     let x : Device := if d.active then
         ({ d with recov := { d.recov with commits := noted, commit := k } } : Device).onFold 0 fun o => { o with commit := k }
       else { d with recov := { d.recov with commits := noted } }
     (d.fosterStep k = false → exec (.commit v k snap exp) s = .next ⟨x, s.pending⟩) ∧
     (d.fosterStep k = true →
       let seeded := d.recov.seeding = true ∧ d.recov.fosterEnded = some k
       let y := ({ x with recov := { x.recov with
         k0 := k, dirty := [], seeding := d.recov.seeding && !decide seeded
         state := if seeded ∧ d.recov.state = 4 then 0 else d.recov.state } } : Device).commitWard k
       exec (.commit v k snap exp) s = .next ⟨Device.takeWaitingPages y.recov.waitPages.length y, s.pending⟩))

/-- Failures, aborts, assignment, loads and the end of a recovery (R379 to R393): DEVICE_FAILURE of a rank declared
failed and MEMBER_LOST of a silent one start a recovery in a formed flock, a failure of the bellwether ends a member's steps;
ABORT resets every drive of a member; RECOVERY_ASSIGNMENT with no leaves to move starts the loads; RECOVERY_LOAD_PACKET stores
an awaited page, and one that says poison fails the load; RECOVERY_READY forms the flock again.

Where the spec leaves a point open, the clauses rest on the model's choice or reading in log entries 19, 68, 72, 76, 77 and 80. -/
def Obligations.RecoveryCompletes : Prop :=
  ∀ (s : State),
    let d := s.dev
    (∀ v e rank, d.hears v e → d.flock.isBell = true → d.flock.state = 2 → rank ≠ d.bellRank →
      d.flock.failed.contains rank = false → d.recov.state ≠ 5 →
      exec (.deviceFailure v rank .declared) s = .next ⟨(e.loseRank rank).beginRecovery rank 1, s.pending⟩) ∧
    (∀ v e rank, d.hears v e → d.flock.isBell = true → d.flock.state = 2 → d.flock.failed.contains rank = false →
      d.recov.state ≠ 5 → exec (.deviceFailure v rank .loadFailed) s = .next ⟨(e.beginRecovery 63 1).nextLayer, s.pending⟩) ∧
    (∀ v e c, d.hears v e → d.flock.isBell = false → exec (.deviceFailure v d.bellRank c) s = .next ⟨e.loseBell, s.pending⟩) ∧
    (∀ rank, d.flock.isBell = true → d.flock.state = 2 → d.flock.failed.contains rank = false → d.recov.state ≠ 5 →
      bit d.flock.members rank = true → rank ≠ d.flock.rank → d.beats rank = false →
      exec (.memberLost rank) s = .next ⟨(d.loseRank rank).beginRecovery rank 1, s.pending⟩) ∧
    (∀ v e k0, d.hears v e → (d.flock.state = 2 ∨ d.flock.state = 3) →
      let x := e.recov.waitPages.foldl (fun d w => d.owe w.1 w.2) ([0, 1, 2, 3].foldl (fun d i => d.giveBack i) e)
      exec (.abort v k0) s = .next ⟨((x.fold 0).drives.map (·.1)).foldl (fun d n => d.resetDrive 0 n k0) { x with
        flock := { x.flock with state := 3 }
        recov := { x.recov with
          state := 1, k0 := k0, commits := (x.recov.commits.filter fun (e : Nat × Bool × Bool) => e.1 ≤ k0), fosterSent := []
          fosterEnded := some k0, waitPages := []
          ward := x.recov.ward.map fun (w : Ward) => { w with pages := [], endStep := none }
          layer := if x.recov.layer = 0 then 1 else x.recov.layer }
        coll := { x.coll with queue := [], slots := [], lags := [], ended := [] }
        links := x.links.map fun (l : Link) => { l with waiting := l.waiting.filter fun (p : Packet) => p.vc ≠ 3 }
        watch := x.watch.release fun u => match u with | .laggard _ => true | _ => false }, s.pending⟩) ∧
    (∀ lost im k, d.flock.isBell = true → d.flock.state = 3 → d.recov.state = 1 → d.flock.failed.contains lost = false →
      d.recov.handover ≠ some lost →
      let x := d.deepen false im k
      let e : Device := { x with recov := { x.recov with handover := none, state := 2, awaited := x.activeRanks } }
      let src := (d.fosterOf lost).getD 63
      exec (.recoveryAssignment lost im k) s = .next ⟨(e.writeRoutes.writeLeaves.tellMembers fun _ => some
        (.load e.writeRoutes.writeLeaves.recov.layer lost e.writeRoutes.writeLeaves.recov.k0 src)).takeLoad
          e.writeRoutes.writeLeaves.recov.layer lost e.writeRoutes.writeLeaves.recov.k0 src, s.pending⟩) ∧
    (∀ k p e, d.takesIn k p e → d.flock.state = 3 → d.recov.state = 2 →
      (bit p.status 0 = true → exec (.recoveryLoadPacket k p) s = .next ⟨e.loadFails, s.pending⟩) ∧
      (∀ base size leaves x, bit p.status 0 = false →
        let page := p.offset / 32768
        let off := p.offset % 32768
        page ≠ headerPage → d.recov.hdr = some (base, size, leaves) → d.recov.loading.contains page = true →
        d.pageAddr base size leaves page = some x →
        let w := e.writeLocal 0 (x + off) p.data []
        exec (.recoveryLoadPacket k p) s = .next ⟨if off + p.data.length < 32768 then w
          else ({ w with recov := { w.recov with loading := ndel w.recov.loading page } } : Device).sayLoaded, s.pending⟩)) ∧
    (d.flock.isBell = true → d.flock.state = 3 → d.recov.state = 2 → d.recov.awaited = [] →
      let e : Device := { d with flock := { d.flock with state := 2 }, recov := { d.recov with state := d.readyState, hdr := none, heads := [] } }
      exec .recoveryReady s = .next ⟨(e.tellMembers fun _ => some (.state 2 0)).event .recoveryReady [d.recov.k0], s.pending⟩)

/-- Registers of recovery that start something, through PF0 (R285, R378, R390, R495): EXPORT_DONE, RECOV_HANDOVER,
RECOV_SIGN_ARM and RECOV_SNAPAT_ARM, each served outside its IDE stream only where R459 allows it. The oldest due seal is
signed over a drive with a closed step (R365, R366). COTE_DRAIN moves units of a clean snapshot, JOURNAL_APPEND the oldest
waiting entry of a fold into its ring, both while no recovery load reads the cote (R375 to R377, R497).

Where the spec leaves a point open, the clauses rest on the model's choice or reading in log entries 66 and 133. -/
def Obligations.SealsSnapshotsAndJournalComplete : Prop :=
  ∀ (s : State),
    let d := s.dev
    (d.shut 0 = false →
      (d.flock.state ≠ 3 → exec (.exportDone 0) s =
        .next ⟨{ d with recov := { d.recov with exportReady := false, exporting := [] } }, s.pending⟩) ∧
      (∀ rank, d.leads = true → 2 ≤ (d.flock.leaves.filter (·.1 = rank)).length → exec (.recovHandover 0 rank) s =
        .next ⟨{ d with recov := { d.recov with handover := some rank } }, s.pending⟩) ∧
      (∀ v, exec (.recovSignArm 0 v) s = .next ⟨({ d with recov := { d.recov with signHi := v % 2 ^ 32 } } : Device).armPoint
        .sign 4 (v % 2 ^ 32 * 2 ^ 32 + d.recov.signLo), s.pending⟩) ∧
      (∀ v, d.flock.isBell = true ∨ d.active = false → exec (.recovSnapatArm 0 v) s = .next ⟨({ d with
        recov := { d.recov with snapHi := v % 2 ^ 32 } } : Device).armPoint .snapshot 3 (v % 2 ^ 32 * 2 ^ 32 + d.recov.snapLo), s.pending⟩)) ∧
    (∀ f n rest v, d.recov.sealDue = (f, n) :: rest → d.drive f n = some v → v.unlogged = false → v.closed.isSome = true →
      let e : Device := { d with recov := { d.recov with sealDue := rest } }
      exec .seal s = .next ⟨(e.writeEntry f n (e.sealBytes v)).draw.draw, s.pending⟩) ∧
    (d.loadsCote = false →
      (∀ f units slot done src i, slook d.cote.drain f = some (slot, done, src, i) →
        let left := (i.size + 4095) / 4096 - done
        let len := min (min units left * 4096) (i.size - done * 4096)
        let j : CoteImage := { i with bytes := i.bytes.store (done * 4096) (d.readLocal f (src + done * 4096) len) }
        d.poisonLocal f (src + done * 4096) len = false →
        (units < left → exec (.coteDrain f units) s = .next ⟨{ d with cote := { d.cote with
          drain := sput d.cote.drain f (slot, done + units, src, j) } }, s.pending⟩) ∧
        (left ≤ units → exec (.coteDrain f units) s = .next ⟨{ d with
          cote := { d.cote with
            drain := sdel d.cote.drain f
            slots := sput d.cote.slots slot { j with digest := sha512 (j.bytes.bytes 0 i.size) } }
          recov := { d.recov with draining := ndel d.recov.draining f, imageValid := true, imageStep := i.step } }, s.pending⟩)) ∧
      (∀ f e, d.cote.waiting.find? (·.1 = f) = some e →
        let full := d.journalSize ≤ (d.cote.journal.filter fun x => x.1.foldOf = f).length
        let kept := match d.cote.journal.find? fun x => x.1.foldOf = f with
          | some x => if full then d.cote.journal.erase x else d.cote.journal
          | none => d.cote.journal
        exec (.journalAppend f) s = .next ⟨{ d with cote := { d.cote with
          waiting := d.cote.waiting.erase e, journal := kept ++ [(d.coteKey f, e.2)] } }, s.pending⟩))

/-- FRAME_RECEIVE on a port that is up (R315, R316): at most 15 symbol errors are corrected and a flit or control frame
in order is taken, its seq counting modulo 1,024, and the 32nd taken without an acknowledgement sends one; more than 15 errors, or
a frame out of order while none is asked for, ask for a replay from the expected seq; an idle frame changes neither.
REPLAY_REQUEST sends the frames held from a seq on again, in their order; eight in a row for one seq retrain (R317).

LINK_CONTROL_SLOT with a good tag frees the frames acknowledged, returns credits, and the peer's flags and watch are
kept; an acknowledgement due goes out (R316, R318, R319); one that fails its tag on a keyed link is discarded. A slot that
first declares failure or zeroisation is reported (R379). LINK_CONTROL_SEND sends the port's own slot as a frame kept for
replay, with at most eight pools' credits, and an idle frame while the replay buffer is full.

Where the spec leaves a point open, the clauses rest on the model's choice or reading in log entries 55, 86, 87 and 88. -/
def Obligations.FramesAndControlSlots : Prop :=
  (∀ (s : State) (k : Nat) (f : Frame), (s.dev.link k).up = true →
     let c := s.dev.onLink k fun l => { l with
       heard := s.dev.watch.age, fecCE := if 0 < f.errs then satAdd 32 l.fecCE 1 else l.fecCE }
     let l := c.link k
     let taken := c.onLink k fun l => { l with expect := (l.expect + 1) % 1024, taken := l.taken + 1, asked := false }
     (15 < f.errs → exec (.frameReceive k f) s =
       .next ⟨(s.dev.onLink k fun l => { l with fecUE := satAdd 8 l.fecUE 1 }).askReplay k, s.pending⟩) ∧
     (f.errs ≤ 15 →
       (f.kind ≠ 1 → f.kind ≠ 2 → exec (.frameReceive k f) s = .next ⟨c, s.pending⟩) ∧
       (f.kind = 1 ∨ f.kind = 2 →
         (f.seq = l.expect → (taken.link k).taken < 32 → exec (.frameReceive k f) s = .next ⟨taken, s.pending⟩) ∧
         (f.seq = l.expect → 32 ≤ (taken.link k).taken →
           exec (.frameReceive k f) s = .next ⟨taken.doCtlSend k, s.pending⟩) ∧
         (f.seq ≠ l.expect → exec (.frameReceive k f) s = .next ⟨if l.asked then c else c.askReplay k, s.pending⟩))) ∧
     (∀ q, (∃ x, x ∈ (s.dev.link k).sent ∧ x.1 = q) → exec (.replayRequest k q) s = .next
       ⟨(s.dev.onLink k fun l => { l with
         lastReq := some q
         reqRow := if l.lastReq = some q then l.reqRow + 1 else 1 }).emit
           (.again k ((s.dev.link k).sent.dropWhile (·.1 ≠ q))), s.pending⟩) ∧
     (8 ≤ (s.dev.link k).reqRow → exec (.linkRetrain k) s = .next ⟨s.dev.takeDown k true, s.pending⟩)) ∧
  (∀ (s : State) (k : Nat) (c : CtlSlot), (s.dev.link k).up = true →
     ((s.dev.link k).keyed = true → c.tagOk = false → exec (.linkControlSlot k c) s = .next s) ∧
     ((s.dev.link k).keyed = false ∨ c.tagOk = true →
       let a := match c.ack with | some q => s.dev.onLink k (·.acked q) | none => s.dev
       let b := match c.replay with | some q => a.doReplay k q | none => a
       let e := ((((c.credits.take 8).foldl (fun (d : Device) x => d.onLink k fun l => l.credit x.1 x.2) b).onLink k fun l =>
         { l with peerFlags := CtlSlot.flags c, peerWatch := c.watch, heard := b.watch.age }).drainPort k).ackDue k
       let first := (c.failed = true ∨ c.zeroised = true) ∧ (s.dev.link k).peerFlags &&& 0x14 = 0
       (¬ first → exec (.linkControlSlot k c) s = .next ⟨e, s.pending⟩) ∧
       (first → exec (.linkControlSlot k c) s =
         .next ⟨e.tellBell (.failure (s.dev.link k).peerRank .declared), s.pending⟩)) ∧
     (512 ≤ (s.dev.link k).sent.length → exec (.linkControlSend k) s = .next ⟨s.dev.emit (.idle k), s.pending⟩) ∧
     ((s.dev.link k).sent.length < 512 → exec (.linkControlSend k) s = .next ⟨(s.dev.onLink k fun l => { l with
       nextSeq := (l.nextSeq + 1) % 1024, sent := l.sent ++ [(l.nextSeq, .control (s.dev.ctlSlot k))], taken := 0
       owed := (s.dev.ctlSlot k).credits.foldl (fun o e => o.modify e.1 (· - e.2)) l.owed }).emit
         (.control k (s.dev.ctlSlot k)), s.pending⟩))

/-- Frames on a port (R314, R318): one codeword of 544 symbols of ten bits, 514 of them the message, symbol s on lane s mod 8, or
s mod 4 of the active group of a degraded port; a link control slot is 64 bytes.

Where the spec leaves a point open, the clauses rest on the model's choice or reading in log entry 132. -/
def Obligations.FramesAreCodewords : Prop :=
  (∀ (d : Device) (k : Nat) (f : Nat × TxFrame),
    let ss := d.frameOn k f
    ss.length = 544 ∧ (∀ x, x ∈ ss → x.2 < 1024) ∧
    ∀ i, i < 544 → (ss.getD i (0, 0)).1 =
      (if (d.link k).lanes = 0xFF then i % 8 else if (d.link k).lanes = 0xF0 then 4 + i % 4 else i % 4)) ∧
  (∀ control slots, (frameMessage control slots).length = 514) ∧
  (∀ kind seq count, frameControl kind seq count < 2 ^ 20 ∧ frameControl kind seq count / 2 ^ 18 = kind % 4 ∧
    frameControl kind seq count / 2 ^ 8 % 1024 = seq % 1024 ∧ frameControl kind seq count / 2 ^ 4 % 16 = count % 16) ∧
  (∀ port epoch c, (controlSlot port epoch c).length = 64) ∧
  (∀ port epoch keyed (p : Packet), (packetSlots port epoch keyed p).length = 64 * p.slots)

/-- Loss and training (R313, R317, R319, R325): a port silent for 2,000,000 ticks goes down and its neighbour is
reported; one not up 1,000,000 ticks after retraining began fails; LINK_CTRL.retrain through PF0; a port that trains runs on
eight lanes, or degraded on a whole group of four with an event, and sends what its replay buffer holds again, or fails.

LINK_KEY_AGREEMENT on a port that is up and wired as the shape says: nonce and signed key go to the peer in packets of kind
11; fresh keys with epoch 1 before a flock forms and with the next epoch later; a failure is recorded, leaves the link without
keys, and ends a formation with reason 5 (R449 to R451). PACKET_FORWARD sends a good packet for another rank on its egress in its
dateline class, and one that comes marked for discard with its mark; one whose tag fails goes on marked for discard and its
ingress link is taken down; a packet on VC0 passes a link without keys (R322, R323, R328).

Where the spec leaves a point open, the clauses rest on the model's choice or reading in log entries 85, 89, 90, 92 and 129. -/
def Obligations.LinkTrainingKeysAndForwarding : Prop :=
  (∀ (s : State) (k : Nat),
     ((s.dev.link k).up = true → (s.dev.link k).heard + 2000000 ≤ s.dev.watch.age → exec (.linkSilent k) s =
       .next ⟨((s.dev.takeDown k false).event .linkSilent [k]).tellBell (.failure (s.dev.link k).peerRank .silent), s.pending⟩) ∧
     ((s.dev.link k).state = 1 → (s.dev.link k).since + 1000000 ≤ s.dev.watch.age →
       exec (.linkFailed k) s = .next ⟨s.dev.failLink k, s.pending⟩) ∧
     (∀ v, s.dev.shut 0 = false → k < 6 → bit v 0 = true → bit v 1 = true → exec (.linkCtrlRetrain 0 k v) s =
       .next ⟨(s.dev.onLink k fun l => { l with enable := true }).takeDown k true, s.pending⟩) ∧
     (∀ t, (s.dev.link k).enable = true → (s.dev.link k).state ≠ 4 → 3 ≤ s.dev.bring.stage →
       let c := if (s.dev.link k).up then s.dev.takeDown k true else s.dev
       let after (d : Device) : Device := (if (List.range 6).all fun i => !Config.wired i ||
           decide ((d.link i).state ≠ 0 ∧ (d.link i).state ≠ 1)
         then { d with bring := { d.bring with links := true } } else d).drainPort k
       let run (lanes state : Nat) (e : Device → Device) : Device :=
         let d := (e (c.onLink k fun l => { l with
           state := state, lanes := lanes, heard := c.watch.age, peerRank := t.peerRank % 64, peerPort := t.peerPort % 8 })).checkWiring k
         if (d.link k).sent = [] then d else d.emit (.again k (d.link k).sent)
       (t.lanes % 256 = 0xFF → exec (.linkTraining k t) s = .next ⟨after (run 0xFF 2 id), s.pending⟩) ∧
       (t.lanes % 16 = 15 → t.lanes % 256 ≠ 0xFF → exec (.linkTraining k t) s =
         .next ⟨after (run 0x0F 3 (·.event .linkDegraded [k, 0x0F])), s.pending⟩) ∧
       (t.lanes % 16 ≠ 15 → t.lanes % 256 / 16 = 15 → exec (.linkTraining k t) s =
         .next ⟨after (run 0xF0 3 (·.event .linkDegraded [k, 0xF0])), s.pending⟩) ∧
       (t.lanes % 16 ≠ 15 → t.lanes % 256 / 16 ≠ 15 → exec (.linkTraining k t) s = .next ⟨after (c.failLink k), s.pending⟩))) ∧
  (∀ (s : State) (k : Nat) (p : Packet),
     let l := s.dev.link k
     let said (m : Vc0) (d : Device) : Device := d.sendOn k { d.packetTo l.peerRank 0 11 with msg := some m }
     let epoch := if s.dev.flock.state = 2 ∨ s.dev.flock.state = 3 then l.epoch + 1 else 1
     let nonces := (said (.key epoch (s.dev.free + 1)) (said (.nonce s.dev.free) s.dev)).draw.draw
     let failed := (nonces.onLink k fun l => { l with keyed := false }).event .linkKeyFail [k]
     (l.up = true → l.miswired = false →
       exec (.linkKeyAgreement k true) s =
         .next ⟨(nonces.onLink k fun l => { l with keyed := true, epoch := epoch, ctr := 0 }).drainPort k, s.pending⟩ ∧
       (s.dev.flock.state ≠ 1 → exec (.linkKeyAgreement k false) s = .next ⟨failed, s.pending⟩) ∧
       (s.dev.flock.state = 1 → s.dev.flock.isBell = true → exec (.linkKeyAgreement k false) s =
         .next ⟨{ failed with flock := { failed.flock with state := 4, reason := 5 } }, s.pending⟩)) ∧
     (l.receives = true ∨ (p.vc = 0 ∧ l.takes = true) → p.dst ≠ s.dev.flock.rank →
       let on (q : Packet) : Device := match s.dev.portTo p.dst with
         | some e => (s.dev.owe k p).sendOn e { q with cls := s.dev.classOut (some k) p.cls e }
         | none => s.dev.owe k p
       (bit p.status 7 = true → exec (.packetForward k p) s = .next ⟨on { p with tagOk := false }, s.pending⟩) ∧
       (bit p.status 7 = false → p.tagOk = true ∨ l.keyed = false →
         exec (.packetForward k p) s = .next ⟨on p, s.pending⟩) ∧
       (bit p.status 7 = false → p.tagOk = false → l.keyed = true → exec (.packetForward k p) s =
         .next ⟨(on { p with status := p.status % 128 + 128 }).tagFailed k, s.pending⟩)))

/-! ## Hefts, REFCLK and the watch (09) -/

/-- The hefts (R262 to R272, R476): a heft outside holdover whose limits ask for another step slews to it, its crossings no longer
aligned and its half's VCORE raised where the step needs more; the slew ends; a stretched period is counted and saturates; the
queues of a crossing whose hefts run at one step, neither slewing nor in holdover, measure their phase again while they are empty,
and not otherwise; an idle, gated pen heft stops with its watch copy standing, and wakes; the handshake after a reset ends, and
what waits behind it goes on.

UNIT_RESET (R269, R493): a retired site outside any fold is reset up to its queues: its node's entries and the flits at its
stop are dropped and counted at the hefts that go on; a quarter in training loses the feed flits it holds, counted at the
gate heft and asked for again; these and a port that is down start a handshake, aligned with no other heft.

Where the spec leaves a point open, the clauses rest on the model's choice or reading in log entries 97, 98 and 99. -/
def Obligations.HeftAndUnitCommandsComplete : Prop :=
  (∀ (s : State) (h g : Nat),
     let d := s.dev
     let steady (x : Heft) : Prop := x.slewing = false ∧ x.holdover = false
     ((d.heft h).holdover = false → (d.heft h).step ≠ (d.heft h).target →
       exec (.heftSlew h) s = .next ⟨(d.onHeft h fun x => { x with
         step := (d.heft h).target, slewing := true, aligned := [] }).supply, s.pending⟩) ∧
     (d.ref.state ≠ 2 → exec (.heftSlewEnd h) s = .next ⟨d.onHeft h fun x => { x with slewing := false }, s.pending⟩) ∧
     exec (.periodStretch h) s = .next ⟨d.onHeft h fun x => { x with stretch := min (x.stretch + 1) (2 ^ 32 - 1) }, s.pending⟩ ∧
     (crosses h g = true →
       (steady (d.heft h) → steady (d.heft g) → (d.heft h).step = (d.heft g).step → d.crossingEmpty h g = true →
         exec (.queueRealign h g) s = .next ⟨(d.onHeft h fun x => { x with aligned := nins x.aligned g }).onHeft g
           fun x => { x with aligned := nins x.aligned h }, s.pending⟩) ∧
       (¬ steady (d.heft h) ∨ ¬ steady (d.heft g) ∨ (d.heft h).step ≠ (d.heft g).step ∨ d.crossingEmpty h g = false →
         exec (.queueRealign h g) s = .next s)) ∧
     (h < 42 → (d.heft h).gateEn = true → (d.site h).level = 0 → (d.site h).ramp = none →
       d.quiet h = true → exec (.heftClockStop h) s =
         .next ⟨d.onHeft h fun x => { x with stopped := true, copy := d.now }, s.pending⟩) ∧
     (h < 42 → exec (.heftWake h) s = .next ⟨d.onHeft h fun x => { x with stopped := false }, s.pending⟩) ∧
     exec (.crossingHandshake h) s =
       .next ⟨((d.onHeft h fun x => { x with handshake := false }).injectWaiting).settleAt h, s.pending⟩) ∧
  (∀ (s : State),
     (∀ n, n < 42 → (s.dev.site n).state = 2 → 40 ≤ (s.dev.site n).logical →
       let t := (s.dev.site n).node
       let mine (p : Nat × Nat) : Bool := p = stopOf n
       let d := ((s.dev.drop ((n + 41) % 42) (t.sun.hop.length + t.sun.queue.length)).drop ((n + 1) % 42)
         (t.wid.hop.length + t.wid.queue.length)).drop (stationHeft n)
           ((s.dev.fabric.bulk.filter fun x => mine x.src || mine x.dst).length +
             (s.dev.fabric.ctl.filter fun x => mine x.src || mine x.dst).length +
             (s.dev.fabric.feed.filter fun x => x.flit.site = n).length)
       let d : Device := { d with fabric := { d.fabric with
         bulk := s.dev.fabric.bulk.filter fun (x : Flight RingFlit) => !mine x.src && !mine x.dst
         ctl := s.dev.fabric.ctl.filter fun (x : Flight CtlFlit) => !mine x.src && !mine x.dst
         feed := s.dev.fabric.feed.filter fun (x : Flight FeedFlit) => x.flit.site ≠ n
         stagger := s.dev.fabric.stagger.filter fun (x : Nat × Nat) => x.1 ≠ n } }
       exec (.unitReset (.site n)) s = .next ⟨((d.onSite n fun u => { u with
         node := { Node.empty with resendCount := u.node.resendCount } }).resetHeft n).injectWaiting, s.pending⟩) ∧
     (∀ q, q < 4 → s.dev.mem.state = 1 →
       let lost := s.dev.fabric.feed.filter fun x => x.flit.quarter = q
       exec (.unitReset (.quarter q)) s = .next ⟨((lost.map (·.flit.site)).foldl (fun d n => d.dropFeed n)
         (s.dev.drop 47 lost.length)).resetHeft (42 + q), s.pending⟩) ∧
     (∀ k, k < 6 → (s.dev.link k).up = false → exec (.unitReset (.link k)) s = .next ⟨s.dev.resetHeft 46, s.pending⟩))

/-- REF_LOSS: every heft holds over, an event and alert 3, and every pen in service is asked to stop (R275).
REF_RESTORED within 10,000,000 ticks relocks: REF_STATUS is relocking while the hefts slew to the steps their limits ask, and with
the last of them done it is recorded and the pens are released in ascending order (R277); after REF_FAIL, which comes
no earlier than that and declares the device failed, it relocks with the drives left stopped (R278).

WATCH_FRAME (R280 to R283, R286, R288): after 64 low ticks, all of them since the last reload, a valid frame that finds the
count right locks the watch, one at most 1,024 ticks off starts a slew and counts a slip, one further off holds the watch over
with WATCH_JUMP; two valid frames 65,536 ticks apart lock an unlocked one; an invalid frame is counted, the third in a row holds
over. WATCH_LOSS holds over, an unlocked watch too; WATCH_SKEW is raised once when the bound first exceeds the limit (R287).

Where the spec leaves a point open, the clauses rest on the model's choice or reading in log entries 94, 95 and 96. -/
def Obligations.RefclkAndWatchFrames : Prop :=
  (∀ (s : State),
     let d := s.dev
     let again (x : Device) : Device := ({ x with ref := { x.ref with state := 2 } } : Device).relock
     ((d.ref.state = 0 ∨ d.ref.state = 2) → exec .refLoss s = .next ⟨d.penSites.foldl (fun d n => d.stopPen n .refclk)
       ((({ d with
         ref := { d.ref with state := 1, failed := false, losses := satAdd 16 d.ref.losses 1, lostAt := d.watch.age, hold := 0 }
         hefts := d.hefts.map fun (h : Heft) => { h with holdover := true, slewing := false, aligned := [] } } : Device).event
           .refLoss []).alert 3), s.pending⟩) ∧
     ((d.ref.state = 1 ∧ d.watch.age ≤ d.ref.lostAt + 10000000) ∨ d.ref.state = 3 →
       exec .refRestored s = .next ⟨(again d).relocked, s.pending⟩ ∧
       (again d).ref.state = 2 ∧
       (∀ h, h ∈ (again d).hefts → h.holdover = false ∧ h.step = h.target) ∧
       ((∃ h, h ∈ d.hefts ∧ h.step ≠ h.target) → (again d).relocked = again d)) ∧
     (∀ h, d.ref.state = 2 → d.ref.failed = false →
       (∀ x, x ∈ (d.onHeft h fun x => { x with slewing := false }).hefts → x.slewing = false) →
       let e := d.onHeft h fun x => { x with slewing := false }
       exec (.heftSlewEnd h) s = .next ⟨d.penSites.foldl (fun d n => d.resumePen n .refclk)
         (({ e with ref := { e.ref with state := 0, hold := d.refHold } } : Device).event .refRestored []), s.pending⟩) ∧
     (d.ref.state = 1 → d.ref.lostAt + 10000000 ≤ d.watch.age → exec .refFail s = .next ⟨((({ d with
       ref := { d.ref with state := 3, hold := d.refHold, failed := true } } : Device).event .refFail []).haltFolds).declareFailed,
       s.pending⟩) ∧
     (d.ref.state = 1 → d.watch.age < d.ref.lostAt + 10000000 → exec .refFail s = .next s)) ∧
  (∀ (s : State) (v low : Nat),
     let d := s.dev
     let w := d.watch
     let valid := 64 ≤ low ∧ (∀ n, w.fresh = some n → 64 ≤ n) ∧ v % 65536 = 0 ∧ v < 2 ^ 64
     (valid → w.state = 0 → ∀ c, w.last = some (v - 65536, c) → 65536 ≤ v → w.count = c + 65536 →
       exec (.watchFrame v (frameCheck v) low) s = .next ⟨{ d with watch := { w with
         row := 0, state := 1, count := v + w.delay, flag := false, last := none, behind := 0, phase := 0 } }, s.pending⟩) ∧
     (valid → w.state = 0 → w.last = none → exec (.watchFrame v (frameCheck v) low) s =
       .next ⟨{ d with watch := { w with row := 0, last := some (v, w.count) } }, s.pending⟩) ∧
     (valid → (w.state = 1 ∨ w.state = 2 ∨ w.state = 3) → v + w.delay = w.count →
       exec (.watchFrame v (frameCheck v) low) s =
         .next ⟨{ d with watch := { w with row := 0, state := 1, flag := false, behind := 0 } }, s.pending⟩) ∧
     (valid → (w.state = 1 ∨ w.state = 2 ∨ w.state = 3) →
       v + w.delay ≠ w.count → v + w.delay ≤ w.count + 1024 → w.count ≤ v + w.delay + 1024 →
       exec (.watchFrame v (frameCheck v) low) s = .next ⟨{ d with watch := { w with
         row := 0, state := 2, behind := (v + w.delay : Int) - (w.count : Int), slips := satAdd 16 w.slips 1 } }, s.pending⟩) ∧
     (valid → (w.state = 1 ∨ w.state = 2 ∨ w.state = 3) →
       (w.count + 1024 < v + w.delay ∨ v + w.delay + 1024 < w.count) → exec (.watchFrame v (frameCheck v) low) s =
         .next ⟨({ d with watch := { w with row := 0 } } : Device).watchHold .watchJump, s.pending⟩) ∧
     (∀ c, w.state ≠ 4 → (¬ valid ∨ c ≠ frameCheck v) →
       let x : Device := { d with watch := { w with bad := satAdd 16 w.bad 1, row := w.row + 1, last := none } }
       exec (.watchFrame v c low) s = .next ⟨if 2 ≤ w.row ∧ w.state ≠ 3 then x.watchHold .watchLoss else x, s.pending⟩) ∧
     (w.state = 4 → ∀ c, exec (.watchFrame v c low) s = .next s) ∧
     (w.state ≤ 2 → exec .watchLoss s = .next ⟨d.watchHold .watchLoss, s.pending⟩) ∧
     (w.state = 3 → w.skewLimit < w.skew → w.skewed = false → exec .watchSkew s =
       .next ⟨(({ d with watch := { w with skewed := true } } : Device).event .watchSkew [w.skew]).tellBell
         (.failure d.flock.rank .watchSkew), s.pending⟩))

/-- WATCH_CTRL.reload through PF0 unlocks the watch and discards what it has seen of WATCH_SYNC, and is refused with FOLD_BUSY
while a drive is resident or a comparator is in use (R283). WATCH_LO_READ answers with the low word and latches the high one;
through a VF it reads zero (R397, R522). COMPARATOR_FIRE at or beyond V serves every user and frees the comparator; a refused
WATCH_WAIT tries again 1,024 ticks later and not before: it completes once the count has come, or takes a comparator that is
free again (R203, R204, R285). -/
def Obligations.WatchRegistersAndComparators : Prop :=
  ∀ (s : State),
    let d := s.dev
    (d.shut 0 = false → d.anyDrive = false → (∀ c, c ∈ d.watch.cmps → c = none) → d.watch.free = false →
      exec (.watchReload 0) s = .next ⟨{ d with watch := { d.watch with
        state := 0, flag := false, behind := 0, phase := 0, last := none, row := 0, skewed := false, grown := 0
        fresh := some 0 } }, s.pending⟩) ∧
    (d.shut 0 = false → (d.anyDrive = true ∨ ∃ c, c ∈ d.watch.cmps ∧ c ≠ none) →
      exec (.watchReload 0) s = .next ⟨d.refuse 0 0x03 0x11010 false, s.pending⟩) ∧
    (d.outside 0 = false → d.recovering = false → exec (.watchLoRead 0) s =
      .next ⟨({ d with watch := { d.watch with hiLatch := d.now / 2 ^ 32 % 2 ^ 32 } } : Device).emit
        (.reply (.host 0) (leBytes 4 (d.now % 2 ^ 32))), s.pending⟩) ∧
    (∀ fn, d.outside fn = false → fn ≠ 0 →
      exec (.watchLoRead fn) s = .next ⟨d.emit (.reply (.host fn) (zeros 4)), s.pending⟩) ∧
    (∀ c x, d.watch.cmps.getD c none = some x → x.v ≤ d.now → exec (.comparatorFire c) s =
      .next ⟨x.users.foldl (fun d u => d.fire u) { d with watch := { d.watch with cmps := d.watch.cmps.set c none } }, s.pending⟩) ∧
    (∀ c x, d.watch.cmps.getD c none = some x → d.now < x.v → exec (.comparatorFire c) s = .next s) ∧
    (∀ n q v a l t, d.goes n = some t → (d.site n).seqr.slotAt q .sync 0 = some a → a.cmd.body = .watchWait l →
      a.want = some v → a.joined = false → a.phase = .waiting →
      (d.now < a.asked + 1024 → exec (.watchWaitRetry n q) s = .next s) ∧
      (a.asked + 1024 ≤ d.now → v ≤ d.now → exec (.watchWaitRetry n q) s = .next ⟨Device.setDone n d a, s.pending⟩) ∧
      (∀ w, a.asked + 1024 ≤ d.now → d.now < v → d.watch.join v 2 (d.site n).fold (.wait n (q = .bwd) a.id) = some w →
        exec (.watchWaitRetry n q) s = .next ⟨({ d with watch := w } : Device).onSite n
          (Site.onSeqr · fun s => s.onAct a.id fun a => { a with joined := true }), s.pending⟩))

/-! ## The crook (14) -/

/-- BOOT of a module that has no image yet, from S1 on (R433 to R437, R464, R466): a decommissioned device goes to state 4;
with TAMPER_N asserted, low for 200 ticks, without an image in SPI NOR or with one that fails a check it enters the recovery function and records
the reason; with one that passes every check it runs it.

Firmware images over the mailbox (R436, R438, R464, R469): one that passes the checks is stored in SPI NOR, or runs
from RAM; one that fails answers status 4 with the reason; a RECOVERY_LOAD while TAMPER_N stays asserted is not permitted.

Where the spec leaves a point open, the clauses rest on the model's choice or reading in log entry 107. -/
def Obligations.BootAndMailboxImages : Prop :=
  (∀ (s : State), s.dev.bring.stage ≠ 0 → s.dev.sec.state = 0 → s.dev.sec.image = none →
     let d := s.dev.extendBy 0 ((List.range 64).map Config.romDigest)
     (s.dev.sec.fuses.decommissioned = true →
       exec .boot s = .next ⟨{ d with sec := { d.sec with state := 4 } }, s.pending⟩) ∧
     (s.dev.sec.fuses.decommissioned = false → s.dev.tampered = true →
       exec .boot s = .next ⟨d.toRecovery 9, s.pending⟩) ∧
     (s.dev.sec.fuses.decommissioned = false → s.dev.tampered = false → s.dev.sec.nor = none →
       exec .boot s = .next ⟨d.toRecovery 1, s.pending⟩) ∧
     (∀ i r, s.dev.sec.fuses.decommissioned = false → s.dev.tampered = false → s.dev.sec.nor = some i →
       s.dev.sec.imageReason i = some r → exec .boot s = .next ⟨d.toRecovery r, s.pending⟩) ∧
     (∀ i, s.dev.sec.fuses.decommissioned = false → s.dev.tampered = false → s.dev.sec.nor = some i →
       s.dev.sec.imageReason i = none → exec .boot s = .next ⟨d.runImage i false, s.pending⟩)) ∧
  (∀ (s : State) (fn : Nat) (i : Image), fn < 9 →
     let idle (op : Nat) : Prop := (s.dev.fn fn).mbBusy = false ∨ (s.dev.fn fn).mbReq = op
     let d := s.dev
     (idle 0x20 → d.permits fn 0x20 = true → d.sec.imageReason i = none → exec (.fwUpdate fn (some i)) s =
       .next ⟨({ d with sec := { d.sec with nor := some i } } : Device).answerStatus fn 0, s.pending⟩) ∧
     (∀ r, idle 0x20 → d.permits fn 0x20 = true → d.sec.imageReason i = some r → exec (.fwUpdate fn (some i)) s =
       .next ⟨d.answer fn 4 [BitVec.ofNat 8 r], s.pending⟩) ∧
     (idle 0x21 → d.permits fn 0x21 = true → d.tampered = false → d.sec.imageReason i = none → exec (.recoveryLoad fn (some i)) s =
       .next ⟨((({ d with sec := { d.sec with ram := some i } } : Device).runImage i true).joinUp).answerStatus fn 0, s.pending⟩) ∧
     (idle 0x21 → d.permits fn 0x21 = true → d.tampered = true → exec (.recoveryLoad fn (some i)) s =
       .next ⟨d.answerStatus fn 3, s.pending⟩) ∧
     (idle 0x22 → d.permits fn 0x22 = true → d.sec.ram = some i → d.sec.imageReason i = none → exec (.recoveryWrite fn) s =
       .next ⟨({ d with sec := { d.sec with nor := some i } } : Device).answerStatus fn 0, s.pending⟩))

/-- What an image that passes the checks of R433 must be: a header with the magic and version 1, a key slot that is not
revoked, a security version at or above the floor, a body of the length and digest the header gives, signed by the ROM
key. -/
def Obligations.AcceptedImagesPassEveryCheck : Prop :=
  ∀ (c : Sec) (i : Image), c.imageReason i = none →
    i.header.take 4 = [0x41#8, 0x48#8, 0x4E#8, 0x56#8] ∧ headField i.header 4 4 = 1 ∧
    headField i.header 0x14 4 < 4 ∧ bit c.fuses.fwRevoked (headField i.header 0x14 4) = false ∧
    c.fuses.floor ≤ headField i.header 0xC 4 ∧
    i.body.length = headField i.header 0x18 8 ∧ 1 ≤ i.body.length ∧ i.body.length ≤ 33554432 ∧
    (i.header.drop 0x20).take 64 = sha512 i.body ∧
    (c.fuses.owner = true → sha512 ((i.header.drop 0x168).take 133) = c.fuses.ownerHash)

/-- The mailbox through a function that is not busy with another command (R438): a command that is not permitted ends with NOT_PERMITTED;
permitted ones have their effect, answer with status 0 and clear busy (R439, R440, R462).

Crypto Officer commands need an enrolled owner and a signature over the latest nonce, which they void (R471): without
one the status is 2; with one SET_APPROVED before full service enters approved mode (R455, R468), and DECOMMISSION
destroys identity and device secret (R460, R466).

Where the spec leaves a point open, the clauses rest on the model's choice or reading in log entries 105, 107 and 108. -/
def Obligations.MailboxAndOfficerCommands : Prop :=
  (∀ (s : State) (fn : Nat), fn < 9 →
     let idle (op : Nat) : Prop := (s.dev.fn fn).mbBusy = false ∨ (s.dev.fn fn).mbReq = op
     let d := s.dev
     (idle 0x01 → d.permits fn 0x01 = true → exec (.getCert fn) s = .next ⟨d.answer fn 0 (certChain.take 2047), s.pending⟩) ∧
     (idle 0x02 → d.permits fn 0x02 = true → exec (.attest fn) s =
       .next ⟨(d.answer fn 0 (d.report fn (d.request fn 0 64))).draw, s.pending⟩) ∧
     (idle 0x03 → d.permits fn 0x03 = true → exec (.extend fn) s =
       .next ⟨(d.extendBy 6 (d.request fn 0 64)).answerStatus fn 0, s.pending⟩) ∧
     (idle 0x04 → d.permits fn 0x04 = true → d.sec.drbg = true → exec (.getNonce fn) s = .next
       ⟨(({ d with sec := { d.sec with nonce := some d.free } } : Device).answer fn 0 (randomBytes d.free 64)).draw, s.pending⟩) ∧
     (idle 0x30 → d.permits fn 0x30 = true → exec (.zeroise fn) s = .next
       ⟨d.zeroPersistent.answerStatus fn (if d.sec.fuses.coteGen < 32 then 0 else 5), s.pending⟩) ∧
     (idle 0x01 → d.permits fn 0x01 = false → exec (.getCert fn) s = .next ⟨d.answerStatus fn 3, s.pending⟩) ∧
     (idle 0x04 → d.permits fn 0x04 = false → exec (.getNonce fn) s = .next ⟨d.answerStatus fn 3, s.pending⟩)) ∧
  (∀ (s : State) (fn : Nat), fn < 9 → s.dev.sec.fuses.owner = true →
     let idle (op : Nat) : Prop := (s.dev.fn fn).mbBusy = false ∨ (s.dev.fn fn).mbReq = op
     let d : Device := { s.dev with sec := { s.dev.sec with nonce := none } }
     (idle 0x11 → s.dev.permits fn 0x11 = true → s.dev.full = false → s.dev.officer fn 0x11 = true → s.dev.sec.approved = false →
       exec (.setApproved fn) s = .next ⟨((({ d with sec := { d.sec with approved := true } } : Device).needRoot.saveRecord).measureMode).answerStatus fn 0, s.pending⟩) ∧
     (idle 0x11 → s.dev.permits fn 0x11 = true → s.dev.full = false → s.dev.officer fn 0x11 = false →
       exec (.setApproved fn) s = .next ⟨d.answerStatus fn 2, s.pending⟩) ∧
     (idle 0x12 → s.dev.permits fn 0x12 = true → s.dev.officer fn 0x12 = true →
       let e := d.destroy.persistent.endService
       exec (.decommission fn) s = .next ⟨({ e with sec := { e.sec with
         state := 4, image := none, fuses := { e.sec.fuses with decommissioned := true } } } : Device).answerStatus fn 0, s.pending⟩) ∧
     (idle 0x12 → s.dev.permits fn 0x12 = true → s.dev.officer fn 0x12 = false →
       exec (.decommission fn) s = .next ⟨d.answerStatus fn 2, s.pending⟩))

/-- OWNER_ENROL through a mailbox that is not busy with another command (R467): permitted and without an owner it blows the hash of the owner
key and the owner-enrolled fuse and ends with status 0; with an owner enrolled it ends with NOT_PERMITTED; and once an
owner is enrolled no step whatever changes that. -/
def Obligations.OwnerEnrolSucceedsOnce : Prop :=
  (∀ (s : State) (fn : Nat), fn < 9 → ((s.dev.fn fn).mbBusy = false ∨ (s.dev.fn fn).mbReq = 0x10) →
    (s.dev.permits fn 0x10 = true → s.dev.sec.fuses.owner = false → exec (.ownerEnrol fn) s = .next ⟨({ s.dev with
      sec := { s.dev.sec with fuses := { s.dev.sec.fuses with
        owner := true, ownerHash := sha512 (s.dev.request fn 0 133) } } } : Device).answerStatus fn 0, s.pending⟩) ∧
    (s.dev.sec.fuses.owner = true → exec (.ownerEnrol fn) s = .next ⟨s.dev.answerStatus fn 3, s.pending⟩)) ∧
  (∀ s t : State, s.dev.sec.fuses.owner = true → step s = .next t →
    t.dev.sec.fuses.owner = true ∧ t.dev.sec.fuses.ownerHash = s.dev.sec.fuses.ownerHash)

/-- SPDM while it is served (R441): each request once the connection has come far enough for it; sessions are opened,
made ready by a good MAC, ended by a wrong one, and ended; a request out of order is refused. IDE_KM in a ready User session
keys a function's selective stream, of which a bellwether tells its members, or the link stream (R441, R459).

Where the spec leaves a point open, the clauses rest on the model's choice or reading in log entries 15 and 108. -/
def Obligations.SpdmRequestsComplete : Prop :=
  ∀ (s : State), s.dev.spdmServes = true →
    let d := s.dev
    exec .getVersion s = .next ⟨({ d with sec := { d.sec with spdmUp := 1 } } : Device).sayPlain [0x12#8], s.pending⟩ ∧
    (1 ≤ d.sec.spdmUp → exec .getCapabilities s =
      .next ⟨({ d with sec := { d.sec with spdmUp := max 2 d.sec.spdmUp } } : Device).sayFree 1 20, s.pending⟩) ∧
    (d.sec.spdmUp < 1 → exec .getCapabilities s = .next ⟨d.emit (.nack .spdm), s.pending⟩) ∧
    (2 ≤ d.sec.spdmUp → exec .negotiateAlgorithms s =
      .next ⟨({ d with sec := { d.sec with spdmUp := 3 } } : Device).sayFree 2 52, s.pending⟩) ∧
    (3 ≤ d.sec.spdmUp →
      exec .getDigests s = .next ⟨d.sayPlain (sha512 certChain), s.pending⟩ ∧
      (∀ off len, exec (.getCertificate off len) s = .next ⟨d.sayPlain ((certChain.drop off).take len), s.pending⟩) ∧
      (∀ nonce, exec (.challenge nonce) s = .next ⟨(d.sayPlain (nonce ++ randomBytes d.free 132)).draw, s.pending⟩) ∧
      (∀ i, i < 7 → exec (.getMeasurements i) s = .next ⟨d.sayPlain (d.sec.measure.getD i []), s.pending⟩) ∧
      exec (.getMeasurements 255) s = .next ⟨d.sayPlain ((d.sec.measure.take 7).flatMap id), s.pending⟩ ∧
      (∀ q, d.sec.drbg = true → exec (.keyExchange q) s = .next ⟨({ d with sec := { d.sec with
        sessions := d.sec.sessions ++ [(⟨d.sec.nextSession, false, false⟩ : Session)]
        nextSession := d.sec.nextSession + 1 } } : Device).sayFree 3 132, s.pending⟩) ∧
      (∀ id x cert, d.sec.sessions.find? (fun x => x.id = id ∧ !x.ready) = some x →
        let rest := d.sec.sessions.filter fun x => x.id ≠ id
        let user := d.sec.fuses.owner && match cert with
          | some (c, sig) => Config.verify 10 d.sec.fuses.ownerHash c sig
          | none => false
        exec (.finish id cert true) s = .next ⟨({ d with sec := { d.sec with
          sessions := rest ++ [(⟨id, true, user⟩ : Session)] } } : Device).sayFree 4 64, s.pending⟩ ∧
        exec (.finish id cert false) s =
          .next ⟨({ d with sec := { d.sec with sessions := rest } } : Device).emit (.nack .spdm), s.pending⟩) ∧
      (∀ id, d.sec.sessions.any (·.id = id) = true → exec (.endSession id) s = .next ⟨({ d with sec := { d.sec with
        sessions := d.sec.sessions.filter fun x => x.id ≠ id } } : Device).sayFree 5 4, s.pending⟩) ∧
      (∀ id fn, fn < 9 → (d.sec.sessions.any fun x => x.id = id && x.ready && x.user) = true →
        let e := d.onFn fn fun r => { r with ide := true }
        exec (.ideKm id fn true) s = .next ⟨(if fn = 0 ∧ e.flock.isBell then e.tellMembers fun _ => some (.ide true)
          else e).sayFree 6 4, s.pending⟩ ∧
        exec (.ideKm id fn false) s =
          .next ⟨({ d with sec := { d.sec with linkIde := true } } : Device).sayFree 6 4, s.pending⟩) ∧
      (∀ id fn, (d.sec.sessions.any fun x => x.id = id && x.ready && x.user) = false →
        exec (.ideKm id fn true) s = .next ⟨d.emit (.nack .spdm), s.pending⟩))

/-- SELF_TESTS: a pass after the SRAM test puts the crook in service with a DRBG and a KEK; a failure is the error state,
after everything volatile is destroyed, with FAULT_N (R443 to R445). DRBG_RESEED in service (R442).

Tamper (R463): TAMPER_N low starts a count of ticks and its rise ends it; at 200 ticks the response zeroises
persistently, ends mailbox commands and burns a tamper fuse, once for each assertion and not before.

The TAP from S1 on, outside die state (R457, R458, R518): BYPASS, IDCODE with the device's code, SAMPLE/PRELOAD,
EXTEST; where R457 binds the TAP the IEEE 1149.6 instructions and a die-state instruction act as BYPASS; where it does not,
die state comes only after volatile zeroisation, and is measured.

Where the spec leaves a point open, the clauses rest on the model's choice or reading in log entries 84, 106 and 108. -/
def Obligations.SelfTestsTamperAndTap : Prop :=
  (∀ (s : State),
     (3 ≤ s.dev.bring.stage → s.dev.bring.sram = true → s.dev.sec.state = 0 → exec (.selfTests none) s =
       .next ⟨{ s.dev with
         sec := { s.dev.sec with state := 1, drbg := true, kek := true }
         bring := { s.dev.bring with kat := true } }, s.pending⟩) ∧
     (∀ t, s.dev.sec.state ≠ 2 →
       let d := (s.dev.event .selftestFail [t]).destroy
       exec (.selfTests (some t)) s = .next ⟨{ d with
         sec := { d.sec with state := 2 }, bring := { d.bring with fail := 2 }, pins := { d.pins with fault := true }
         folds := d.folds.map fun (o : Fold) => { o with state := 0 } }, s.pending⟩) ∧
     (s.dev.bring.kat = true → s.dev.sec.state = 1 → exec .drbgReseed s =
       .next ⟨({ s.dev with sec := { s.dev.sec with drbg := true } } : Device).draw, s.pending⟩)) ∧
  (∀ (s : State),
     (s.dev.sec.tamperLow = none → exec .tamperNFall s = .next ⟨{ s.dev with
       pins := { s.dev.pins with tamper := false }, sec := { s.dev.sec with tamperLow := some 0 } }, s.pending⟩) ∧
     exec .tamperNRise s = .next ⟨{ s.dev with
       pins := { s.dev.pins with tamper := true }
       sec := { s.dev.sec with tamperLow := none, tamperDone := false } }, s.pending⟩ ∧
     (∀ n, s.dev.sec.tamperLow = some n → 200 ≤ n → s.dev.sec.tamperDone = false →
       let d := (s.dev.event .tamper []).zeroPersistent
       exec .tamperResponse s = .next ⟨{ d with
         fns := d.fns.map fun (r : FnRegs) => { r with mbBusy := false }
         sec := { d.sec with
           tamperDone := true
           fuses := { d.sec.fuses with tamperCount := min 32 (d.sec.fuses.tamperCount + 1) } } }, s.pending⟩) ∧
     (∀ n, s.dev.sec.tamperLow = some n → n < 200 → exec .tamperResponse s = .next s)) ∧
  (∀ (s : State), 1 ≤ s.dev.bring.stage → s.dev.tap ≠ .die →
     let d := s.dev
     let tapAs := fun (t : TapInstr) => ({ d with tap := t } : Device)
     exec .bypass s = .next ⟨tapAs .bypass, s.pending⟩ ∧
     exec .idcode s = .next ⟨(tapAs .idcode).emit (.reply .tap (leBytes 4 d.idcode)), s.pending⟩ ∧
     (∀ cells, exec (.samplePreload cells) s = .next ⟨{ tapAs .sample with cells := cells }, s.pending⟩) ∧
     exec .extest s = .next ⟨(tapAs .extest).emit (.cells d.cells), s.pending⟩ ∧
     (d.tapBound = true → exec .extestPulse s = .next ⟨tapAs .bypass, s.pending⟩ ∧
       exec .extestTrain s = .next ⟨tapAs .bypass, s.pending⟩ ∧
       exec .tapDieStateInstruction s = .next ⟨tapAs .bypass, s.pending⟩) ∧
     (d.tapBound = false → 2 ≤ d.bring.stage →
       exec .extestPulse s = .next ⟨(tapAs .extestPulse).emit (.cells d.cells), s.pending⟩ ∧
       exec .extestTrain s = .next ⟨(tapAs .extestTrain).emit (.cells d.cells), s.pending⟩ ∧
       exec .tapDieStateInstruction s = .next ⟨({ d.zeroVolatile with tap := .die } : Device).measureMode, s.pending⟩))

/-! ## Power, temperature, resets, bring-up, management buses (15, 16) -/

/-- Resets (R475, R490 to R494): MODULE_RESET samples SLOT_ID and restarts the crook with cause 1, RESET_CTRL_MODULE with
#5A through PF0 with cause 2, the watchdog with cause 3; POWER_ON_RESET starts the always-on island; VAUX_LOSS is stage
S0.

What a module reset keeps and what it starts afresh (R324, R490): identity, fuses, the security record, SPI NOR and
the retired sites stay; the stage is S1 with the cause recorded and the count saturating; the flock rank is the strapped
SLOT_ID; keys, drives and rings are gone.

Where the spec leaves a point open, the clauses rest on the model's choice or reading in log entries 109 and 110. -/
def Obligations.ModuleResetsKeepTheFuses : Prop :=
  (∀ (s : State),
     (∀ n, s.dev.bring.stage ≠ 0 → exec (.moduleReset n) s =
       .next ⟨({ s.dev with pins := { s.dev.pins with slotId := n % 64 } } : Device).reboot 1, s.pending⟩) ∧
     (s.dev.outside 0 = false → 2 ≤ s.dev.bring.stage → s.dev.recovering = false →
       exec (.resetCtrlModule 0 0x5A) s = .next ⟨s.dev.reboot 2, s.pending⟩) ∧
     (s.dev.bring.stage ≠ 0 → exec .watchdog s = .next ⟨s.dev.reboot 3, s.pending⟩) ∧
     exec .powerOnReset s = .next ⟨({ s.dev.kept with
       pins := { s.dev.kept.pins with vaux := true, fault := false, thermtrip := false } } : Device).sampleTamper, s.pending⟩ ∧
     exec .vauxLoss s = .next ⟨{ s.dev.kept with
       pins := { s.dev.kept.pins with vaux := false, fault := false, thermtrip := false }
       bring := { s.dev.kept.bring with stage := 0 } }, s.pending⟩) ∧
  (∀ (s : State) (n : Nat), s.dev.bring.stage ≠ 0 → ∃ t, exec (.moduleReset n) s = .next t ∧ t.pending = s.pending ∧
     t.dev.idrev = s.dev.idrev ∧ t.dev.serial = s.dev.serial ∧ t.dev.sec.fuses = s.dev.sec.fuses ∧
     t.dev.sec.record = s.dev.sec.record ∧ t.dev.sec.nor = s.dev.sec.nor ∧ t.dev.persist = s.dev.persist ∧
     t.dev.bring.stage = 1 ∧ t.dev.bring.cause = 1 ∧ t.dev.bring.resets = min (s.dev.bring.resets + 1) (2 ^ 16 - 1) ∧
     t.dev.flock.rank = n % 64 ∧ t.dev.flock.state = 0 ∧ t.dev.sec.root = none ∧ t.dev.sec.drbg = false ∧
     t.dev.rings = [] ∧ (∀ f, (t.dev.fold f).drives = [] ∧ (t.dev.fold f).key = .none))

/-- Core power (R472 to R478): the rails rise in S1 with an image, valid input, OPERATION on and no THERMTRIP; PG starts
S2 with every heft at 425 MHz, its crossings aligned, and the pens' hefts fixed there; PWR_EN low, input below 38 V or above 62 V and THERMTRIP drop them with their cause.

Bring-up (R479 to R484): the lowest untested site that passes becomes a spare, its paddock cleared, and one that fails is recorded as
retired with an event, while sites remain to be tested and fewer than eight have passed; memory trains at the fast rate, at
the slow one when a channel fails, and ends bring-up when one fails there.

Where the spec leaves a point open, the clauses rest on the model's choice or reading in log entries 110, 115, 116 and 134. -/
def Obligations.CorePowerAndBringUp : Prop :=
  (∀ (s : State),
     let d := s.dev
     (d.bring.stage = 1 → d.sec.image.isSome = true → d.pins.inputOk = true → d.power.operation = true →
       d.pins.thermtrip = false → exec .powerUp s = .next ⟨{ d with
         pins := { d.pins with pwrEn := true }
         power := { d.power with converters := true, rails := true, vcoreA := 750, vcoreB := 750 } }, s.pending⟩) ∧
     (d.bring.stage = 1 → d.power.rails = true → d.sec.image.isSome = true → d.recovering = false →
       d.ref.state = 0 → exec .pgAsserted s = .next ⟨({ d with
         pins := { d.pins with pg := true }
         bring := { d.bring with stage := 2, portUp := d.pins.perst }
         watch := { Watch.reset with age := d.watch.age, core := d.watch.age }
         hefts := d.hefts.zipIdx.map fun (x : Heft × Nat) => { x.1 with
           step := 3, fixed := x.2 < 42, slewing := false, hotAt := none, coolAt := none, holdover := false
           aligned := (List.range 49).filter (crosses x.2) } } : Device).applyMaps.readRecord, s.pending⟩) ∧
     (d.power.rails = true → exec (.powerDown false) s =
       .next ⟨({ d with pins := { d.pins with pwrEn := false } } : Device).coreLost 4, s.pending⟩) ∧
     (∀ mv, mv < 38000 → d.power.rails = true → exec (.inputVoltageFault mv) s = .next ⟨({ d with
       power := { d.power with uv := true }, pins := { d.pins with inputOk := false } } : Device).coreLost 4, s.pending⟩) ∧
     (∀ mv, 62000 < mv → d.power.rails = false → exec (.inputVoltageFault mv) s = .next ⟨{ d with
       power := { d.power with ov := true }, pins := { d.pins with inputOk := false } }, s.pending⟩) ∧
     (∀ mv, 40000 ≤ mv → mv ≤ 60000 → exec (.inputVoltageFault mv) s =
       .next ⟨{ d with pins := { d.pins with inputOk := true } }, s.pending⟩) ∧
     (∀ mv, 620 ≤ mv → mv ≤ 820 → d.power.rails = true → d.power.vcoreA ≤ mv → exec (.vcoreChange 0 mv) s =
       .next ⟨{ d with power := { d.power with vcoreA := mv } }, s.pending⟩) ∧
     (∀ mv, 620 ≤ mv → mv ≤ 820 → d.power.rails = true → mv < d.power.vcoreB → d.vcoreNeed 1 ≤ mv →
       (∀ h, 21 ≤ h → h < 42 → (d.heft h).slewing = false) → exec (.vcoreChange 1 mv) s =
         .next ⟨{ d with power := { d.power with vcoreB := mv } }, s.pending⟩) ∧
     (∀ mv h, mv < d.power.vcoreA → h < 21 → (d.heft h).slewing = true → exec (.vcoreChange 0 mv) s = .next s) ∧
     (∀ mv, mv < d.power.vcoreA → mv < d.vcoreNeed 0 → exec (.vcoreChange 0 mv) s = .next s) ∧
     (2 ≤ d.bring.stage → exec .perstNRise s = .next ⟨{ d with
       pins := { d.pins with perst := true }, bring := { d.bring with portUp := true } }, s.pending⟩)) ∧
  (∀ (s : State),
     (∀ n rest, s.dev.bring.stage = 2 → s.dev.sec.state = 0 → s.dev.untested = n :: rest → rest ≠ [] →
       s.dev.bring.passed.length < 7 → s.dev.sites.length = 42 →
       let d : Device := { s.dev with bring := { s.dev.bring with
         tested := s.dev.bring.tested ++ [n], passed := s.dev.bring.passed ++ [n] } }
       exec (.siteSramTest n true) s = .next ⟨d.onSite n fun t => { t.cleared with state := 1 }, s.pending⟩) ∧
     (∀ n rest, s.dev.bring.stage = 2 → s.dev.sec.state = 0 → s.dev.untested = n :: rest → rest ≠ [] →
       s.dev.bring.passed.length < 8 → s.dev.sites.length = 42 →
       let d : Device := { s.dev with bring := { s.dev.bring with tested := s.dev.bring.tested ++ [n] } }
       exec (.siteSramTest n false) s = .next ⟨({ d.onSite n fun t => { t with state := 2 } with
         persist := { d.persist with retired := nins d.persist.retired n } } : Device).event .penRetired [n, 63], s.pending⟩) ∧
     (∀ slow, s.dev.bring.stage = 3 → s.dev.mem.state = 1 → s.dev.sec.state ≠ 2 → s.dev.mem.forceLow = false →
       exec (.memoryTraining none slow) s = .next ⟨{ s.dev with
         mem := { s.dev.mem with state := 2, low := false }, bring := { s.dev.bring with memory := true } }, s.pending⟩) ∧
     (∀ c, s.dev.bring.stage = 3 → s.dev.mem.state = 1 → s.dev.sec.state ≠ 2 →
       exec (.memoryTraining (some c) none) s = .next ⟨{ s.dev with
         mem := { s.dev.mem with state := 2, low := true }, bring := { s.dev.bring with memory := true } }, s.pending⟩) ∧
     (∀ c c', c' < 32 → s.dev.bring.stage = 3 → s.dev.mem.state = 1 → s.dev.sec.state ≠ 2 →
       exec (.memoryTraining (some c) (some c')) s = .next ⟨{ s.dev with
         mem := { s.dev.mem with state := 3, low := true, badCh := c' }, bring := { s.dev.bring with fail := 1 } }, s.pending⟩))

/-- The governor (R485 to R487): measurements are kept, with how long each average has stood where the governor watches it, and
raise alert 1 above the limit; each 100,000 ticks over the limit step every pen heft's limit down one step, each 1,000,000 below
95 % of it up one, within 0 to 4 and never up in guard; an excursion, or 1,000,000 ticks of the fast average over the limit, goes to
step 4 with alert 2; in guard four more pens pause after 100,000 ticks, and 100,000 below 90 % release them in ascending logical
order. None of these acts sooner.

The temperature monitor (R264, R488, R489): a reading is kept, with how long it has stood at 95 °C or more or below 90, and at
90 or more raises alert 0; each 100,000 ticks of 95 or more lower the monitor's choice one step, never to a step faster than the
heft's limits ask, each 1,000,000 below 90 raise it one, and none sooner; 105 or more is a THERMTRIP with
THERMTRIP_N, FAULT_N and a recorded trip, and the rails go with cause 5.

Where the spec leaves a point open, the clauses rest on the model's choice or reading in log entries 112, 113 and 134. -/
def Obligations.GovernorAndTemperature : Prop :=
  (∀ (s : State), 2 ≤ s.dev.bring.stage →
     let d := s.dev
     let p := d.power
     let w := min 1600 (max 800 p.limit)
     let now := d.watch.age
     let spelled (was : Option Nat) (c : Prop) [Decidable c] : Option Nat := if c then some (was.getD now) else none
     let stands (since : Option Nat) (n : Nat) : Prop := ∃ t, since = some t ∧ t + n ≤ now
     (∀ last fast slow,
       let e : Device := { d with power := { p with
         last := last, fast := fast, slow := slow
         slowOver := spelled p.slowOver (w < slow), slowLow := spelled p.slowLow (slow * 100 < w * 95)
         fastOver := spelled p.fastOver (w < fast), fastLow := spelled p.fastLow (fast * 10 < w * 9) } }
       exec (.powerMeasurement last fast slow) s = .next ⟨if w < slow then e.alert 1 else e, s.pending⟩) ∧
     (stands p.slowOver 100000 → p.downAt + 100000 ≤ now → exec .governorStepDown s =
       .next ⟨{ d.govern (min 4 (p.step + 1)) with power := { p with step := min 4 (p.step + 1), downAt := now } }, s.pending⟩) ∧
     (¬ stands p.slowOver 100000 ∨ now < p.downAt + 100000 → exec .governorStepDown s = .next s) ∧
     (stands p.slowLow 1000000 → p.upAt + 1000000 ≤ now → p.guard = false → exec .governorStepUp s =
       .next ⟨{ d.govern (p.step - 1) with power := { p with step := p.step - 1, upAt := now } }, s.pending⟩) ∧
     (¬ stands p.slowLow 1000000 ∨ now < p.upAt + 1000000 ∨ p.guard = true → exec .governorStepUp s = .next s) ∧
     ((2000 < p.last ∨ stands p.fastOver 1000000) → p.guard = false → exec .excursionGuard s =
       .next ⟨({ d.govern 4 with power := { p with step := 4, guard := true, guardAt := now } } : Device).alert 2, s.pending⟩) ∧
     (p.last ≤ 2000 → ¬ stands p.fastOver 1000000 → exec .excursionGuard s = .next s) ∧
     (p.guard = true → p.guardAt + 100000 ≤ now → w < p.fast → exec .governorPause s =
       .next ⟨((d.penSites.filter fun n => !(d.site n).stops.contains .governor).reverse.take 4).foldl
         (fun d n => d.stopPen n .governor) d, s.pending⟩) ∧
     (p.guard = true → stands p.fastLow 100000 → exec .leaveGuard s =
       .next ⟨d.penSites.foldl (fun d n => d.resumePen n .governor)
         { d with power := { p with guard := false } }, s.pending⟩)) ∧
  (∀ (s : State) (h t : Nat), h < 49 → h < s.dev.hefts.length → 2 ≤ s.dev.bring.stage →
     let x := s.dev.heft h
     let now := s.dev.watch.age
     let hot := if 95 ≤ t then some (x.hotAt.getD now) else none
     let cool := if t < 90 then some (x.coolAt.getD now) else none
     let read := s.dev.onHeft h fun x => { x with temp := t, hotAt := hot, coolAt := cool }
     let d := if 90 ≤ t then read.alert 0 else read
     (∀ n, hot = some n →
       (n + 100000 ≤ now → exec (.thermalStepDown h t) s = .next ⟨d.onHeft h fun x => { x with
         monitor := min 4 (max x.target (x.monitor + 1)), hotAt := some now }, s.pending⟩) ∧
       (now < n + 100000 → exec (.thermalStepDown h t) s = .next ⟨d, s.pending⟩)) ∧
     (∀ n, cool = some n →
       (n + 1000000 ≤ now → exec (.thermalStepUp h t) s = .next ⟨d.onHeft h fun x => { x with
         monitor := x.monitor - 1, coolAt := some now }, s.pending⟩) ∧
       (now < n + 1000000 → exec (.thermalStepUp h t) s = .next ⟨d, s.pending⟩)) ∧
     (hot = none → exec (.thermalStepDown h t) s = .next ⟨d, s.pending⟩) ∧
     (cool = none → exec (.thermalStepUp h t) s = .next ⟨d, s.pending⟩) ∧
     (105 ≤ t →
       exec (.thermtrip h t) s = .next ⟨({ d with
         pins := { d.pins with thermtrip := true, fault := true }
         persist := { d.persist with trips := d.persist.trips + 1 } } : Device).dropRails 5, s.pending⟩))

/-- PMBus (R473, R500): OPERATION reads, switches on while PWR_EN is high, off, and flags other data; CLEAR_FAULTS;
STATUS_WORD and the five readings answer with two little-endian bytes.

SMBus from S1 on (R515, R516): the block reads answer with four little-endian bytes, THERM_STATUS and PWR_STATUS with
zero before core power; SMB_ALERT bits written as 1 clear; the alert response answers only while an alert stands.

Where the spec leaves a point open, the clauses rest on the model's choice or reading in log entries 111, 112 and 114. -/
def Obligations.ManagementBusesComplete : Prop :=
  (∀ (s : State) (v : Nat),
     let d := s.dev
     let words := fun (r : Nat) => (d.emit (.reply .pmbus (leBytes 2 r)) : Device)
     exec (.operation none) s = .next ⟨d.emit (.reply .pmbus [if d.power.operation then 0x80#8 else 0#8]), s.pending⟩ ∧
     (d.pins.pwrEn = true → exec (.operation (some 0x80)) s =
       .next ⟨{ d with power := { d.power with operation := true } }, s.pending⟩) ∧
     (d.pins.pwrEn = false → exec (.operation (some 0x80)) s = .next s) ∧
     (d.power.rails = false → exec (.operation (some 0)) s =
       .next ⟨{ d with power := { d.power with operation := false } }, s.pending⟩) ∧
     (v % 256 ≠ 0x80 → v % 256 ≠ 0 → exec (.operation (some v)) s =
       .next ⟨{ d with power := { d.power with cml := true } }, s.pending⟩) ∧
     exec .clearFaults s = .next ⟨{ d with power := { d.power with uv := false, ov := false, cml := false } }, s.pending⟩ ∧
     exec .statusWord s = .next ⟨words d.power.statusWord, s.pending⟩ ∧
     exec (.readVin v) s = .next ⟨words v, s.pending⟩ ∧ exec (.readIin v) s = .next ⟨words v, s.pending⟩ ∧
     exec (.readTemperature1 v) s = .next ⟨words v, s.pending⟩ ∧ exec (.readTemperature2 v) s = .next ⟨words v, s.pending⟩ ∧
     exec (.readPin v) s = .next ⟨words v, s.pending⟩) ∧
  (∀ (s : State), s.dev.bring.stage ≠ 0 →
     let d := s.dev
     let words := fun (r : Nat) => (d.emit (.reply .smbus (leBytes 4 r)) : Device)
     exec .smbusIdrev s = .next ⟨words d.idrev.toNat, s.pending⟩ ∧ exec .smbusSecStatus s = .next ⟨words d.secStatus, s.pending⟩ ∧
     exec .smbusStage s = .next ⟨words d.bring.stage, s.pending⟩ ∧
     exec .smbusThermStatus s = .next ⟨words (if d.bring.stage < 2 then 0 else d.thermStatus), s.pending⟩ ∧
     exec .smbusPwrStatus s = .next ⟨words (if d.bring.stage < 2 then 0 else d.pwrStatus), s.pending⟩ ∧
     exec .smbusResetCause s = .next ⟨words d.resetCause, s.pending⟩ ∧
     exec .smbAlertRead s = .next ⟨words d.power.alert, s.pending⟩ ∧
     (∀ b, b < 5 → bit d.power.alert b = true → exec (.smbAlertClear (2 ^ b)) s = .next ⟨{ d with power := { d.power with
       alert := d.power.alert - 2 ^ b, cleared := sput d.power.cleared b d.watch.age } }, s.pending⟩) ∧
     (d.power.alert = 0 → exec .alertResponseAddress s = .next ⟨d.emit (.nack .smbus), s.pending⟩) ∧
     (d.power.alert ≠ 0 → ∃ x, x < 2 ∧ exec .alertResponseAddress s = .next
       ⟨(d.emit (.reply .smbus [BitVec.ofNat 8 ((0x40 + d.flock.rank % 16) * 2 + x)])).draw, s.pending⟩))

/-- Tunnelling (R4, R347 to R351, R402, R429): on the bellwether a read of a present rank is carried with a tag and remembered, and
a write is carried; this device's own window is its BAR0. A member with a live bellwether does the access that a packet brings
and returns read data on VC2. A member's interrupts and host requests, in packets of kinds 3 to 5, go out on the bellwether's
port, its reads as their own source. The completion of a tunnelled read answers the host once the earlier reads of its rank have
been answered.

Where the spec leaves a point open, the clauses rest on the model's choice or reading in log entries 49, 93 and 128. -/
def Obligations.TunnellingCompletes : Prop :=
  ∀ (s : State) (rank off width v : Nat),
    let d := s.dev
    (d.outside 0 = false →
      (d.bellwether = true → rank ≠ d.flock.rank → d.present rank = true →
        exec (.tunnelRead (.host rank off width v)) s = .next ⟨({ d with flock := { d.flock with
          nextTag := (d.flock.nextTag + 1) % 2 ^ 17
          tunnels := d.flock.tunnels ++ [(⟨d.flock.nextTag, rank, off, width, d.watch.age, none⟩ : TunRead)] } } : Device).sendTo
            { d.packetTo rank 1 0 with addr := rank * 2 ^ 46 + off, tally := d.flock.nextTag, inc := width }, s.pending⟩ ∧
        exec (.tunnelWrite (.host rank off width v)) s = .next ⟨d.sendTo
          { d.packetTo rank 1 1 with addr := rank * 2 ^ 46 + off, data := leBytes width v }, s.pending⟩) ∧
      (rank = d.flock.rank →
        exec (.tunnelRead (.host rank off width v)) s =
          .next ⟨(d.readBar 0 off width).1.emit (.reply (.host 0) (d.readBar 0 off width).2), s.pending⟩ ∧
        exec (.tunnelWrite (.host rank off width v)) s = .next ⟨d.writeBar 0 off width v, s.pending⟩)) ∧
    (∀ k p e, d.takesIn k p e →
      (d.tunnelServes = true →
        exec (.tunnelWrite (.packet k p)) s =
          .next ⟨e.writeBar 0 (p.addr % 2 ^ 46) p.data.length (leNat p.data), s.pending⟩ ∧
        let r := e.readBar 0 (p.addr % 2 ^ 46) p.inc
        exec (.tunnelRead (.packet k p)) s =
          .next ⟨r.1.sendTo { r.1.packetTo p.src 2 2 with tally := p.tally, data := r.2 }, s.pending⟩) ∧
      (d.bellwether = true → d.present p.src = true →
        exec (.interrupt k p) s = .next ⟨e.emit (.msix 0 (p.tally % 512)), s.pending⟩ ∧
        exec (.hostDmaRead k p) s = .next ⟨e.askRead (16 + p.src) (.member p.src p.tally)
          (leNat (p.data.take 8)) (leNat ((p.data.drop 8).take 8)), s.pending⟩ ∧
        exec (.hostDmaWrite k p) s = .next ⟨e.hostWrite (leNat (p.data.take 8)) (p.data.drop 8), s.pending⟩) ∧
      (d.bellwether = true → ∀ pre x post, d.flock.tunnels = pre ++ x :: post → x.tag = p.tally → x.ready = none →
        (∀ y, y ∈ pre → y.tag ≠ p.tally ∧ y.rank ≠ x.rank ∧ y.ready = none) →
        (∀ y, y ∈ post → y.tag ≠ p.tally ∧ y.ready = none) →
        exec (.tunnelCompletion k p) s = .next ⟨({ e with flock := { e.flock with tunnels := pre ++ post } } : Device).emit
          (.reply (.host 0) p.data), s.pending⟩))

/-- Absent ranks and late reads (R348, R349): in every state of the flock a host's read of a rank other than this device's that
is not an admitted member, or has failed, is answered with #FF in every byte, behind the earlier reads of that rank
that are outstanding, and a write to it changes nothing, each with a TUNNEL_ABSENT event; a read whose completion is missing 100,000 ticks
after it left, and no earlier, is answered so, behind the earlier ones of its rank, with a TUNNEL_TIMEOUT event, the reads of
other ranks staying as they were; a
completion of a read that is not outstanding changes nothing but the credits it owes. -/
def Obligations.AbsentRanksAndLateReads : Prop :=
  ∀ (s : State) (rank off width v : Nat),
    let d := s.dev
    (d.outside 0 = false → rank ≠ d.flock.rank →
      (d.bellwether = false ∨ bit d.flock.members rank = false ∨ d.flock.failed.contains rank = true) →
      (∀ y, y ∈ d.flock.tunnels → y.rank ≠ rank ∧ y.ready = none) →
      exec (.tunnelRead (.host rank off width v)) s = .next
        ⟨({ d.event .tunnelAbsent [rank] with flock := { d.flock with
          nextTag := (d.flock.nextTag + 1) % 2 ^ 17 } } : Device).emit (.reply (.host 0) (List.replicate width 0xFF#8)), s.pending⟩ ∧
      exec (.tunnelWrite (.host rank off width v)) s = .next ⟨d.event .tunnelAbsent [rank], s.pending⟩) ∧
    (d.outside 0 = false → rank ≠ d.flock.rank →
      (d.bellwether = false ∨ bit d.flock.members rank = false ∨ d.flock.failed.contains rank = true) →
      (∃ y, y ∈ d.flock.tunnels ∧ y.rank = rank) → (∀ y, y ∈ d.flock.tunnels → y.ready = none) →
      exec (.tunnelRead (.host rank off width v)) s = .next ⟨{ d.event .tunnelAbsent [rank] with flock := { d.flock with
        nextTag := (d.flock.nextTag + 1) % 2 ^ 17
        tunnels := d.flock.tunnels ++
          [(⟨d.flock.nextTag, rank, off, width, d.watch.age, some (List.replicate width 0xFF#8)⟩ : TunRead)] } }, s.pending⟩) ∧
    (∀ tag pre x post, d.flock.tunnels = pre ++ x :: post → x.tag = tag → (∀ y, y ∈ d.flock.tunnels → y.ready = none) →
      (∀ y, y ∈ pre ++ post → y.tag ≠ tag) → (∃ y, y ∈ pre ∧ y.rank = x.rank) → x.since + 100000 ≤ d.watch.age →
      exec (.tunnelTimeout tag) s = .next ⟨{ d.event .tunnelTimeout [x.rank] with flock := { d.flock with
        tunnels := pre ++ { x with ready := some (List.replicate x.width 0xFF#8) } :: post } }, s.pending⟩) ∧
    (∀ tag pre x post, d.flock.tunnels = pre ++ x :: post → x.tag = tag → x.ready = none →
      (∀ y, y ∈ pre → y.tag ≠ tag ∧ y.rank ≠ x.rank ∧ y.ready = none) → (∀ y, y ∈ post → y.tag ≠ tag ∧ y.ready = none) →
      (x.since + 100000 ≤ d.watch.age → exec (.tunnelTimeout tag) s = .next
        ⟨({ d.event .tunnelTimeout [x.rank] with flock := { d.flock with tunnels := pre ++ post } } : Device).emit
          (.reply (.host 0) (List.replicate x.width 0xFF#8)), s.pending⟩) ∧
      (d.watch.age < x.since + 100000 → exec (.tunnelTimeout tag) s = .next s)) ∧
    (∀ k p e, d.takesIn k p e → d.bellwether = true → (∀ x, x ∈ d.flock.tunnels → x.tag ≠ p.tally ∧ x.ready = none) →
      exec (.tunnelCompletion k p) s = .next ⟨e, s.pending⟩)
end

