-- ==== Sys2Proof/Laws/Exec.lean ====
section
/-!
SUPPORT. One lemma per command: it answers a next state, whose queue is the one it was given, and whose device is its
own operation's.
-/
namespace Sys2Proof.Machine

theorem exec_nop (s : State) (n : Nat) :
    exec (.nop n) s = .next ⟨s.dev.doNop n, s.pending⟩ := rfl
theorem exec_endStream (s : State) (n : Nat) :
    exec (.endStream n) s = .next ⟨s.dev.doEnd n, s.pending⟩ := rfl
theorem exec_jump (s : State) (n : Nat) :
    exec (.jump n) s = .next ⟨s.dev.doJump n, s.pending⟩ := rfl
theorem exec_call (s : State) (n : Nat) :
    exec (.call n) s = .next ⟨s.dev.doCall n, s.pending⟩ := rfl
theorem exec_ret (s : State) (n : Nat) :
    exec (.ret n) s = .next ⟨s.dev.doRet n, s.pending⟩ := rfl
theorem exec_mbsel (s : State) (n : Nat) (q : Queue) :
    exec (.mbsel n q) s = .next ⟨s.dev.doMbsel n q, s.pending⟩ := rfl
theorem exec_stepCmd (s : State) (n : Nat) (q : Queue) :
    exec (.stepCmd n q) s = .next ⟨s.dev.doStep n q, s.pending⟩ := rfl
theorem exec_tallyAdd (s : State) (n : Nat) (q : Queue) :
    exec (.tallyAdd n q) s = .next ⟨s.dev.doTallyAdd n q, s.pending⟩ := rfl
theorem exec_tallySet (s : State) (n : Nat) (q : Queue) :
    exec (.tallySet n q) s = .next ⟨s.dev.doTallySet n q, s.pending⟩ := rfl
theorem exec_tallyWait (s : State) (n : Nat) (q : Queue) :
    exec (.tallyWait n q) s = .next ⟨s.dev.doTallyWait n q, s.pending⟩ := rfl
theorem exec_muster (s : State) (n : Nat) (q : Queue) :
    exec (.muster n q) s = .next ⟨s.dev.doMuster n q, s.pending⟩ := rfl
theorem exec_watchWait (s : State) (n : Nat) (q : Queue) :
    exec (.watchWait n q) s = .next ⟨s.dev.doWatchWait n q, s.pending⟩ := rfl
theorem exec_racePush (s : State) (n : Nat) (q : Queue) :
    exec (.racePush n q) s = .next ⟨s.dev.doRacePush n q, s.pending⟩ := rfl
theorem exec_racePop (s : State) (n : Nat) (q : Queue) :
    exec (.racePop n q) s = .next ⟨s.dev.doRacePop n q, s.pending⟩ := rfl
theorem exec_handleSet (s : State) (n : Nat) (q : Queue) :
    exec (.handleSet n q) s = .next ⟨s.dev.doHandleSet n q, s.pending⟩ := rfl
theorem exec_clear (s : State) (n : Nat) (q : Queue) :
    exec (.clear n q) s = .next ⟨s.dev.doTiles n q true, s.pending⟩ := rfl
theorem exec_release (s : State) (n : Nat) (q : Queue) :
    exec (.release n q) s = .next ⟨s.dev.doTiles n q false, s.pending⟩ := rfl
theorem exec_product (s : State) (n : Nat) (q : Queue) :
    exec (.product n q) s = .next ⟨s.dev.doProduct n q, s.pending⟩ := rfl
theorem exec_vop (s : State) (n : Nat) (q : Queue) (err : ReadErr) :
    exec (.vop n q err) s = .next ⟨s.dev.doVop n q err, s.pending⟩ := rfl
theorem exec_move (s : State) (n : Nat) (q : Queue) (errs : List (Nat × Ecc)) :
    exec (.move n q errs) s = .next ⟨s.dev.doMove n q errs, s.pending⟩ := rfl
theorem exec_feed (s : State) (n : Nat) (q : Queue) (errs : List (Nat × Ecc)) :
    exec (.feed n q errs) s = .next ⟨s.dev.doFeed n q errs, s.pending⟩ := rfl
theorem exec_lot (s : State) (n : Nat) (q : Queue) (errs : List (Nat × Ecc)) :
    exec (.lot n q errs) s = .next ⟨s.dev.doLot n q errs, s.pending⟩ := rfl
theorem exec_land (s : State) (n : Nat) (q : Queue) :
    exec (.land n q) s = .next ⟨s.dev.doLand n q, s.pending⟩ := rfl
theorem exec_shear (s : State) (n : Nat) (q : Queue) :
    exec (.shear n q) s = .next ⟨s.dev.doShear n q, s.pending⟩ := rfl
theorem exec_collect (s : State) (n : Nat) (q : Queue) :
    exec (.collect n q) s = .next ⟨s.dev.doCollect n q, s.pending⟩ := rfl
theorem exec_streamFetch (s : State) (n : Nat) (errs : List (Nat × Ecc)) :
    exec (.streamFetch n errs) s = .next ⟨(s.dev.fetchBlock n errs).settleAt n, s.pending⟩ := rfl
theorem exec_commandCompletion (s : State) (n : Nat) (q : Queue) (e : Engine) (k : Nat) :
    exec (.commandCompletion n q e k) s = .next ⟨s.dev.doCompletion n q e k, s.pending⟩ := rfl
theorem exec_tileStep (s : State) (n : Nat) (err : ReadErr) :
    exec (.tileStep n err) s = .next ⟨s.dev.doTileStep n err, s.pending⟩ := rfl
theorem exec_penRetire (s : State) (n : Nat) :
    exec (.penRetire n) s = .next ⟨s.dev.doPenRetire n, s.pending⟩ := rfl
theorem exec_spareSubstitution (s : State) (n : Nat) :
    exec (.spareSubstitution n) s = .next ⟨s.dev.doSubstitute n, s.pending⟩ := rfl
theorem exec_penStopRequest (s : State) (n : Nat) (c : StopCause) :
    exec (.penStopRequest n c) s = .next ⟨s.dev.doPenStop n c, s.pending⟩ := rfl
theorem exec_preemption (s : State) (n cycles : Nat) :
    exec (.preemption n cycles) s = .next ⟨s.dev.doPreempt n cycles, s.pending⟩ := rfl
theorem exec_idleRampDown (s : State) (n : Nat) :
    exec (.idleRampDown n) s = .next ⟨s.dev.doIdle n, s.pending⟩ := rfl
theorem exec_rampEnd (s : State) (n : Nat) :
    exec (.rampEnd n) s = .next ⟨s.dev.doRampEnd n, s.pending⟩ := rfl
theorem exec_droveTileArrival (s : State) (n : Nat) (x : Dir) (e : Ecc) :
    exec (.droveTileArrival n x e) s = .next ⟨s.dev.doArrival n x e, s.pending⟩ := rfl
theorem exec_droveResend (s : State) (n : Nat) (x : Dir) :
    exec (.droveResend n x) s = .next ⟨s.dev.doResend n x, s.pending⟩ := rfl
theorem exec_bulkWriteFlit (s : State) (f : BulkFlit) :
    exec (.bulkWriteFlit f) s = .next ⟨s.dev.doBulkFlit f, s.pending⟩ := rfl
theorem exec_remoteReadOrder (s : State) (o : ReadOrder) (errs : List (Nat × Ecc)) :
    exec (.remoteReadOrder o errs) s = .next ⟨s.dev.doReadOrder o errs, s.pending⟩ := rfl
theorem exec_feedFlit (s : State) (c : FeedFlit) :
    exec (.feedFlit c) s = .next ⟨s.dev.doFeedFlit c, s.pending⟩ := rfl
theorem exec_controlTallyAdd (s : State) (f id inc : Nat) :
    exec (.controlTallyAdd f id inc) s = .next ⟨s.dev.doCtlAdd f id inc, s.pending⟩ := rfl
theorem exec_controlTallySet (s : State) (f id value : Nat) :
    exec (.controlTallySet f id value) s = .next ⟨s.dev.doCtlSet f id value, s.pending⟩ := rfl
theorem exec_musterArrive (s : State) (f slot group pen cycle : Nat) :
    exec (.musterArrive f slot group pen cycle) s = .next ⟨s.dev.doMusterArrive f slot group pen cycle, s.pending⟩ := rfl
theorem exec_musterRelease (s : State) (f slot group n pos cycle : Nat) :
    exec (.musterRelease f slot group n pos cycle) s = .next ⟨s.dev.doMusterRelease f slot group n pos cycle, s.pending⟩ := rfl
theorem exec_setupAddress (s : State) (crook rd : Bool) (off : Nat) :
    exec (.setupAddress crook rd off) s = .next ⟨s.dev.doSetupAddr crook rd off, s.pending⟩ := rfl
theorem exec_setupData (s : State) (crook refused : Bool) (value : Nat) :
    exec (.setupData crook refused value) s = .next ⟨s.dev.doSetupData crook refused value, s.pending⟩ := rfl
theorem exec_rampRequest (s : State) (n : Nat) (up : Bool) :
    exec (.rampRequest n up) s = .next ⟨s.dev.doRampRequest n up, s.pending⟩ := rfl
theorem exec_rampGrant (s : State) (n : Nat) (up : Bool) (cycle : Nat) :
    exec (.rampGrant n up cycle) s = .next ⟨s.dev.doRampGrant n up cycle, s.pending⟩ := rfl
theorem exec_eventFragment (s : State) (n value : Nat) (last : Bool) :
    exec (.eventFragment n value last) s = .next ⟨s.dev.doEventFrag n value last, s.pending⟩ := rfl
theorem exec_arbiterDraw (s : State) (a : Nat) (requesting : List (Nat × Nat)) :
    exec (.arbiterDraw a requesting) s = .next ⟨s.dev.doDraw a requesting, s.pending⟩ := rfl
theorem exec_cut (s : State) (a beats : Nat) (owner : CutOwner) :
    exec (.cut a beats owner) s = .next ⟨s.dev.doCut a beats owner, s.pending⟩ := rfl
theorem exec_memoryRead (s : State) (addr : Nat) (lo hi : Ecc) :
    exec (.memoryRead addr lo hi) s = .next ⟨s.dev.doMemRead addr lo hi, s.pending⟩ := rfl
theorem exec_memoryWrite (s : State) (f addr : Nat) (data : List Byte) :
    exec (.memoryWrite f addr data) s = .next ⟨s.dev.doMemWrite f addr data, s.pending⟩ := rfl
theorem exec_memPatrol (s : State) (ch : Nat) (errs : List (Ecc × Ecc)) :
    exec (.memPatrol ch errs) s = .next ⟨s.dev.doPatrol ch errs, s.pending⟩ := rfl
theorem exec_refresh (s : State) (q : Nat) (hot : Bool × Bool) :
    exec (.refresh q hot) s = .next ⟨s.dev.doRefresh q hot, s.pending⟩ := rfl
theorem exec_rfm (s : State) (q : Nat) (hot : Bool × Bool) :
    exec (.rfm q hot) s = .next ⟨s.dev.doRfm q hot, s.pending⟩ := rfl
theorem exec_wck2dqCheck (s : State) (q ch : Nat) (drifted : Bool) :
    exec (.wck2dqCheck q ch drifted) s = .next ⟨s.dev.doWck q ch drifted, s.pending⟩ := rfl
theorem exec_channelPowerDown (s : State) (ch : Nat) :
    exec (.channelPowerDown ch) s = .next ⟨s.dev.doChannelDown ch, s.pending⟩ := rfl
theorem exec_selfRefreshEntry (s : State) (q : Nat) :
    exec (.selfRefreshEntry q) s = .next ⟨s.dev.doSelfRefIn q, s.pending⟩ := rfl
theorem exec_selfRefreshExit (s : State) (q : Nat) :
    exec (.selfRefreshExit q) s = .next ⟨s.dev.doSelfRefOut q, s.pending⟩ := rfl
theorem exec_paddockScrub (s : State) (n bank : Nat) (granted : Bool) (errs : List Ecc) :
    exec (.paddockScrub n bank granted errs) s = .next ⟨s.dev.doScrub n bank granted errs, s.pending⟩ := rfl
theorem exec_paddockClear (s : State) (n : Nat) :
    exec (.paddockClear n) s = .next ⟨s.dev.doPadClear n, s.pending⟩ := rfl
theorem exec_rowSpare (s : State) (st : RowStore) (row : Nat) (e : Ecc) :
    exec (.rowSpare st row e) s = .next ⟨s.dev.doRowSpare st row e, s.pending⟩ := rfl
theorem exec_rowRemapDone (s : State) (st : RowStore) (row : Nat) :
    exec (.rowRemapDone st row) s = .next ⟨s.dev.doRowRemap st row, s.pending⟩ := rfl
theorem exec_memoryShearsUpdate (s : State) (u : Nat) :
    exec (.memoryShearsUpdate u) s = .next ⟨s.dev.doMemShears u, s.pending⟩ := rfl
theorem exec_linkShearsBlockUpdate (s : State) (k plan j : Nat) :
    exec (.linkShearsBlockUpdate k plan j) s = .next ⟨s.dev.doLinkShears k plan j, s.pending⟩ := rfl
theorem exec_collectiveStart (s : State) (errs : List (Nat × Ecc)) :
    exec (.collectiveStart errs) s = .next ⟨s.dev.doCollStart errs, s.pending⟩ := rfl
theorem exec_dma (s : State) (sq idx : Nat) (errs : List (Nat × Ecc)) :
    exec (.dma sq idx errs) s = .next ⟨s.dev.doDma sq idx errs, s.pending⟩ := rfl
theorem exec_tallyAddDescriptor (s : State) (sq idx : Nat) :
    exec (.tallyAddDescriptor sq idx) s = .next ⟨s.dev.doTallyAddDesc sq idx, s.pending⟩ := rfl
theorem exec_wait (s : State) (sq idx : Nat) :
    exec (.wait sq idx) s = .next ⟨s.dev.doWait sq idx, s.pending⟩ := rfl
theorem exec_waitTimeout (s : State) (sq idx : Nat) :
    exec (.waitTimeout sq idx) s = .next ⟨s.dev.doWaitTimeout sq idx, s.pending⟩ := rfl
theorem exec_launch (s : State) (sq idx : Nat) (block : HostRead) (reads : StepReads) :
    exec (.launch sq idx block reads) s = .next ⟨s.dev.doLaunch sq idx block reads, s.pending⟩ := rfl
theorem exec_stepDescriptor (s : State) (sq idx : Nat) :
    exec (.stepDescriptor sq idx) s = .next ⟨s.dev.doStepDesc sq idx, s.pending⟩ := rfl
theorem exec_stepPrepare (s : State) (sq idx : Nat) (reads : StepReads) :
    exec (.stepPrepare sq idx reads) s = .next ⟨s.dev.doStepPrepare sq idx reads, s.pending⟩ := rfl
theorem exec_stepOpen (s : State) (f slot : Nat) :
    exec (.stepOpen f slot) s = .next ⟨s.dev.doStepOpen f slot, s.pending⟩ := rfl
theorem exec_stepClose (s : State) (f slot : Nat) (err : Option (Nat × Ecc)) :
    exec (.stepClose f slot err) s = .next ⟨s.dev.doStepClose f slot err, s.pending⟩ := rfl
theorem exec_run (s : State) (sq idx : Nat) :
    exec (.run sq idx) s = .next ⟨s.dev.doRun sq idx, s.pending⟩ := rfl
theorem exec_endDescriptor (s : State) (sq idx : Nat) :
    exec (.endDescriptor sq idx) s = .next ⟨s.dev.doEndDesc sq idx, s.pending⟩ := rfl
theorem exec_plan (s : State) (sq idx : Nat) :
    exec (.plan sq idx) s = .next ⟨s.dev.doPlan sq idx, s.pending⟩ := rfl
theorem exec_groupOpen (s : State) (sq idx : Nat) :
    exec (.groupOpen sq idx) s = .next ⟨s.dev.doGroupOpen sq idx, s.pending⟩ := rfl
theorem exec_groupClose (s : State) (sq idx : Nat) :
    exec (.groupClose sq idx) s = .next ⟨s.dev.doGroupClose sq idx, s.pending⟩ := rfl
theorem exec_descriptorFetch (s : State) (sq : Nat) :
    exec (.descriptorFetch sq) s = .next ⟨s.dev.doFetchDesc sq, s.pending⟩ := rfl
theorem exec_hostReadCompletion (s : State) (tag : Nat) (data : HostRead) :
    exec (.hostReadCompletion tag data) s = .next ⟨s.dev.doHostRead tag data, s.pending⟩ := rfl
theorem exec_sqDoorbell (s : State) (fn n width value : Nat) :
    exec (.sqDoorbell fn n width value) s = .next ⟨s.dev.fromRegs fn (·.doSqDb fn n width value), s.pending⟩ := rfl
theorem exec_cqDoorbell (s : State) (fn n width value : Nat) :
    exec (.cqDoorbell fn n width value) s = .next ⟨s.dev.fromRegs fn (·.doCqDb fn n width value), s.pending⟩ := rfl
theorem exec_ringEnable (s : State) (fn n value : Nat) :
    exec (.ringEnable fn n value) s = .next ⟨s.dev.fromRegs fn (·.doRingEnable fn n value), s.pending⟩ := rfl
theorem exec_ringDisable (s : State) (fn n value : Nat) :
    exec (.ringDisable fn n value) s = .next ⟨s.dev.fromRegs fn (·.doRingDisable fn n value), s.pending⟩ := rfl
theorem exec_foldcfgCount (s : State) (fn value : Nat) :
    exec (.foldcfgCount fn value) s = .next ⟨s.dev.fromRegs fn (·.doFoldCount fn value), s.pending⟩ := rfl
theorem exec_foldHandover (s : State) (fn f : Nat) :
    exec (.foldHandover fn f) s = .next ⟨s.dev.fromRegs fn (·.doHandFold fn f), s.pending⟩ := rfl
theorem exec_foldReady (s : State) (f : Nat) :
    exec (.foldReady f) s = .next ⟨s.dev.doFoldReady f, s.pending⟩ := rfl
theorem exec_siteCtrlRetire (s : State) (fn n : Nat) :
    exec (.siteCtrlRetire fn n) s = .next ⟨s.dev.fromRegs fn (·.doSiteRetire fn n), s.pending⟩ := rfl
theorem exec_siteCtrlClearCounts (s : State) (fn n : Nat) :
    exec (.siteCtrlClearCounts fn n) s = .next ⟨s.dev.fromRegs fn (·.doClearCounts fn n), s.pending⟩ := rfl
theorem exec_watchReload (s : State) (fn : Nat) :
    exec (.watchReload fn) s = .next ⟨s.dev.fromRegs fn (·.doReload fn), s.pending⟩ := rfl
theorem exec_watchLoRead (s : State) (fn : Nat) :
    exec (.watchLoRead fn) s = .next ⟨s.dev.fromHost fn (·.doWatchLo fn), s.pending⟩ := rfl
theorem exec_flockForm (s : State) (fn : Nat) (members : List MemberInfo) :
    exec (.flockForm fn members) s = .next ⟨s.dev.fromRegs fn (·.doFlockForm fn members), s.pending⟩ := rfl
theorem exec_flockDissolve (s : State) (fn : Nat) (resident : List Nat) :
    exec (.flockDissolve fn resident) s = .next ⟨s.dev.fromRegs fn (·.doDissolve fn resident), s.pending⟩ := rfl
theorem exec_recovHandover (s : State) (fn rank : Nat) :
    exec (.recovHandover fn rank) s = .next ⟨s.dev.fromRegs fn (·.doHandover fn rank), s.pending⟩ := rfl
theorem exec_recovReadmit (s : State) (fn rank : Nat) (info : MemberInfo) :
    exec (.recovReadmit fn rank info) s = .next ⟨s.dev.fromRegs fn (·.doReadmit fn rank info), s.pending⟩ := rfl
theorem exec_exportDone (s : State) (fn : Nat) :
    exec (.exportDone fn) s = .next ⟨s.dev.fromRegs fn (·.doExportDone fn), s.pending⟩ := rfl
theorem exec_recovSignArm (s : State) (fn value : Nat) :
    exec (.recovSignArm fn value) s = .next ⟨s.dev.fromRegs fn (·.doSignArm fn value), s.pending⟩ := rfl
theorem exec_recovSnapatArm (s : State) (fn value : Nat) :
    exec (.recovSnapatArm fn value) s = .next ⟨s.dev.fromRegs fn (·.doSnapatArm fn value), s.pending⟩ := rfl
theorem exec_secCtrlZeroise (s : State) (fn value : Nat) :
    exec (.secCtrlZeroise fn value) s = .next ⟨s.dev.doSecCtrl fn value, s.pending⟩ := rfl
theorem exec_resetCtrlModule (s : State) (fn value : Nat) :
    exec (.resetCtrlModule fn value) s = .next ⟨s.dev.fromHost fn (·.doResetCtrl fn value), s.pending⟩ := rfl
theorem exec_traceEnable (s : State) (fn value : Nat) :
    exec (.traceEnable fn value) s = .next ⟨s.dev.fromRegs fn (·.doTraceEnable fn value), s.pending⟩ := rfl
theorem exec_linkCtrlRetrain (s : State) (fn k value : Nat) :
    exec (.linkCtrlRetrain fn k value) s = .next ⟨s.dev.fromRegs fn (·.doLinkCtrl fn k value), s.pending⟩ := rfl
theorem exec_apertureRead (s : State) (fn off width : Nat) (errs : List (Nat × Ecc)) :
    exec (.apertureRead fn off width errs) s = .next ⟨s.dev.fromHost fn (·.doApRead fn off width errs), s.pending⟩ := rfl
theorem exec_apertureWrite (s : State) (fn off width value : Nat) :
    exec (.apertureWrite fn off width value) s = .next ⟨s.dev.fromHost fn (·.doApWrite fn off width value), s.pending⟩ := rfl
theorem exec_registerWrite (s : State) (fn off width value : Nat) :
    exec (.registerWrite fn off width value) s = .next ⟨s.dev.doRegWrite fn off width value, s.pending⟩ := rfl
theorem exec_getCert (s : State) (fn : Nat) :
    exec (.getCert fn) s = .next ⟨s.dev.doGetCert fn, s.pending⟩ := rfl
theorem exec_attest (s : State) (fn : Nat) :
    exec (.attest fn) s = .next ⟨s.dev.doAttest fn, s.pending⟩ := rfl
theorem exec_extend (s : State) (fn : Nat) :
    exec (.extend fn) s = .next ⟨s.dev.doExtend fn, s.pending⟩ := rfl
theorem exec_getNonce (s : State) (fn : Nat) :
    exec (.getNonce fn) s = .next ⟨s.dev.doGetNonce fn, s.pending⟩ := rfl
theorem exec_ownerEnrol (s : State) (fn : Nat) :
    exec (.ownerEnrol fn) s = .next ⟨s.dev.doOwnerEnrol fn, s.pending⟩ := rfl
theorem exec_setApproved (s : State) (fn : Nat) :
    exec (.setApproved fn) s = .next ⟨s.dev.doSetApproved fn, s.pending⟩ := rfl
theorem exec_decommission (s : State) (fn : Nat) :
    exec (.decommission fn) s = .next ⟨s.dev.doDecommission fn, s.pending⟩ := rfl
theorem exec_fwUpdate (s : State) (fn : Nat) (image : Option Image) :
    exec (.fwUpdate fn image) s = .next ⟨s.dev.doFwUpdate fn image, s.pending⟩ := rfl
theorem exec_recoveryLoad (s : State) (fn : Nat) (image : Option Image) :
    exec (.recoveryLoad fn image) s = .next ⟨s.dev.doRecoveryLoad fn image, s.pending⟩ := rfl
theorem exec_recoveryWrite (s : State) (fn : Nat) :
    exec (.recoveryWrite fn) s = .next ⟨s.dev.doRecoveryWrite fn, s.pending⟩ := rfl
theorem exec_zeroise (s : State) (fn : Nat) :
    exec (.zeroise fn) s = .next ⟨s.dev.doZeroise fn, s.pending⟩ := rfl
theorem exec_getVersion (s : State) :
    exec .getVersion s = .next ⟨s.dev.doGetVersion, s.pending⟩ := rfl
theorem exec_getCapabilities (s : State) :
    exec .getCapabilities s = .next ⟨s.dev.doGetCapabilities, s.pending⟩ := rfl
theorem exec_negotiateAlgorithms (s : State) :
    exec .negotiateAlgorithms s = .next ⟨s.dev.doNegotiate, s.pending⟩ := rfl
theorem exec_getDigests (s : State) :
    exec .getDigests s = .next ⟨s.dev.doGetDigests, s.pending⟩ := rfl
theorem exec_getCertificate (s : State) (offset len : Nat) :
    exec (.getCertificate offset len) s = .next ⟨s.dev.doGetCertificate offset len, s.pending⟩ := rfl
theorem exec_challenge (s : State) (nonce : List Byte) :
    exec (.challenge nonce) s = .next ⟨s.dev.doChallenge nonce, s.pending⟩ := rfl
theorem exec_getMeasurements (s : State) (index : Nat) :
    exec (.getMeasurements index) s = .next ⟨s.dev.doGetMeasurements index, s.pending⟩ := rfl
theorem exec_keyExchange (s : State) (requester : List Byte) :
    exec (.keyExchange requester) s = .next ⟨s.dev.doKeyExchange requester, s.pending⟩ := rfl
theorem exec_endSession (s : State) (session : Nat) :
    exec (.endSession session) s = .next ⟨s.dev.doEndSession session, s.pending⟩ := rfl
theorem exec_ideKm (s : State) (session fn : Nat) (selective : Bool) :
    exec (.ideKm session fn selective) s = .next ⟨s.dev.doIdeKm session fn selective, s.pending⟩ := rfl
theorem exec_operation (s : State) (value : Option Nat) :
    exec (.operation value) s = .next ⟨s.dev.doOperation value, s.pending⟩ := rfl
theorem exec_clearFaults (s : State) :
    exec .clearFaults s = .next ⟨s.dev.doClearFaults, s.pending⟩ := rfl
theorem exec_statusWord (s : State) :
    exec .statusWord s = .next ⟨s.dev.doStatusWord, s.pending⟩ := rfl
theorem exec_readVin (s : State) (reading : Nat) :
    exec (.readVin reading) s = .next ⟨s.dev.sayReading reading, s.pending⟩ := rfl
theorem exec_readIin (s : State) (reading : Nat) :
    exec (.readIin reading) s = .next ⟨s.dev.sayReading reading, s.pending⟩ := rfl
theorem exec_readTemperature1 (s : State) (reading : Nat) :
    exec (.readTemperature1 reading) s = .next ⟨s.dev.sayReading reading, s.pending⟩ := rfl
theorem exec_readTemperature2 (s : State) (reading : Nat) :
    exec (.readTemperature2 reading) s = .next ⟨s.dev.sayReading reading, s.pending⟩ := rfl
theorem exec_readPin (s : State) (reading : Nat) :
    exec (.readPin reading) s = .next ⟨s.dev.sayReading reading, s.pending⟩ := rfl
theorem exec_smbusIdrev (s : State) :
    exec .smbusIdrev s = .next ⟨s.dev.smbus s.dev.idrev.toNat, s.pending⟩ := rfl
theorem exec_smbusSecStatus (s : State) :
    exec .smbusSecStatus s = .next ⟨s.dev.smbus s.dev.secStatus, s.pending⟩ := rfl
theorem exec_smbusStage (s : State) :
    exec .smbusStage s = .next ⟨s.dev.smbus s.dev.bring.stage, s.pending⟩ := rfl
theorem exec_smbusThermStatus (s : State) :
    exec .smbusThermStatus s = .next ⟨s.dev.smbus (if s.dev.bring.stage < 2 then 0 else s.dev.thermStatus), s.pending⟩ := rfl
theorem exec_smbusPwrStatus (s : State) :
    exec .smbusPwrStatus s = .next ⟨s.dev.smbus (if s.dev.bring.stage < 2 then 0 else s.dev.pwrStatus), s.pending⟩ := rfl
theorem exec_smbusResetCause (s : State) :
    exec .smbusResetCause s = .next ⟨s.dev.smbus s.dev.resetCause, s.pending⟩ := rfl
theorem exec_smbAlertRead (s : State) :
    exec .smbAlertRead s = .next ⟨s.dev.smbus s.dev.power.alert, s.pending⟩ := rfl
theorem exec_smbAlertClear (s : State) (value : Nat) :
    exec (.smbAlertClear value) s = .next ⟨s.dev.doAlertClear value, s.pending⟩ := rfl
theorem exec_alertResponseAddress (s : State) :
    exec .alertResponseAddress s = .next ⟨s.dev.doAra, s.pending⟩ := rfl
theorem exec_bypass (s : State) :
    exec .bypass s = .next ⟨s.dev.doBypass, s.pending⟩ := rfl
theorem exec_idcode (s : State) :
    exec .idcode s = .next ⟨s.dev.doIdcode, s.pending⟩ := rfl
theorem exec_samplePreload (s : State) (cells : List Bool) :
    exec (.samplePreload cells) s = .next ⟨s.dev.doSample cells, s.pending⟩ := rfl
theorem exec_extest (s : State) :
    exec .extest s = .next ⟨s.dev.doExtest, s.pending⟩ := rfl
theorem exec_extestPulse (s : State) :
    exec .extestPulse s = .next ⟨s.dev.doPulse, s.pending⟩ := rfl
theorem exec_extestTrain (s : State) :
    exec .extestTrain s = .next ⟨s.dev.doTrain, s.pending⟩ := rfl
theorem exec_tapDieStateInstruction (s : State) :
    exec .tapDieStateInstruction s = .next ⟨s.dev.doDieState, s.pending⟩ := rfl
theorem exec_frameReceive (s : State) (k : Nat) (f : Frame) :
    exec (.frameReceive k f) s = .next ⟨s.dev.doFrame k f, s.pending⟩ := rfl
theorem exec_replayRequest (s : State) (k seq : Nat) :
    exec (.replayRequest k seq) s = .next ⟨s.dev.doReplay k seq, s.pending⟩ := rfl
theorem exec_linkControlSlot (s : State) (k : Nat) (c : CtlSlot) :
    exec (.linkControlSlot k c) s = .next ⟨s.dev.doCtlSlot k c, s.pending⟩ := rfl
theorem exec_linkControlSend (s : State) (k : Nat) :
    exec (.linkControlSend k) s = .next ⟨s.dev.doCtlSend k, s.pending⟩ := rfl
theorem exec_linkSilent (s : State) (k : Nat) :
    exec (.linkSilent k) s = .next ⟨s.dev.doSilent k, s.pending⟩ := rfl
theorem exec_linkRetrain (s : State) (k : Nat) :
    exec (.linkRetrain k) s = .next ⟨s.dev.doRetrain k, s.pending⟩ := rfl
theorem exec_linkFailed (s : State) (k : Nat) :
    exec (.linkFailed k) s = .next ⟨s.dev.doLinkFailed k, s.pending⟩ := rfl
theorem exec_linkTraining (s : State) (k : Nat) (t : Training) :
    exec (.linkTraining k t) s = .next ⟨s.dev.doTraining k t, s.pending⟩ := rfl
theorem exec_linkKeyAgreement (s : State) (k : Nat) (ok : Bool) :
    exec (.linkKeyAgreement k ok) s = .next ⟨s.dev.doKeys k ok, s.pending⟩ := rfl
theorem exec_packetForward (s : State) (k : Nat) (p : Packet) :
    exec (.packetForward k p) s = .next ⟨s.dev.doForward k p, s.pending⟩ := rfl
theorem exec_tunnelRead (s : State) (a : Tunnel) :
    exec (.tunnelRead a) s = .next ⟨s.dev.doTunRead a, s.pending⟩ := rfl
theorem exec_tunnelWrite (s : State) (a : Tunnel) :
    exec (.tunnelWrite a) s = .next ⟨s.dev.doTunWrite a, s.pending⟩ := rfl
theorem exec_tunnelCompletion (s : State) (k : Nat) (p : Packet) :
    exec (.tunnelCompletion k p) s = .next ⟨s.dev.doTunDone k p, s.pending⟩ := rfl
theorem exec_tunnelTimeout (s : State) (tag : Nat) :
    exec (.tunnelTimeout tag) s = .next ⟨s.dev.doTunTimeout tag, s.pending⟩ := rfl
theorem exec_interrupt (s : State) (k : Nat) (p : Packet) :
    exec (.interrupt k p) s = .next ⟨s.dev.doInterrupt k p, s.pending⟩ := rfl
theorem exec_hostDmaRead (s : State) (k : Nat) (p : Packet) :
    exec (.hostDmaRead k p) s = .next ⟨s.dev.doMemberRead k p, s.pending⟩ := rfl
theorem exec_hostDmaWrite (s : State) (k : Nat) (p : Packet) :
    exec (.hostDmaWrite k p) s = .next ⟨s.dev.doMemberWrite k p, s.pending⟩ := rfl
theorem exec_reduceData (s : State) (k : Nat) (p : Packet) :
    exec (.reduceData k p) s = .next ⟨s.dev.doReduce k p, s.pending⟩ := rfl
theorem exec_gatherData (s : State) (k : Nat) (p : Packet) :
    exec (.gatherData k p) s = .next ⟨s.dev.doGather k p, s.pending⟩ := rfl
theorem exec_multicastData (s : State) (k : Nat) (p : Packet) (room : Bool) :
    exec (.multicastData k p room) s = .next ⟨s.dev.doMulticast k p room, s.pending⟩ := rfl
theorem exec_foster (s : State) (k : Nat) (p : Packet) :
    exec (.foster k p) s = .next ⟨s.dev.doFoster k p, s.pending⟩ := rfl
theorem exec_fosterEnd (s : State) (k : Nat) (p : Packet) :
    exec (.fosterEnd k p) s = .next ⟨s.dev.doFosterEnd k p, s.pending⟩ := rfl
theorem exec_fosterSend (s : State) (f : Nat) :
    exec (.fosterSend f) s = .next ⟨s.dev.doFosterSend f, s.pending⟩ := rfl
theorem exec_repair (s : State) (k : Nat) (p : Packet) :
    exec (.repair k p) s = .next ⟨s.dev.doRepair k p, s.pending⟩ := rfl
theorem exec_repairRequest (s : State) (g : Nat) :
    exec (.repairRequest g) s = .next ⟨s.dev.doRepairRequest g, s.pending⟩ := rfl
theorem exec_laggardFail (s : State) (g : Nat) :
    exec (.laggardFail g) s = .next ⟨s.dev.doLaggardFail g, s.pending⟩ := rfl
theorem exec_flockManagement (s : State) (v : Via) (m : FlockMsg) :
    exec (.flockManagement v m) s = .next ⟨s.dev.doManage v m, s.pending⟩ := rfl
theorem exec_recoveryLoadPacket (s : State) (k : Nat) (p : Packet) :
    exec (.recoveryLoadPacket k p) s = .next ⟨s.dev.doLoadPacket k p, s.pending⟩ := rfl
theorem exec_heartbeat (s : State) (v : Via) (rank : Nat) :
    exec (.heartbeat v rank) s = .next ⟨s.dev.doHeartbeat v rank, s.pending⟩ := rfl
theorem exec_done (s : State) (v : Via) (rank step : Nat) (reading : Bool) :
    exec (.done v rank step reading) s = .next ⟨s.dev.doDone v rank step reading, s.pending⟩ := rfl
theorem exec_commit (s : State) (v : Via) (step : Nat) (snap exp : Bool) :
    exec (.commit v step snap exp) s = .next ⟨s.dev.doCommit v step snap exp, s.pending⟩ := rfl
theorem exec_abort (s : State) (v : Via) (k0 : Nat) :
    exec (.abort v k0) s = .next ⟨s.dev.doAbort v k0, s.pending⟩ := rfl
theorem exec_deviceFailure (s : State) (v : Via) (rank : Nat) (cause : FailCause) :
    exec (.deviceFailure v rank cause) s = .next ⟨s.dev.doDeviceFailure v rank cause, s.pending⟩ := rfl
theorem exec_memberLost (s : State) (rank : Nat) :
    exec (.memberLost rank) s = .next ⟨s.dev.doMemberLost rank, s.pending⟩ := rfl
theorem exec_recoveryReady (s : State) :
    exec .recoveryReady s = .next ⟨s.dev.doRecovReady, s.pending⟩ := rfl
theorem exec_routeUpdate (s : State) (rank port : Nat) :
    exec (.routeUpdate rank port) s = .next ⟨s.dev.doRouteUpdate rank port, s.pending⟩ := rfl
theorem exec_seal (s : State) :
    exec .seal s = .next ⟨s.dev.doSeal, s.pending⟩ := rfl
theorem exec_coteDrain (s : State) (f units : Nat) :
    exec (.coteDrain f units) s = .next ⟨s.dev.doDrain f units, s.pending⟩ := rfl
theorem exec_journalAppend (s : State) (f : Nat) :
    exec (.journalAppend f) s = .next ⟨s.dev.doJournal f, s.pending⟩ := rfl
theorem exec_comparatorFire (s : State) (c : Nat) :
    exec (.comparatorFire c) s = .next ⟨s.dev.doFire c, s.pending⟩ := rfl
theorem exec_watchWaitRetry (s : State) (n : Nat) (q : Queue) :
    exec (.watchWaitRetry n q) s = .next ⟨s.dev.doWatchRetry n q, s.pending⟩ := rfl
theorem exec_watchFrame (s : State) (value check lowTicks : Nat) :
    exec (.watchFrame value check lowTicks) s = .next ⟨s.dev.doWatchFrame value check lowTicks, s.pending⟩ := rfl
theorem exec_watchLoss (s : State) :
    exec .watchLoss s = .next ⟨s.dev.doWatchLoss, s.pending⟩ := rfl
theorem exec_watchSkew (s : State) :
    exec .watchSkew s = .next ⟨s.dev.doWatchSkew, s.pending⟩ := rfl
theorem exec_refLoss (s : State) :
    exec .refLoss s = .next ⟨s.dev.doRefLoss, s.pending⟩ := rfl
theorem exec_refRestored (s : State) :
    exec .refRestored s = .next ⟨s.dev.doRefRestored, s.pending⟩ := rfl
theorem exec_refFail (s : State) :
    exec .refFail s = .next ⟨s.dev.doRefFail, s.pending⟩ := rfl
theorem exec_heftSlew (s : State) (h : Nat) :
    exec (.heftSlew h) s = .next ⟨s.dev.doHeftSlew h, s.pending⟩ := rfl
theorem exec_heftSlewEnd (s : State) (h : Nat) :
    exec (.heftSlewEnd h) s = .next ⟨s.dev.doSlewEnd h, s.pending⟩ := rfl
theorem exec_periodStretch (s : State) (h : Nat) :
    exec (.periodStretch h) s = .next ⟨s.dev.doStretch h, s.pending⟩ := rfl
theorem exec_queueRealign (s : State) (h g : Nat) :
    exec (.queueRealign h g) s = .next ⟨s.dev.doRealign h g, s.pending⟩ := rfl
theorem exec_heftClockStop (s : State) (h : Nat) :
    exec (.heftClockStop h) s = .next ⟨s.dev.doClockStop h, s.pending⟩ := rfl
theorem exec_heftWake (s : State) (h : Nat) :
    exec (.heftWake h) s = .next ⟨s.dev.doWake h, s.pending⟩ := rfl
theorem exec_crossingHandshake (s : State) (h : Nat) :
    exec (.crossingHandshake h) s = .next ⟨s.dev.doHandshake h, s.pending⟩ := rfl
theorem exec_unitReset (s : State) (u : UnitId) :
    exec (.unitReset u) s = .next ⟨s.dev.doUnitReset u, s.pending⟩ := rfl
theorem exec_powerMeasurement (s : State) (watts fast slow : Nat) :
    exec (.powerMeasurement watts fast slow) s = .next ⟨s.dev.doMeasure watts fast slow, s.pending⟩ := rfl
theorem exec_governorStepDown (s : State) :
    exec .governorStepDown s = .next ⟨s.dev.doGovDown, s.pending⟩ := rfl
theorem exec_governorStepUp (s : State) :
    exec .governorStepUp s = .next ⟨s.dev.doGovUp, s.pending⟩ := rfl
theorem exec_excursionGuard (s : State) :
    exec .excursionGuard s = .next ⟨s.dev.doGuard, s.pending⟩ := rfl
theorem exec_governorPause (s : State) :
    exec .governorPause s = .next ⟨s.dev.doGovPause, s.pending⟩ := rfl
theorem exec_leaveGuard (s : State) :
    exec .leaveGuard s = .next ⟨s.dev.doLeaveGuard, s.pending⟩ := rfl
theorem exec_thermalStepDown (s : State) (h reading : Nat) :
    exec (.thermalStepDown h reading) s = .next ⟨s.dev.doThermDown h reading, s.pending⟩ := rfl
theorem exec_thermalStepUp (s : State) (h reading : Nat) :
    exec (.thermalStepUp h reading) s = .next ⟨s.dev.doThermUp h reading, s.pending⟩ := rfl
theorem exec_thermtrip (s : State) (h reading : Nat) :
    exec (.thermtrip h reading) s = .next ⟨s.dev.doThermtrip h reading, s.pending⟩ := rfl
theorem exec_vcoreChange (s : State) (half millivolts : Nat) :
    exec (.vcoreChange half millivolts) s = .next ⟨s.dev.doVcore half millivolts, s.pending⟩ := rfl
theorem exec_powerOnReset (s : State) :
    exec .powerOnReset s = .next ⟨s.dev.doPowerOn, s.pending⟩ := rfl
theorem exec_boot (s : State) :
    exec .boot s = .next ⟨s.dev.doBoot, s.pending⟩ := rfl
theorem exec_powerUp (s : State) :
    exec .powerUp s = .next ⟨s.dev.doPowerUp, s.pending⟩ := rfl
theorem exec_pgAsserted (s : State) :
    exec .pgAsserted s = .next ⟨s.dev.doPg, s.pending⟩ := rfl
theorem exec_powerDown (s : State) (opOff : Bool) :
    exec (.powerDown opOff) s = .next ⟨s.dev.doPowerDown opOff, s.pending⟩ := rfl
theorem exec_inputVoltageFault (s : State) (millivolts : Nat) :
    exec (.inputVoltageFault millivolts) s = .next ⟨s.dev.doInputFault millivolts, s.pending⟩ := rfl
theorem exec_siteSramTest (s : State) (n : Nat) (passed : Bool) :
    exec (.siteSramTest n passed) s = .next ⟨s.dev.doSramTest n passed, s.pending⟩ := rfl
theorem exec_selfTests (s : State) (failing : Option Nat) :
    exec (.selfTests failing) s = .next ⟨s.dev.doSelfTests failing, s.pending⟩ := rfl
theorem exec_memoryTraining (s : State) (fast slow : Option Nat) :
    exec (.memoryTraining fast slow) s = .next ⟨s.dev.doMemTraining fast slow, s.pending⟩ := rfl
theorem exec_enterFullService (s : State) :
    exec .enterFullService s = .next ⟨s.dev.doEnterS4, s.pending⟩ := rfl
theorem exec_moduleReset (s : State) (slotId : Nat) :
    exec (.moduleReset slotId) s = .next ⟨s.dev.doModuleReset slotId, s.pending⟩ := rfl
theorem exec_watchdog (s : State) :
    exec .watchdog s = .next ⟨s.dev.doWatchdog, s.pending⟩ := rfl
theorem exec_hostPortReset (s : State) :
    exec .hostPortReset s = .next ⟨s.dev.doPortReset, s.pending⟩ := rfl
theorem exec_functionLevelReset (s : State) (fn : Nat) :
    exec (.functionLevelReset fn) s = .next ⟨s.dev.doFlr fn, s.pending⟩ := rfl
theorem exec_tamperNFall (s : State) :
    exec .tamperNFall s = .next ⟨s.dev.doTamperFall, s.pending⟩ := rfl
theorem exec_tamperResponse (s : State) :
    exec .tamperResponse s = .next ⟨s.dev.doTamper, s.pending⟩ := rfl
theorem exec_drbgReseed (s : State) :
    exec .drbgReseed s = .next ⟨s.dev.doReseed, s.pending⟩ := rfl
theorem exec_vauxLoss (s : State) :
    exec .vauxLoss s = .next ⟨s.dev.doVauxLoss, s.pending⟩ := rfl
theorem exec_perstNRise (s : State) :
    exec .perstNRise s = .next ⟨s.dev.doPerst, s.pending⟩ := rfl
theorem exec_formationTimeout (s : State) :
    exec .formationTimeout s = .next ⟨s.dev.doFormTimeout, s.pending⟩ := rfl
theorem exec_tamperNRise (s : State) :
    exec .tamperNRise s = .next ⟨s.dev.doTamperRise, s.pending⟩ := rfl
theorem exec_finish (s : State) (session : Nat) (userCert : Option (List Byte × List Byte)) (macOk : Bool) :
    exec (.finish session userCert macOk) s = .next ⟨s.dev.doFinish session userCert macOk, s.pending⟩ := rfl
theorem exec_recoveryAssignment (s : State) (lost : Nat) (images : List (List Nat)) (exported : Nat) :
    exec (.recoveryAssignment lost images exported) s = .next ⟨s.dev.doAssignment lost images exported, s.pending⟩ := rfl

/-- Every command answers a next state and leaves the queue alone. -/
theorem exec_next (c : Instr) (s : State) : ∃ d, exec c s = .next ⟨d, s.pending⟩ := by
  cases c <;> exact ⟨_, rfl⟩

end Sys2Proof.Machine
end

