-- ==== Sys2Proof/Laws/State.lean ====
section
/-!
SUPPORT. One lemma per field of the device per update of it: what the update leaves in the field.
-/
namespace Sys2Proof.Machine

/-! ## Device.onSite -/

@[simp] theorem Device.onSite_idrev (d : Device) (n : Nat) (g : Site → Site) : (d.onSite n g).idrev = d.idrev := rfl
@[simp] theorem Device.onSite_serial (d : Device) (n : Nat) (g : Site → Site) : (d.onSite n g).serial = d.serial := rfl
@[simp] theorem Device.onSite_pins (d : Device) (n : Nat) (g : Site → Site) : (d.onSite n g).pins = d.pins := rfl
@[simp] theorem Device.onSite_power (d : Device) (n : Nat) (g : Site → Site) : (d.onSite n g).power = d.power := rfl
@[simp] theorem Device.onSite_bring (d : Device) (n : Nat) (g : Site → Site) : (d.onSite n g).bring = d.bring := rfl
@[simp] theorem Device.onSite_persist (d : Device) (n : Nat) (g : Site → Site) : (d.onSite n g).persist = d.persist := rfl
@[simp] theorem Device.onSite_sec (d : Device) (n : Nat) (g : Site → Site) : (d.onSite n g).sec = d.sec := rfl
@[simp] theorem Device.onSite_tap (d : Device) (n : Nat) (g : Site → Site) : (d.onSite n g).tap = d.tap := rfl
@[simp] theorem Device.onSite_cells (d : Device) (n : Nat) (g : Site → Site) : (d.onSite n g).cells = d.cells := rfl
@[simp] theorem Device.onSite_hefts (d : Device) (n : Nat) (g : Site → Site) : (d.onSite n g).hefts = d.hefts := rfl
@[simp] theorem Device.onSite_watch (d : Device) (n : Nat) (g : Site → Site) : (d.onSite n g).watch = d.watch := rfl
@[simp] theorem Device.onSite_ref (d : Device) (n : Nat) (g : Site → Site) : (d.onSite n g).ref = d.ref := rfl
@[simp] theorem Device.onSite_sites (d : Device) (n : Nat) (g : Site → Site) : (d.onSite n g).sites = d.sites.modify n g := rfl
@[simp] theorem Device.onSite_foldCount (d : Device) (n : Nat) (g : Site → Site) : (d.onSite n g).foldCount = d.foldCount := rfl
@[simp] theorem Device.onSite_folds (d : Device) (n : Nat) (g : Site → Site) : (d.onSite n g).folds = d.folds := rfl
@[simp] theorem Device.onSite_gtally (d : Device) (n : Nat) (g : Site → Site) : (d.onSite n g).gtally = d.gtally := rfl
@[simp] theorem Device.onSite_gateRows (d : Device) (n : Nat) (g : Site → Site) : (d.onSite n g).gateRows = d.gateRows := rfl
@[simp] theorem Device.onSite_fabric (d : Device) (n : Nat) (g : Site → Site) : (d.onSite n g).fabric = d.fabric := rfl
@[simp] theorem Device.onSite_mem (d : Device) (n : Nat) (g : Site → Site) : (d.onSite n g).mem = d.mem := rfl
@[simp] theorem Device.onSite_padScrub (d : Device) (n : Nat) (g : Site → Site) : (d.onSite n g).padScrub = d.padScrub := rfl
@[simp] theorem Device.onSite_deferred (d : Device) (n : Nat) (g : Site → Site) : (d.onSite n g).deferred = d.deferred := rfl
@[simp] theorem Device.onSite_hardLimit (d : Device) (n : Nat) (g : Site → Site) : (d.onSite n g).hardLimit = d.hardLimit := rfl
@[simp] theorem Device.onSite_shears (d : Device) (n : Nat) (g : Site → Site) : (d.onSite n g).shears = d.shears := rfl
@[simp] theorem Device.onSite_coll (d : Device) (n : Nat) (g : Site → Site) : (d.onSite n g).coll = d.coll := rfl
@[simp] theorem Device.onSite_links (d : Device) (n : Nat) (g : Site → Site) : (d.onSite n g).links = d.links := rfl
@[simp] theorem Device.onSite_flock (d : Device) (n : Nat) (g : Site → Site) : (d.onSite n g).flock = d.flock := rfl
@[simp] theorem Device.onSite_recov (d : Device) (n : Nat) (g : Site → Site) : (d.onSite n g).recov = d.recov := rfl
@[simp] theorem Device.onSite_cote (d : Device) (n : Nat) (g : Site → Site) : (d.onSite n g).cote = d.cote := rfl
@[simp] theorem Device.onSite_rings (d : Device) (n : Nat) (g : Site → Site) : (d.onSite n g).rings = d.rings := rfl
@[simp] theorem Device.onSite_descs (d : Device) (n : Nat) (g : Site → Site) : (d.onSite n g).descs = d.descs := rfl
@[simp] theorem Device.onSite_fetchOrder (d : Device) (n : Nat) (g : Site → Site) : (d.onSite n g).fetchOrder = d.fetchOrder := rfl
@[simp] theorem Device.onSite_hport (d : Device) (n : Nat) (g : Site → Site) : (d.onSite n g).hport = d.hport := rfl
@[simp] theorem Device.onSite_fns (d : Device) (n : Nat) (g : Site → Site) : (d.onSite n g).fns = d.fns := rfl
@[simp] theorem Device.onSite_trace (d : Device) (n : Nat) (g : Site → Site) : (d.onSite n g).trace = d.trace := rfl
@[simp] theorem Device.onSite_host (d : Device) (n : Nat) (g : Site → Site) : (d.onSite n g).host = d.host := rfl
@[simp] theorem Device.onSite_events (d : Device) (n : Nat) (g : Site → Site) : (d.onSite n g).events = d.events := rfl
@[simp] theorem Device.onSite_out (d : Device) (n : Nat) (g : Site → Site) : (d.onSite n g).out = d.out := rfl
@[simp] theorem Device.onSite_free (d : Device) (n : Nat) (g : Site → Site) : (d.onSite n g).free = d.free := rfl

/-! ## Device.onFold -/

@[simp] theorem Device.onFold_idrev (d : Device) (f : Nat) (g : Fold → Fold) : (d.onFold f g).idrev = d.idrev := rfl
@[simp] theorem Device.onFold_serial (d : Device) (f : Nat) (g : Fold → Fold) : (d.onFold f g).serial = d.serial := rfl
@[simp] theorem Device.onFold_pins (d : Device) (f : Nat) (g : Fold → Fold) : (d.onFold f g).pins = d.pins := rfl
@[simp] theorem Device.onFold_power (d : Device) (f : Nat) (g : Fold → Fold) : (d.onFold f g).power = d.power := rfl
@[simp] theorem Device.onFold_bring (d : Device) (f : Nat) (g : Fold → Fold) : (d.onFold f g).bring = d.bring := rfl
@[simp] theorem Device.onFold_persist (d : Device) (f : Nat) (g : Fold → Fold) : (d.onFold f g).persist = d.persist := rfl
@[simp] theorem Device.onFold_sec (d : Device) (f : Nat) (g : Fold → Fold) : (d.onFold f g).sec = d.sec := rfl
@[simp] theorem Device.onFold_tap (d : Device) (f : Nat) (g : Fold → Fold) : (d.onFold f g).tap = d.tap := rfl
@[simp] theorem Device.onFold_cells (d : Device) (f : Nat) (g : Fold → Fold) : (d.onFold f g).cells = d.cells := rfl
@[simp] theorem Device.onFold_hefts (d : Device) (f : Nat) (g : Fold → Fold) : (d.onFold f g).hefts = d.hefts := rfl
@[simp] theorem Device.onFold_watch (d : Device) (f : Nat) (g : Fold → Fold) : (d.onFold f g).watch = d.watch := rfl
@[simp] theorem Device.onFold_ref (d : Device) (f : Nat) (g : Fold → Fold) : (d.onFold f g).ref = d.ref := rfl
@[simp] theorem Device.onFold_sites (d : Device) (f : Nat) (g : Fold → Fold) : (d.onFold f g).sites = d.sites := rfl
@[simp] theorem Device.onFold_foldCount (d : Device) (f : Nat) (g : Fold → Fold) : (d.onFold f g).foldCount = d.foldCount := rfl
@[simp] theorem Device.onFold_folds (d : Device) (f : Nat) (g : Fold → Fold) : (d.onFold f g).folds = d.folds.modify f g := rfl
@[simp] theorem Device.onFold_gtally (d : Device) (f : Nat) (g : Fold → Fold) : (d.onFold f g).gtally = d.gtally := rfl
@[simp] theorem Device.onFold_gateRows (d : Device) (f : Nat) (g : Fold → Fold) : (d.onFold f g).gateRows = d.gateRows := rfl
@[simp] theorem Device.onFold_fabric (d : Device) (f : Nat) (g : Fold → Fold) : (d.onFold f g).fabric = d.fabric := rfl
@[simp] theorem Device.onFold_mem (d : Device) (f : Nat) (g : Fold → Fold) : (d.onFold f g).mem = d.mem := rfl
@[simp] theorem Device.onFold_padScrub (d : Device) (f : Nat) (g : Fold → Fold) : (d.onFold f g).padScrub = d.padScrub := rfl
@[simp] theorem Device.onFold_deferred (d : Device) (f : Nat) (g : Fold → Fold) : (d.onFold f g).deferred = d.deferred := rfl
@[simp] theorem Device.onFold_hardLimit (d : Device) (f : Nat) (g : Fold → Fold) : (d.onFold f g).hardLimit = d.hardLimit := rfl
@[simp] theorem Device.onFold_shears (d : Device) (f : Nat) (g : Fold → Fold) : (d.onFold f g).shears = d.shears := rfl
@[simp] theorem Device.onFold_coll (d : Device) (f : Nat) (g : Fold → Fold) : (d.onFold f g).coll = d.coll := rfl
@[simp] theorem Device.onFold_links (d : Device) (f : Nat) (g : Fold → Fold) : (d.onFold f g).links = d.links := rfl
@[simp] theorem Device.onFold_flock (d : Device) (f : Nat) (g : Fold → Fold) : (d.onFold f g).flock = d.flock := rfl
@[simp] theorem Device.onFold_recov (d : Device) (f : Nat) (g : Fold → Fold) : (d.onFold f g).recov = d.recov := rfl
@[simp] theorem Device.onFold_cote (d : Device) (f : Nat) (g : Fold → Fold) : (d.onFold f g).cote = d.cote := rfl
@[simp] theorem Device.onFold_rings (d : Device) (f : Nat) (g : Fold → Fold) : (d.onFold f g).rings = d.rings := rfl
@[simp] theorem Device.onFold_descs (d : Device) (f : Nat) (g : Fold → Fold) : (d.onFold f g).descs = d.descs := rfl
@[simp] theorem Device.onFold_fetchOrder (d : Device) (f : Nat) (g : Fold → Fold) : (d.onFold f g).fetchOrder = d.fetchOrder := rfl
@[simp] theorem Device.onFold_hport (d : Device) (f : Nat) (g : Fold → Fold) : (d.onFold f g).hport = d.hport := rfl
@[simp] theorem Device.onFold_fns (d : Device) (f : Nat) (g : Fold → Fold) : (d.onFold f g).fns = d.fns := rfl
@[simp] theorem Device.onFold_trace (d : Device) (f : Nat) (g : Fold → Fold) : (d.onFold f g).trace = d.trace := rfl
@[simp] theorem Device.onFold_host (d : Device) (f : Nat) (g : Fold → Fold) : (d.onFold f g).host = d.host := rfl
@[simp] theorem Device.onFold_events (d : Device) (f : Nat) (g : Fold → Fold) : (d.onFold f g).events = d.events := rfl
@[simp] theorem Device.onFold_out (d : Device) (f : Nat) (g : Fold → Fold) : (d.onFold f g).out = d.out := rfl
@[simp] theorem Device.onFold_free (d : Device) (f : Nat) (g : Fold → Fold) : (d.onFold f g).free = d.free := rfl

/-! ## Device.onHeft -/

@[simp] theorem Device.onHeft_idrev (d : Device) (h : Nat) (g : Heft → Heft) : (d.onHeft h g).idrev = d.idrev := rfl
@[simp] theorem Device.onHeft_serial (d : Device) (h : Nat) (g : Heft → Heft) : (d.onHeft h g).serial = d.serial := rfl
@[simp] theorem Device.onHeft_pins (d : Device) (h : Nat) (g : Heft → Heft) : (d.onHeft h g).pins = d.pins := rfl
@[simp] theorem Device.onHeft_power (d : Device) (h : Nat) (g : Heft → Heft) : (d.onHeft h g).power = d.power := rfl
@[simp] theorem Device.onHeft_bring (d : Device) (h : Nat) (g : Heft → Heft) : (d.onHeft h g).bring = d.bring := rfl
@[simp] theorem Device.onHeft_persist (d : Device) (h : Nat) (g : Heft → Heft) : (d.onHeft h g).persist = d.persist := rfl
@[simp] theorem Device.onHeft_sec (d : Device) (h : Nat) (g : Heft → Heft) : (d.onHeft h g).sec = d.sec := rfl
@[simp] theorem Device.onHeft_tap (d : Device) (h : Nat) (g : Heft → Heft) : (d.onHeft h g).tap = d.tap := rfl
@[simp] theorem Device.onHeft_cells (d : Device) (h : Nat) (g : Heft → Heft) : (d.onHeft h g).cells = d.cells := rfl
@[simp] theorem Device.onHeft_hefts (d : Device) (h : Nat) (g : Heft → Heft) : (d.onHeft h g).hefts = d.hefts.modify h g := rfl
@[simp] theorem Device.onHeft_watch (d : Device) (h : Nat) (g : Heft → Heft) : (d.onHeft h g).watch = d.watch := rfl
@[simp] theorem Device.onHeft_ref (d : Device) (h : Nat) (g : Heft → Heft) : (d.onHeft h g).ref = d.ref := rfl
@[simp] theorem Device.onHeft_sites (d : Device) (h : Nat) (g : Heft → Heft) : (d.onHeft h g).sites = d.sites := rfl
@[simp] theorem Device.onHeft_foldCount (d : Device) (h : Nat) (g : Heft → Heft) : (d.onHeft h g).foldCount = d.foldCount := rfl
@[simp] theorem Device.onHeft_folds (d : Device) (h : Nat) (g : Heft → Heft) : (d.onHeft h g).folds = d.folds := rfl
@[simp] theorem Device.onHeft_gtally (d : Device) (h : Nat) (g : Heft → Heft) : (d.onHeft h g).gtally = d.gtally := rfl
@[simp] theorem Device.onHeft_gateRows (d : Device) (h : Nat) (g : Heft → Heft) : (d.onHeft h g).gateRows = d.gateRows := rfl
@[simp] theorem Device.onHeft_fabric (d : Device) (h : Nat) (g : Heft → Heft) : (d.onHeft h g).fabric = d.fabric := rfl
@[simp] theorem Device.onHeft_mem (d : Device) (h : Nat) (g : Heft → Heft) : (d.onHeft h g).mem = d.mem := rfl
@[simp] theorem Device.onHeft_padScrub (d : Device) (h : Nat) (g : Heft → Heft) : (d.onHeft h g).padScrub = d.padScrub := rfl
@[simp] theorem Device.onHeft_deferred (d : Device) (h : Nat) (g : Heft → Heft) : (d.onHeft h g).deferred = d.deferred := rfl
@[simp] theorem Device.onHeft_hardLimit (d : Device) (h : Nat) (g : Heft → Heft) : (d.onHeft h g).hardLimit = d.hardLimit := rfl
@[simp] theorem Device.onHeft_shears (d : Device) (h : Nat) (g : Heft → Heft) : (d.onHeft h g).shears = d.shears := rfl
@[simp] theorem Device.onHeft_coll (d : Device) (h : Nat) (g : Heft → Heft) : (d.onHeft h g).coll = d.coll := rfl
@[simp] theorem Device.onHeft_links (d : Device) (h : Nat) (g : Heft → Heft) : (d.onHeft h g).links = d.links := rfl
@[simp] theorem Device.onHeft_flock (d : Device) (h : Nat) (g : Heft → Heft) : (d.onHeft h g).flock = d.flock := rfl
@[simp] theorem Device.onHeft_recov (d : Device) (h : Nat) (g : Heft → Heft) : (d.onHeft h g).recov = d.recov := rfl
@[simp] theorem Device.onHeft_cote (d : Device) (h : Nat) (g : Heft → Heft) : (d.onHeft h g).cote = d.cote := rfl
@[simp] theorem Device.onHeft_rings (d : Device) (h : Nat) (g : Heft → Heft) : (d.onHeft h g).rings = d.rings := rfl
@[simp] theorem Device.onHeft_descs (d : Device) (h : Nat) (g : Heft → Heft) : (d.onHeft h g).descs = d.descs := rfl
@[simp] theorem Device.onHeft_fetchOrder (d : Device) (h : Nat) (g : Heft → Heft) : (d.onHeft h g).fetchOrder = d.fetchOrder := rfl
@[simp] theorem Device.onHeft_hport (d : Device) (h : Nat) (g : Heft → Heft) : (d.onHeft h g).hport = d.hport := rfl
@[simp] theorem Device.onHeft_fns (d : Device) (h : Nat) (g : Heft → Heft) : (d.onHeft h g).fns = d.fns := rfl
@[simp] theorem Device.onHeft_trace (d : Device) (h : Nat) (g : Heft → Heft) : (d.onHeft h g).trace = d.trace := rfl
@[simp] theorem Device.onHeft_host (d : Device) (h : Nat) (g : Heft → Heft) : (d.onHeft h g).host = d.host := rfl
@[simp] theorem Device.onHeft_events (d : Device) (h : Nat) (g : Heft → Heft) : (d.onHeft h g).events = d.events := rfl
@[simp] theorem Device.onHeft_out (d : Device) (h : Nat) (g : Heft → Heft) : (d.onHeft h g).out = d.out := rfl
@[simp] theorem Device.onHeft_free (d : Device) (h : Nat) (g : Heft → Heft) : (d.onHeft h g).free = d.free := rfl

/-! ## Device.onLink -/

@[simp] theorem Device.onLink_idrev (d : Device) (k : Nat) (g : Link → Link) : (d.onLink k g).idrev = d.idrev := rfl
@[simp] theorem Device.onLink_serial (d : Device) (k : Nat) (g : Link → Link) : (d.onLink k g).serial = d.serial := rfl
@[simp] theorem Device.onLink_pins (d : Device) (k : Nat) (g : Link → Link) : (d.onLink k g).pins = d.pins := rfl
@[simp] theorem Device.onLink_power (d : Device) (k : Nat) (g : Link → Link) : (d.onLink k g).power = d.power := rfl
@[simp] theorem Device.onLink_bring (d : Device) (k : Nat) (g : Link → Link) : (d.onLink k g).bring = d.bring := rfl
@[simp] theorem Device.onLink_persist (d : Device) (k : Nat) (g : Link → Link) : (d.onLink k g).persist = d.persist := rfl
@[simp] theorem Device.onLink_sec (d : Device) (k : Nat) (g : Link → Link) : (d.onLink k g).sec = d.sec := rfl
@[simp] theorem Device.onLink_tap (d : Device) (k : Nat) (g : Link → Link) : (d.onLink k g).tap = d.tap := rfl
@[simp] theorem Device.onLink_cells (d : Device) (k : Nat) (g : Link → Link) : (d.onLink k g).cells = d.cells := rfl
@[simp] theorem Device.onLink_hefts (d : Device) (k : Nat) (g : Link → Link) : (d.onLink k g).hefts = d.hefts := rfl
@[simp] theorem Device.onLink_watch (d : Device) (k : Nat) (g : Link → Link) : (d.onLink k g).watch = d.watch := rfl
@[simp] theorem Device.onLink_ref (d : Device) (k : Nat) (g : Link → Link) : (d.onLink k g).ref = d.ref := rfl
@[simp] theorem Device.onLink_sites (d : Device) (k : Nat) (g : Link → Link) : (d.onLink k g).sites = d.sites := rfl
@[simp] theorem Device.onLink_foldCount (d : Device) (k : Nat) (g : Link → Link) : (d.onLink k g).foldCount = d.foldCount := rfl
@[simp] theorem Device.onLink_folds (d : Device) (k : Nat) (g : Link → Link) : (d.onLink k g).folds = d.folds := rfl
@[simp] theorem Device.onLink_gtally (d : Device) (k : Nat) (g : Link → Link) : (d.onLink k g).gtally = d.gtally := rfl
@[simp] theorem Device.onLink_gateRows (d : Device) (k : Nat) (g : Link → Link) : (d.onLink k g).gateRows = d.gateRows := rfl
@[simp] theorem Device.onLink_fabric (d : Device) (k : Nat) (g : Link → Link) : (d.onLink k g).fabric = d.fabric := rfl
@[simp] theorem Device.onLink_mem (d : Device) (k : Nat) (g : Link → Link) : (d.onLink k g).mem = d.mem := rfl
@[simp] theorem Device.onLink_padScrub (d : Device) (k : Nat) (g : Link → Link) : (d.onLink k g).padScrub = d.padScrub := rfl
@[simp] theorem Device.onLink_deferred (d : Device) (k : Nat) (g : Link → Link) : (d.onLink k g).deferred = d.deferred := rfl
@[simp] theorem Device.onLink_hardLimit (d : Device) (k : Nat) (g : Link → Link) : (d.onLink k g).hardLimit = d.hardLimit := rfl
@[simp] theorem Device.onLink_shears (d : Device) (k : Nat) (g : Link → Link) : (d.onLink k g).shears = d.shears := rfl
@[simp] theorem Device.onLink_coll (d : Device) (k : Nat) (g : Link → Link) : (d.onLink k g).coll = d.coll := rfl
@[simp] theorem Device.onLink_links (d : Device) (k : Nat) (g : Link → Link) : (d.onLink k g).links = d.links.modify k g := rfl
@[simp] theorem Device.onLink_flock (d : Device) (k : Nat) (g : Link → Link) : (d.onLink k g).flock = d.flock := rfl
@[simp] theorem Device.onLink_recov (d : Device) (k : Nat) (g : Link → Link) : (d.onLink k g).recov = d.recov := rfl
@[simp] theorem Device.onLink_cote (d : Device) (k : Nat) (g : Link → Link) : (d.onLink k g).cote = d.cote := rfl
@[simp] theorem Device.onLink_rings (d : Device) (k : Nat) (g : Link → Link) : (d.onLink k g).rings = d.rings := rfl
@[simp] theorem Device.onLink_descs (d : Device) (k : Nat) (g : Link → Link) : (d.onLink k g).descs = d.descs := rfl
@[simp] theorem Device.onLink_fetchOrder (d : Device) (k : Nat) (g : Link → Link) : (d.onLink k g).fetchOrder = d.fetchOrder := rfl
@[simp] theorem Device.onLink_hport (d : Device) (k : Nat) (g : Link → Link) : (d.onLink k g).hport = d.hport := rfl
@[simp] theorem Device.onLink_fns (d : Device) (k : Nat) (g : Link → Link) : (d.onLink k g).fns = d.fns := rfl
@[simp] theorem Device.onLink_trace (d : Device) (k : Nat) (g : Link → Link) : (d.onLink k g).trace = d.trace := rfl
@[simp] theorem Device.onLink_host (d : Device) (k : Nat) (g : Link → Link) : (d.onLink k g).host = d.host := rfl
@[simp] theorem Device.onLink_events (d : Device) (k : Nat) (g : Link → Link) : (d.onLink k g).events = d.events := rfl
@[simp] theorem Device.onLink_out (d : Device) (k : Nat) (g : Link → Link) : (d.onLink k g).out = d.out := rfl
@[simp] theorem Device.onLink_free (d : Device) (k : Nat) (g : Link → Link) : (d.onLink k g).free = d.free := rfl

/-! ## Device.onFn -/

@[simp] theorem Device.onFn_idrev (d : Device) (n : Nat) (g : FnRegs → FnRegs) : (d.onFn n g).idrev = d.idrev := rfl
@[simp] theorem Device.onFn_serial (d : Device) (n : Nat) (g : FnRegs → FnRegs) : (d.onFn n g).serial = d.serial := rfl
@[simp] theorem Device.onFn_pins (d : Device) (n : Nat) (g : FnRegs → FnRegs) : (d.onFn n g).pins = d.pins := rfl
@[simp] theorem Device.onFn_power (d : Device) (n : Nat) (g : FnRegs → FnRegs) : (d.onFn n g).power = d.power := rfl
@[simp] theorem Device.onFn_bring (d : Device) (n : Nat) (g : FnRegs → FnRegs) : (d.onFn n g).bring = d.bring := rfl
@[simp] theorem Device.onFn_persist (d : Device) (n : Nat) (g : FnRegs → FnRegs) : (d.onFn n g).persist = d.persist := rfl
@[simp] theorem Device.onFn_sec (d : Device) (n : Nat) (g : FnRegs → FnRegs) : (d.onFn n g).sec = d.sec := rfl
@[simp] theorem Device.onFn_tap (d : Device) (n : Nat) (g : FnRegs → FnRegs) : (d.onFn n g).tap = d.tap := rfl
@[simp] theorem Device.onFn_cells (d : Device) (n : Nat) (g : FnRegs → FnRegs) : (d.onFn n g).cells = d.cells := rfl
@[simp] theorem Device.onFn_hefts (d : Device) (n : Nat) (g : FnRegs → FnRegs) : (d.onFn n g).hefts = d.hefts := rfl
@[simp] theorem Device.onFn_watch (d : Device) (n : Nat) (g : FnRegs → FnRegs) : (d.onFn n g).watch = d.watch := rfl
@[simp] theorem Device.onFn_ref (d : Device) (n : Nat) (g : FnRegs → FnRegs) : (d.onFn n g).ref = d.ref := rfl
@[simp] theorem Device.onFn_sites (d : Device) (n : Nat) (g : FnRegs → FnRegs) : (d.onFn n g).sites = d.sites := rfl
@[simp] theorem Device.onFn_foldCount (d : Device) (n : Nat) (g : FnRegs → FnRegs) : (d.onFn n g).foldCount = d.foldCount := rfl
@[simp] theorem Device.onFn_folds (d : Device) (n : Nat) (g : FnRegs → FnRegs) : (d.onFn n g).folds = d.folds := rfl
@[simp] theorem Device.onFn_gtally (d : Device) (n : Nat) (g : FnRegs → FnRegs) : (d.onFn n g).gtally = d.gtally := rfl
@[simp] theorem Device.onFn_gateRows (d : Device) (n : Nat) (g : FnRegs → FnRegs) : (d.onFn n g).gateRows = d.gateRows := rfl
@[simp] theorem Device.onFn_fabric (d : Device) (n : Nat) (g : FnRegs → FnRegs) : (d.onFn n g).fabric = d.fabric := rfl
@[simp] theorem Device.onFn_mem (d : Device) (n : Nat) (g : FnRegs → FnRegs) : (d.onFn n g).mem = d.mem := rfl
@[simp] theorem Device.onFn_padScrub (d : Device) (n : Nat) (g : FnRegs → FnRegs) : (d.onFn n g).padScrub = d.padScrub := rfl
@[simp] theorem Device.onFn_deferred (d : Device) (n : Nat) (g : FnRegs → FnRegs) : (d.onFn n g).deferred = d.deferred := rfl
@[simp] theorem Device.onFn_hardLimit (d : Device) (n : Nat) (g : FnRegs → FnRegs) : (d.onFn n g).hardLimit = d.hardLimit := rfl
@[simp] theorem Device.onFn_shears (d : Device) (n : Nat) (g : FnRegs → FnRegs) : (d.onFn n g).shears = d.shears := rfl
@[simp] theorem Device.onFn_coll (d : Device) (n : Nat) (g : FnRegs → FnRegs) : (d.onFn n g).coll = d.coll := rfl
@[simp] theorem Device.onFn_links (d : Device) (n : Nat) (g : FnRegs → FnRegs) : (d.onFn n g).links = d.links := rfl
@[simp] theorem Device.onFn_flock (d : Device) (n : Nat) (g : FnRegs → FnRegs) : (d.onFn n g).flock = d.flock := rfl
@[simp] theorem Device.onFn_recov (d : Device) (n : Nat) (g : FnRegs → FnRegs) : (d.onFn n g).recov = d.recov := rfl
@[simp] theorem Device.onFn_cote (d : Device) (n : Nat) (g : FnRegs → FnRegs) : (d.onFn n g).cote = d.cote := rfl
@[simp] theorem Device.onFn_rings (d : Device) (n : Nat) (g : FnRegs → FnRegs) : (d.onFn n g).rings = d.rings := rfl
@[simp] theorem Device.onFn_descs (d : Device) (n : Nat) (g : FnRegs → FnRegs) : (d.onFn n g).descs = d.descs := rfl
@[simp] theorem Device.onFn_fetchOrder (d : Device) (n : Nat) (g : FnRegs → FnRegs) : (d.onFn n g).fetchOrder = d.fetchOrder := rfl
@[simp] theorem Device.onFn_hport (d : Device) (n : Nat) (g : FnRegs → FnRegs) : (d.onFn n g).hport = d.hport := rfl
@[simp] theorem Device.onFn_fns (d : Device) (n : Nat) (g : FnRegs → FnRegs) : (d.onFn n g).fns = d.fns.modify n g := rfl
@[simp] theorem Device.onFn_trace (d : Device) (n : Nat) (g : FnRegs → FnRegs) : (d.onFn n g).trace = d.trace := rfl
@[simp] theorem Device.onFn_host (d : Device) (n : Nat) (g : FnRegs → FnRegs) : (d.onFn n g).host = d.host := rfl
@[simp] theorem Device.onFn_events (d : Device) (n : Nat) (g : FnRegs → FnRegs) : (d.onFn n g).events = d.events := rfl
@[simp] theorem Device.onFn_out (d : Device) (n : Nat) (g : FnRegs → FnRegs) : (d.onFn n g).out = d.out := rfl
@[simp] theorem Device.onFn_free (d : Device) (n : Nat) (g : FnRegs → FnRegs) : (d.onFn n g).free = d.free := rfl

/-! ## Device.onQuarter -/

@[simp] theorem Device.onQuarter_idrev (d : Device) (q : Nat) (g : Quarter → Quarter) : (d.onQuarter q g).idrev = d.idrev := rfl
@[simp] theorem Device.onQuarter_serial (d : Device) (q : Nat) (g : Quarter → Quarter) : (d.onQuarter q g).serial = d.serial := rfl
@[simp] theorem Device.onQuarter_pins (d : Device) (q : Nat) (g : Quarter → Quarter) : (d.onQuarter q g).pins = d.pins := rfl
@[simp] theorem Device.onQuarter_power (d : Device) (q : Nat) (g : Quarter → Quarter) : (d.onQuarter q g).power = d.power := rfl
@[simp] theorem Device.onQuarter_bring (d : Device) (q : Nat) (g : Quarter → Quarter) : (d.onQuarter q g).bring = d.bring := rfl
@[simp] theorem Device.onQuarter_persist (d : Device) (q : Nat) (g : Quarter → Quarter) : (d.onQuarter q g).persist = d.persist := rfl
@[simp] theorem Device.onQuarter_sec (d : Device) (q : Nat) (g : Quarter → Quarter) : (d.onQuarter q g).sec = d.sec := rfl
@[simp] theorem Device.onQuarter_tap (d : Device) (q : Nat) (g : Quarter → Quarter) : (d.onQuarter q g).tap = d.tap := rfl
@[simp] theorem Device.onQuarter_cells (d : Device) (q : Nat) (g : Quarter → Quarter) : (d.onQuarter q g).cells = d.cells := rfl
@[simp] theorem Device.onQuarter_hefts (d : Device) (q : Nat) (g : Quarter → Quarter) : (d.onQuarter q g).hefts = d.hefts := rfl
@[simp] theorem Device.onQuarter_watch (d : Device) (q : Nat) (g : Quarter → Quarter) : (d.onQuarter q g).watch = d.watch := rfl
@[simp] theorem Device.onQuarter_ref (d : Device) (q : Nat) (g : Quarter → Quarter) : (d.onQuarter q g).ref = d.ref := rfl
@[simp] theorem Device.onQuarter_sites (d : Device) (q : Nat) (g : Quarter → Quarter) : (d.onQuarter q g).sites = d.sites := rfl
@[simp] theorem Device.onQuarter_foldCount (d : Device) (q : Nat) (g : Quarter → Quarter) : (d.onQuarter q g).foldCount = d.foldCount := rfl
@[simp] theorem Device.onQuarter_folds (d : Device) (q : Nat) (g : Quarter → Quarter) : (d.onQuarter q g).folds = d.folds := rfl
@[simp] theorem Device.onQuarter_gtally (d : Device) (q : Nat) (g : Quarter → Quarter) : (d.onQuarter q g).gtally = d.gtally := rfl
@[simp] theorem Device.onQuarter_gateRows (d : Device) (q : Nat) (g : Quarter → Quarter) : (d.onQuarter q g).gateRows = d.gateRows := rfl
@[simp] theorem Device.onQuarter_fabric (d : Device) (q : Nat) (g : Quarter → Quarter) : (d.onQuarter q g).fabric = d.fabric := rfl
@[simp] theorem Device.onQuarter_mem (d : Device) (q : Nat) (g : Quarter → Quarter) : (d.onQuarter q g).mem = { d.mem with quarters := d.mem.quarters.modify q g } := rfl
@[simp] theorem Device.onQuarter_padScrub (d : Device) (q : Nat) (g : Quarter → Quarter) : (d.onQuarter q g).padScrub = d.padScrub := rfl
@[simp] theorem Device.onQuarter_deferred (d : Device) (q : Nat) (g : Quarter → Quarter) : (d.onQuarter q g).deferred = d.deferred := rfl
@[simp] theorem Device.onQuarter_hardLimit (d : Device) (q : Nat) (g : Quarter → Quarter) : (d.onQuarter q g).hardLimit = d.hardLimit := rfl
@[simp] theorem Device.onQuarter_shears (d : Device) (q : Nat) (g : Quarter → Quarter) : (d.onQuarter q g).shears = d.shears := rfl
@[simp] theorem Device.onQuarter_coll (d : Device) (q : Nat) (g : Quarter → Quarter) : (d.onQuarter q g).coll = d.coll := rfl
@[simp] theorem Device.onQuarter_links (d : Device) (q : Nat) (g : Quarter → Quarter) : (d.onQuarter q g).links = d.links := rfl
@[simp] theorem Device.onQuarter_flock (d : Device) (q : Nat) (g : Quarter → Quarter) : (d.onQuarter q g).flock = d.flock := rfl
@[simp] theorem Device.onQuarter_recov (d : Device) (q : Nat) (g : Quarter → Quarter) : (d.onQuarter q g).recov = d.recov := rfl
@[simp] theorem Device.onQuarter_cote (d : Device) (q : Nat) (g : Quarter → Quarter) : (d.onQuarter q g).cote = d.cote := rfl
@[simp] theorem Device.onQuarter_rings (d : Device) (q : Nat) (g : Quarter → Quarter) : (d.onQuarter q g).rings = d.rings := rfl
@[simp] theorem Device.onQuarter_descs (d : Device) (q : Nat) (g : Quarter → Quarter) : (d.onQuarter q g).descs = d.descs := rfl
@[simp] theorem Device.onQuarter_fetchOrder (d : Device) (q : Nat) (g : Quarter → Quarter) : (d.onQuarter q g).fetchOrder = d.fetchOrder := rfl
@[simp] theorem Device.onQuarter_hport (d : Device) (q : Nat) (g : Quarter → Quarter) : (d.onQuarter q g).hport = d.hport := rfl
@[simp] theorem Device.onQuarter_fns (d : Device) (q : Nat) (g : Quarter → Quarter) : (d.onQuarter q g).fns = d.fns := rfl
@[simp] theorem Device.onQuarter_trace (d : Device) (q : Nat) (g : Quarter → Quarter) : (d.onQuarter q g).trace = d.trace := rfl
@[simp] theorem Device.onQuarter_host (d : Device) (q : Nat) (g : Quarter → Quarter) : (d.onQuarter q g).host = d.host := rfl
@[simp] theorem Device.onQuarter_events (d : Device) (q : Nat) (g : Quarter → Quarter) : (d.onQuarter q g).events = d.events := rfl
@[simp] theorem Device.onQuarter_out (d : Device) (q : Nat) (g : Quarter → Quarter) : (d.onQuarter q g).out = d.out := rfl
@[simp] theorem Device.onQuarter_free (d : Device) (q : Nat) (g : Quarter → Quarter) : (d.onQuarter q g).free = d.free := rfl

/-! ## Device.setRing -/

@[simp] theorem Device.setRing_idrev (d : Device) (n : Nat) (r : Ring) : (d.setRing n r).idrev = d.idrev := rfl
@[simp] theorem Device.setRing_serial (d : Device) (n : Nat) (r : Ring) : (d.setRing n r).serial = d.serial := rfl
@[simp] theorem Device.setRing_pins (d : Device) (n : Nat) (r : Ring) : (d.setRing n r).pins = d.pins := rfl
@[simp] theorem Device.setRing_power (d : Device) (n : Nat) (r : Ring) : (d.setRing n r).power = d.power := rfl
@[simp] theorem Device.setRing_bring (d : Device) (n : Nat) (r : Ring) : (d.setRing n r).bring = d.bring := rfl
@[simp] theorem Device.setRing_persist (d : Device) (n : Nat) (r : Ring) : (d.setRing n r).persist = d.persist := rfl
@[simp] theorem Device.setRing_sec (d : Device) (n : Nat) (r : Ring) : (d.setRing n r).sec = d.sec := rfl
@[simp] theorem Device.setRing_tap (d : Device) (n : Nat) (r : Ring) : (d.setRing n r).tap = d.tap := rfl
@[simp] theorem Device.setRing_cells (d : Device) (n : Nat) (r : Ring) : (d.setRing n r).cells = d.cells := rfl
@[simp] theorem Device.setRing_hefts (d : Device) (n : Nat) (r : Ring) : (d.setRing n r).hefts = d.hefts := rfl
@[simp] theorem Device.setRing_watch (d : Device) (n : Nat) (r : Ring) : (d.setRing n r).watch = d.watch := rfl
@[simp] theorem Device.setRing_ref (d : Device) (n : Nat) (r : Ring) : (d.setRing n r).ref = d.ref := rfl
@[simp] theorem Device.setRing_sites (d : Device) (n : Nat) (r : Ring) : (d.setRing n r).sites = d.sites := rfl
@[simp] theorem Device.setRing_foldCount (d : Device) (n : Nat) (r : Ring) : (d.setRing n r).foldCount = d.foldCount := rfl
@[simp] theorem Device.setRing_folds (d : Device) (n : Nat) (r : Ring) : (d.setRing n r).folds = d.folds := rfl
@[simp] theorem Device.setRing_gtally (d : Device) (n : Nat) (r : Ring) : (d.setRing n r).gtally = d.gtally := rfl
@[simp] theorem Device.setRing_gateRows (d : Device) (n : Nat) (r : Ring) : (d.setRing n r).gateRows = d.gateRows := rfl
@[simp] theorem Device.setRing_fabric (d : Device) (n : Nat) (r : Ring) : (d.setRing n r).fabric = d.fabric := rfl
@[simp] theorem Device.setRing_mem (d : Device) (n : Nat) (r : Ring) : (d.setRing n r).mem = d.mem := rfl
@[simp] theorem Device.setRing_padScrub (d : Device) (n : Nat) (r : Ring) : (d.setRing n r).padScrub = d.padScrub := rfl
@[simp] theorem Device.setRing_deferred (d : Device) (n : Nat) (r : Ring) : (d.setRing n r).deferred = d.deferred := rfl
@[simp] theorem Device.setRing_hardLimit (d : Device) (n : Nat) (r : Ring) : (d.setRing n r).hardLimit = d.hardLimit := rfl
@[simp] theorem Device.setRing_shears (d : Device) (n : Nat) (r : Ring) : (d.setRing n r).shears = d.shears := rfl
@[simp] theorem Device.setRing_coll (d : Device) (n : Nat) (r : Ring) : (d.setRing n r).coll = d.coll := rfl
@[simp] theorem Device.setRing_links (d : Device) (n : Nat) (r : Ring) : (d.setRing n r).links = d.links := rfl
@[simp] theorem Device.setRing_flock (d : Device) (n : Nat) (r : Ring) : (d.setRing n r).flock = d.flock := rfl
@[simp] theorem Device.setRing_recov (d : Device) (n : Nat) (r : Ring) : (d.setRing n r).recov = d.recov := rfl
@[simp] theorem Device.setRing_cote (d : Device) (n : Nat) (r : Ring) : (d.setRing n r).cote = d.cote := rfl
@[simp] theorem Device.setRing_rings (d : Device) (n : Nat) (r : Ring) : (d.setRing n r).rings = sset .reset d.rings n r := rfl
@[simp] theorem Device.setRing_descs (d : Device) (n : Nat) (r : Ring) : (d.setRing n r).descs = d.descs := rfl
@[simp] theorem Device.setRing_fetchOrder (d : Device) (n : Nat) (r : Ring) : (d.setRing n r).fetchOrder = d.fetchOrder := rfl
@[simp] theorem Device.setRing_hport (d : Device) (n : Nat) (r : Ring) : (d.setRing n r).hport = d.hport := rfl
@[simp] theorem Device.setRing_fns (d : Device) (n : Nat) (r : Ring) : (d.setRing n r).fns = d.fns := rfl
@[simp] theorem Device.setRing_trace (d : Device) (n : Nat) (r : Ring) : (d.setRing n r).trace = d.trace := rfl
@[simp] theorem Device.setRing_host (d : Device) (n : Nat) (r : Ring) : (d.setRing n r).host = d.host := rfl
@[simp] theorem Device.setRing_events (d : Device) (n : Nat) (r : Ring) : (d.setRing n r).events = d.events := rfl
@[simp] theorem Device.setRing_out (d : Device) (n : Nat) (r : Ring) : (d.setRing n r).out = d.out := rfl
@[simp] theorem Device.setRing_free (d : Device) (n : Nat) (r : Ring) : (d.setRing n r).free = d.free := rfl

/-! ## Device.event -/

@[simp] theorem Device.event_idrev (d : Device) (e : EventName) (data : List Nat) : (d.event e data).idrev = d.idrev := rfl
@[simp] theorem Device.event_serial (d : Device) (e : EventName) (data : List Nat) : (d.event e data).serial = d.serial := rfl
@[simp] theorem Device.event_pins (d : Device) (e : EventName) (data : List Nat) : (d.event e data).pins = d.pins := rfl
@[simp] theorem Device.event_power (d : Device) (e : EventName) (data : List Nat) : (d.event e data).power = d.power := rfl
@[simp] theorem Device.event_bring (d : Device) (e : EventName) (data : List Nat) : (d.event e data).bring = d.bring := rfl
@[simp] theorem Device.event_persist (d : Device) (e : EventName) (data : List Nat) : (d.event e data).persist = d.persist := rfl
@[simp] theorem Device.event_sec (d : Device) (e : EventName) (data : List Nat) : (d.event e data).sec = d.sec := rfl
@[simp] theorem Device.event_tap (d : Device) (e : EventName) (data : List Nat) : (d.event e data).tap = d.tap := rfl
@[simp] theorem Device.event_cells (d : Device) (e : EventName) (data : List Nat) : (d.event e data).cells = d.cells := rfl
@[simp] theorem Device.event_hefts (d : Device) (e : EventName) (data : List Nat) : (d.event e data).hefts = d.hefts := rfl
@[simp] theorem Device.event_watch (d : Device) (e : EventName) (data : List Nat) : (d.event e data).watch = d.watch := rfl
@[simp] theorem Device.event_ref (d : Device) (e : EventName) (data : List Nat) : (d.event e data).ref = d.ref := rfl
@[simp] theorem Device.event_sites (d : Device) (e : EventName) (data : List Nat) : (d.event e data).sites = d.sites := rfl
@[simp] theorem Device.event_foldCount (d : Device) (e : EventName) (data : List Nat) : (d.event e data).foldCount = d.foldCount := rfl
@[simp] theorem Device.event_folds (d : Device) (e : EventName) (data : List Nat) : (d.event e data).folds = d.folds := rfl
@[simp] theorem Device.event_gtally (d : Device) (e : EventName) (data : List Nat) : (d.event e data).gtally = d.gtally := rfl
@[simp] theorem Device.event_gateRows (d : Device) (e : EventName) (data : List Nat) : (d.event e data).gateRows = d.gateRows := rfl
@[simp] theorem Device.event_fabric (d : Device) (e : EventName) (data : List Nat) : (d.event e data).fabric = d.fabric := rfl
@[simp] theorem Device.event_mem (d : Device) (e : EventName) (data : List Nat) : (d.event e data).mem = d.mem := rfl
@[simp] theorem Device.event_padScrub (d : Device) (e : EventName) (data : List Nat) : (d.event e data).padScrub = d.padScrub := rfl
@[simp] theorem Device.event_deferred (d : Device) (e : EventName) (data : List Nat) : (d.event e data).deferred = d.deferred := rfl
@[simp] theorem Device.event_hardLimit (d : Device) (e : EventName) (data : List Nat) : (d.event e data).hardLimit = d.hardLimit := rfl
@[simp] theorem Device.event_shears (d : Device) (e : EventName) (data : List Nat) : (d.event e data).shears = d.shears := rfl
@[simp] theorem Device.event_coll (d : Device) (e : EventName) (data : List Nat) : (d.event e data).coll = d.coll := rfl
@[simp] theorem Device.event_links (d : Device) (e : EventName) (data : List Nat) : (d.event e data).links = d.links := rfl
@[simp] theorem Device.event_flock (d : Device) (e : EventName) (data : List Nat) : (d.event e data).flock = d.flock := rfl
@[simp] theorem Device.event_recov (d : Device) (e : EventName) (data : List Nat) : (d.event e data).recov = d.recov := rfl
@[simp] theorem Device.event_cote (d : Device) (e : EventName) (data : List Nat) : (d.event e data).cote = d.cote := rfl
@[simp] theorem Device.event_rings (d : Device) (e : EventName) (data : List Nat) : (d.event e data).rings = d.rings := rfl
@[simp] theorem Device.event_descs (d : Device) (e : EventName) (data : List Nat) : (d.event e data).descs = d.descs := rfl
@[simp] theorem Device.event_fetchOrder (d : Device) (e : EventName) (data : List Nat) : (d.event e data).fetchOrder = d.fetchOrder := rfl
@[simp] theorem Device.event_hport (d : Device) (e : EventName) (data : List Nat) : (d.event e data).hport = d.hport := rfl
@[simp] theorem Device.event_fns (d : Device) (e : EventName) (data : List Nat) : (d.event e data).fns = d.fns := rfl
@[simp] theorem Device.event_trace (d : Device) (e : EventName) (data : List Nat) : (d.event e data).trace = d.trace := rfl
@[simp] theorem Device.event_host (d : Device) (e : EventName) (data : List Nat) : (d.event e data).host = d.host := rfl
@[simp] theorem Device.event_events (d : Device) (e : EventName) (data : List Nat) : (d.event e data).events = d.events ++ [⟨e, data, d.now⟩] := rfl
@[simp] theorem Device.event_out (d : Device) (e : EventName) (data : List Nat) : (d.event e data).out = d.out := rfl
@[simp] theorem Device.event_free (d : Device) (e : EventName) (data : List Nat) : (d.event e data).free = d.free := rfl

/-! ## Device.emit -/

@[simp] theorem Device.emit_idrev (d : Device) (o : Output) : (d.emit o).idrev = d.idrev := rfl
@[simp] theorem Device.emit_serial (d : Device) (o : Output) : (d.emit o).serial = d.serial := rfl
@[simp] theorem Device.emit_pins (d : Device) (o : Output) : (d.emit o).pins = d.pins := rfl
@[simp] theorem Device.emit_power (d : Device) (o : Output) : (d.emit o).power = d.power := rfl
@[simp] theorem Device.emit_bring (d : Device) (o : Output) : (d.emit o).bring = d.bring := rfl
@[simp] theorem Device.emit_persist (d : Device) (o : Output) : (d.emit o).persist = d.persist := rfl
@[simp] theorem Device.emit_sec (d : Device) (o : Output) : (d.emit o).sec = d.sec := rfl
@[simp] theorem Device.emit_tap (d : Device) (o : Output) : (d.emit o).tap = d.tap := rfl
@[simp] theorem Device.emit_cells (d : Device) (o : Output) : (d.emit o).cells = d.cells := rfl
@[simp] theorem Device.emit_hefts (d : Device) (o : Output) : (d.emit o).hefts = d.hefts := rfl
@[simp] theorem Device.emit_watch (d : Device) (o : Output) : (d.emit o).watch = d.watch := rfl
@[simp] theorem Device.emit_ref (d : Device) (o : Output) : (d.emit o).ref = d.ref := rfl
@[simp] theorem Device.emit_sites (d : Device) (o : Output) : (d.emit o).sites = d.sites := rfl
@[simp] theorem Device.emit_foldCount (d : Device) (o : Output) : (d.emit o).foldCount = d.foldCount := rfl
@[simp] theorem Device.emit_folds (d : Device) (o : Output) : (d.emit o).folds = d.folds := rfl
@[simp] theorem Device.emit_gtally (d : Device) (o : Output) : (d.emit o).gtally = d.gtally := rfl
@[simp] theorem Device.emit_gateRows (d : Device) (o : Output) : (d.emit o).gateRows = d.gateRows := rfl
@[simp] theorem Device.emit_fabric (d : Device) (o : Output) : (d.emit o).fabric = d.fabric := rfl
@[simp] theorem Device.emit_mem (d : Device) (o : Output) : (d.emit o).mem = d.mem := rfl
@[simp] theorem Device.emit_padScrub (d : Device) (o : Output) : (d.emit o).padScrub = d.padScrub := rfl
@[simp] theorem Device.emit_deferred (d : Device) (o : Output) : (d.emit o).deferred = d.deferred := rfl
@[simp] theorem Device.emit_hardLimit (d : Device) (o : Output) : (d.emit o).hardLimit = d.hardLimit := rfl
@[simp] theorem Device.emit_shears (d : Device) (o : Output) : (d.emit o).shears = d.shears := rfl
@[simp] theorem Device.emit_coll (d : Device) (o : Output) : (d.emit o).coll = d.coll := rfl
@[simp] theorem Device.emit_links (d : Device) (o : Output) : (d.emit o).links = d.links := rfl
@[simp] theorem Device.emit_flock (d : Device) (o : Output) : (d.emit o).flock = d.flock := rfl
@[simp] theorem Device.emit_recov (d : Device) (o : Output) : (d.emit o).recov = d.recov := rfl
@[simp] theorem Device.emit_cote (d : Device) (o : Output) : (d.emit o).cote = d.cote := rfl
@[simp] theorem Device.emit_rings (d : Device) (o : Output) : (d.emit o).rings = d.rings := rfl
@[simp] theorem Device.emit_descs (d : Device) (o : Output) : (d.emit o).descs = d.descs := rfl
@[simp] theorem Device.emit_fetchOrder (d : Device) (o : Output) : (d.emit o).fetchOrder = d.fetchOrder := rfl
@[simp] theorem Device.emit_hport (d : Device) (o : Output) : (d.emit o).hport = d.hport := rfl
@[simp] theorem Device.emit_fns (d : Device) (o : Output) : (d.emit o).fns = d.fns := rfl
@[simp] theorem Device.emit_trace (d : Device) (o : Output) : (d.emit o).trace = d.trace := rfl
@[simp] theorem Device.emit_host (d : Device) (o : Output) : (d.emit o).host = d.host := rfl
@[simp] theorem Device.emit_events (d : Device) (o : Output) : (d.emit o).events = d.events := rfl
@[simp] theorem Device.emit_out (d : Device) (o : Output) : (d.emit o).out = d.out ++ [o] := rfl
@[simp] theorem Device.emit_free (d : Device) (o : Output) : (d.emit o).free = d.free := rfl

/-! ## Device.draw -/

@[simp] theorem Device.draw_idrev (d : Device) : (d.draw).idrev = d.idrev := rfl
@[simp] theorem Device.draw_serial (d : Device) : (d.draw).serial = d.serial := rfl
@[simp] theorem Device.draw_pins (d : Device) : (d.draw).pins = d.pins := rfl
@[simp] theorem Device.draw_power (d : Device) : (d.draw).power = d.power := rfl
@[simp] theorem Device.draw_bring (d : Device) : (d.draw).bring = d.bring := rfl
@[simp] theorem Device.draw_persist (d : Device) : (d.draw).persist = d.persist := rfl
@[simp] theorem Device.draw_sec (d : Device) : (d.draw).sec = d.sec := rfl
@[simp] theorem Device.draw_tap (d : Device) : (d.draw).tap = d.tap := rfl
@[simp] theorem Device.draw_cells (d : Device) : (d.draw).cells = d.cells := rfl
@[simp] theorem Device.draw_hefts (d : Device) : (d.draw).hefts = d.hefts := rfl
@[simp] theorem Device.draw_watch (d : Device) : (d.draw).watch = d.watch := rfl
@[simp] theorem Device.draw_ref (d : Device) : (d.draw).ref = d.ref := rfl
@[simp] theorem Device.draw_sites (d : Device) : (d.draw).sites = d.sites := rfl
@[simp] theorem Device.draw_foldCount (d : Device) : (d.draw).foldCount = d.foldCount := rfl
@[simp] theorem Device.draw_folds (d : Device) : (d.draw).folds = d.folds := rfl
@[simp] theorem Device.draw_gtally (d : Device) : (d.draw).gtally = d.gtally := rfl
@[simp] theorem Device.draw_gateRows (d : Device) : (d.draw).gateRows = d.gateRows := rfl
@[simp] theorem Device.draw_fabric (d : Device) : (d.draw).fabric = d.fabric := rfl
@[simp] theorem Device.draw_mem (d : Device) : (d.draw).mem = d.mem := rfl
@[simp] theorem Device.draw_padScrub (d : Device) : (d.draw).padScrub = d.padScrub := rfl
@[simp] theorem Device.draw_deferred (d : Device) : (d.draw).deferred = d.deferred := rfl
@[simp] theorem Device.draw_hardLimit (d : Device) : (d.draw).hardLimit = d.hardLimit := rfl
@[simp] theorem Device.draw_shears (d : Device) : (d.draw).shears = d.shears := rfl
@[simp] theorem Device.draw_coll (d : Device) : (d.draw).coll = d.coll := rfl
@[simp] theorem Device.draw_links (d : Device) : (d.draw).links = d.links := rfl
@[simp] theorem Device.draw_flock (d : Device) : (d.draw).flock = d.flock := rfl
@[simp] theorem Device.draw_recov (d : Device) : (d.draw).recov = d.recov := rfl
@[simp] theorem Device.draw_cote (d : Device) : (d.draw).cote = d.cote := rfl
@[simp] theorem Device.draw_rings (d : Device) : (d.draw).rings = d.rings := rfl
@[simp] theorem Device.draw_descs (d : Device) : (d.draw).descs = d.descs := rfl
@[simp] theorem Device.draw_fetchOrder (d : Device) : (d.draw).fetchOrder = d.fetchOrder := rfl
@[simp] theorem Device.draw_hport (d : Device) : (d.draw).hport = d.hport := rfl
@[simp] theorem Device.draw_fns (d : Device) : (d.draw).fns = d.fns := rfl
@[simp] theorem Device.draw_trace (d : Device) : (d.draw).trace = d.trace := rfl
@[simp] theorem Device.draw_host (d : Device) : (d.draw).host = d.host := rfl
@[simp] theorem Device.draw_events (d : Device) : (d.draw).events = d.events := rfl
@[simp] theorem Device.draw_out (d : Device) : (d.draw).out = d.out := rfl
@[simp] theorem Device.draw_free (d : Device) : (d.draw).free = d.free + 1 := rfl

/-! ## Device.dropJobs -/

@[simp] theorem Device.dropJobs_idrev (d : Device) (g : Job → Bool) : (d.dropJobs g).idrev = d.idrev := rfl
@[simp] theorem Device.dropJobs_serial (d : Device) (g : Job → Bool) : (d.dropJobs g).serial = d.serial := rfl
@[simp] theorem Device.dropJobs_pins (d : Device) (g : Job → Bool) : (d.dropJobs g).pins = d.pins := rfl
@[simp] theorem Device.dropJobs_power (d : Device) (g : Job → Bool) : (d.dropJobs g).power = d.power := rfl
@[simp] theorem Device.dropJobs_bring (d : Device) (g : Job → Bool) : (d.dropJobs g).bring = d.bring := rfl
@[simp] theorem Device.dropJobs_persist (d : Device) (g : Job → Bool) : (d.dropJobs g).persist = d.persist := rfl
@[simp] theorem Device.dropJobs_sec (d : Device) (g : Job → Bool) : (d.dropJobs g).sec = d.sec := rfl
@[simp] theorem Device.dropJobs_tap (d : Device) (g : Job → Bool) : (d.dropJobs g).tap = d.tap := rfl
@[simp] theorem Device.dropJobs_cells (d : Device) (g : Job → Bool) : (d.dropJobs g).cells = d.cells := rfl
@[simp] theorem Device.dropJobs_hefts (d : Device) (g : Job → Bool) : (d.dropJobs g).hefts = d.hefts := rfl
@[simp] theorem Device.dropJobs_watch (d : Device) (g : Job → Bool) : (d.dropJobs g).watch = d.watch := rfl
@[simp] theorem Device.dropJobs_ref (d : Device) (g : Job → Bool) : (d.dropJobs g).ref = d.ref := rfl
@[simp] theorem Device.dropJobs_sites (d : Device) (g : Job → Bool) : (d.dropJobs g).sites = d.sites := rfl
@[simp] theorem Device.dropJobs_foldCount (d : Device) (g : Job → Bool) : (d.dropJobs g).foldCount = d.foldCount := rfl
@[simp] theorem Device.dropJobs_folds (d : Device) (g : Job → Bool) : (d.dropJobs g).folds = d.folds := rfl
@[simp] theorem Device.dropJobs_gtally (d : Device) (g : Job → Bool) : (d.dropJobs g).gtally = d.gtally := rfl
@[simp] theorem Device.dropJobs_gateRows (d : Device) (g : Job → Bool) : (d.dropJobs g).gateRows = d.gateRows := rfl
@[simp] theorem Device.dropJobs_fabric (d : Device) (g : Job → Bool) : (d.dropJobs g).fabric = d.fabric := rfl
@[simp] theorem Device.dropJobs_mem (d : Device) (g : Job → Bool) : (d.dropJobs g).mem = d.mem := rfl
@[simp] theorem Device.dropJobs_padScrub (d : Device) (g : Job → Bool) : (d.dropJobs g).padScrub = d.padScrub := rfl
@[simp] theorem Device.dropJobs_deferred (d : Device) (g : Job → Bool) : (d.dropJobs g).deferred = d.deferred := rfl
@[simp] theorem Device.dropJobs_hardLimit (d : Device) (g : Job → Bool) : (d.dropJobs g).hardLimit = d.hardLimit := rfl
@[simp] theorem Device.dropJobs_shears (d : Device) (g : Job → Bool) : (d.dropJobs g).shears = d.shears := rfl
@[simp] theorem Device.dropJobs_coll (d : Device) (g : Job → Bool) : (d.dropJobs g).coll = d.coll := rfl
@[simp] theorem Device.dropJobs_links (d : Device) (g : Job → Bool) : (d.dropJobs g).links = d.links := rfl
@[simp] theorem Device.dropJobs_flock (d : Device) (g : Job → Bool) : (d.dropJobs g).flock = d.flock := rfl
@[simp] theorem Device.dropJobs_recov (d : Device) (g : Job → Bool) : (d.dropJobs g).recov = d.recov := rfl
@[simp] theorem Device.dropJobs_cote (d : Device) (g : Job → Bool) : (d.dropJobs g).cote = d.cote := rfl
@[simp] theorem Device.dropJobs_rings (d : Device) (g : Job → Bool) : (d.dropJobs g).rings = d.rings := rfl
@[simp] theorem Device.dropJobs_descs (d : Device) (g : Job → Bool) : (d.dropJobs g).descs = d.descs := rfl
@[simp] theorem Device.dropJobs_fetchOrder (d : Device) (g : Job → Bool) : (d.dropJobs g).fetchOrder = d.fetchOrder := rfl
@[simp] theorem Device.dropJobs_hport (d : Device) (g : Job → Bool) : (d.dropJobs g).hport = d.hport.drop g := rfl
@[simp] theorem Device.dropJobs_fns (d : Device) (g : Job → Bool) : (d.dropJobs g).fns = d.fns := rfl
@[simp] theorem Device.dropJobs_trace (d : Device) (g : Job → Bool) : (d.dropJobs g).trace = d.trace := rfl
@[simp] theorem Device.dropJobs_host (d : Device) (g : Job → Bool) : (d.dropJobs g).host = d.host := rfl
@[simp] theorem Device.dropJobs_events (d : Device) (g : Job → Bool) : (d.dropJobs g).events = d.events := rfl
@[simp] theorem Device.dropJobs_out (d : Device) (g : Job → Bool) : (d.dropJobs g).out = d.out := rfl
@[simp] theorem Device.dropJobs_free (d : Device) (g : Job → Bool) : (d.dropJobs g).free = d.free := rfl

/-! ## Device.hostWrite, on a device whose port is its own -/

theorem Device.hostWrite_own (d : Device) (a : Nat) (bs : List Byte) (h : d.tunnelled = false) :
    d.hostWrite a bs = { d with host := d.host.store a bs } := by simp [Device.hostWrite, h]

end Sys2Proof.Machine
end

