-- ==== Sys2Proof/Laws/Frame.lean ====
section
/-!
SUPPORT. Frames: what no command but a few can change. `Device.core` is the identity, the fuses, the numbers of
sites, folds, hefts, link ports and functions, and the fold count; almost every function of the machine keeps it, and the others evolve it.
-/

set_option linter.unusedTactic false
set_option linter.unreachableTactic false
set_option linter.unusedSimpArgs false

namespace Sys2Proof.Machine

/-- Identity, fuses, numbers of parts, fold count. -/
def Device.core (d : Device) : W32 × W64 × Fuses × List Nat :=
  (d.idrev, d.serial, d.sec.fuses, [d.sites.length, d.folds.length, d.hefts.length, d.links.length, d.fns.length, d.foldCount])

/-- An update of the other fields keeps the core. -/
@[simp] theorem Device.core_upd (d : Device) (pins0 : _) (power0 : _) (bring0 : _) (persist0 : _) (sec0 : _) (tap0 : _) (cells0 : _) (hefts0 : _) (watch0 : _) (ref0 : _) (sites0 : _) (folds0 : _) (gtally0 : _) (gateRows0 : _) (fabric0 : _) (mem0 : _) (padScrub0 : _) (deferred0 : _) (hardLimit0 : _) (shears0 : _) (coll0 : _) (links0 : _) (flock0 : _) (recov0 : _) (cote0 : _) (rings0 : _) (descs0 : _) (fetchOrder0 : _) (hport0 : _) (fns0 : _) (trace0 : _) (host0 : _) (events0 : _) (out0 : _) (free0 : _) (hsec : sec0.fuses = d.sec.fuses) (hhefts : hefts0.length = d.hefts.length) (hsites : sites0.length = d.sites.length) (hfolds : folds0.length = d.folds.length) (hlinks : links0.length = d.links.length) (hfns : fns0.length = d.fns.length) : Device.core ⟨d.idrev, d.serial, pins0, power0, bring0, persist0, sec0, tap0, cells0, hefts0, watch0, ref0, sites0, d.foldCount, folds0, gtally0, gateRows0, fabric0, mem0, padScrub0, deferred0, hardLimit0, shears0, coll0, links0, flock0, recov0, cote0, rings0, descs0, fetchOrder0, hport0, fns0, trace0, host0, events0, out0, free0⟩ = d.core := by
  simp [Device.core, *]
theorem foldl_core {α : Type} (l : List α) (g : Device → α → Device) (d : Device) (h : ∀ d a, (g d a).core = d.core) :
    (l.foldl g d).core = d.core := by
  induction l generalizing d with
  | nil => rfl
  | cons a l ih => simp [List.foldl_cons, ih, h]

theorem findSome_core {α : Type} (l : List α) (g : α → Option Device) (c : W32 × W64 × Fuses × List Nat)
    (h : ∀ a e, g a = some e → e.core = c) : ∀ e, l.findSome? g = some e → e.core = c := by
  intro e he
  obtain ⟨a, _, h'⟩ := List.exists_of_findSome?_eq_some he
  exact h a e h'

theorem orElse_core (a b : Option Device) (c : W32 × W64 × Fuses × List Nat) (ha : ∀ e, a = some e → e.core = c)
    (hb : ∀ e, b = some e → e.core = c) : ∀ e, (a <|> b) = some e → e.core = c := by
  intro e h
  cases a with
  | none => exact hb e (by simpa using h)
  | some x => exact ha e (by simpa using h)

theorem none_core (c : W32 × W64 × Fuses × List Nat) : ∀ e : Device, none = some e → e.core = c := by
  intro e h; cases h

theorem Fuses.burnt_refl (a : Fuses) : a.burnt a := by simp [Fuses.burnt]
theorem Fuses.burnt_trans {a b c : Fuses} (h : a.burnt b) (k : b.burnt c) : a.burnt c := by
  obtain ⟨h1, h2, h3, h4, h5, h6⟩ := h
  obtain ⟨k1, k2, k3, k4, k5, k6⟩ := k
  refine ⟨k1.trans h1, h2.trans k2, fun o => ⟨(k3 (h3 o).1).1, (k3 (h3 o).1).2.trans (h3 o).2⟩, fun o => k4 (h4 o),
    fun o => ?_, fun o => ?_⟩
  · have := h5 o; have := k5 this.2; omega
  · have := h6 o; have := k6 this.2; omega
theorem evolves_of_core {d e : Device} (h : e.core = d.core) : d.evolves e := by
  simp only [Device.core, Prod.mk.injEq, List.cons.injEq] at h
  obtain ⟨h1, h2, h3, h4, h5, h6, h7, h8, h9, -⟩ := h
  exact ⟨h1, h2, by rw [h3]; exact Fuses.burnt_refl _, by simp [Device.sized, *]⟩
theorem Device.evolves_trans {a b c : Device} (h : a.evolves b) (k : b.evolves c) : a.evolves c :=
  ⟨k.1.trans h.1, k.2.1.trans h.2.1, Fuses.burnt_trans h.2.2.1 k.2.2.1, fun o => k.2.2.2 (h.2.2.2 o)⟩
theorem Device.evolves_core {a b c : Device} (h : a.evolves b) (k : c.core = b.core) : a.evolves c :=
  Device.evolves_trans h (evolves_of_core k)
theorem evolves_ite {p : Prop} [Decidable p] {d a b : Device} (ha : d.evolves a) (hb : d.evolves b) :
    d.evolves (if p then a else b) := by
  split
  · exact ha
  · exact hb


theorem getD_core (o : Option Device) (d : Device) (h : ∀ e, o = some e → e.core = d.core) : (o.getD d).core = d.core := by
  cases o with
  | none => rfl
  | some e => exact h e rfl

/-! ## Parts -/

@[simp] theorem Device.onSite_core (d : Device) (n : Nat) (g : Site → Site) :
    (Device.onSite d n g).core = d.core := by
  simp [Device.onSite]

@[simp] theorem Device.onSites_core (d : Device) (ns : List Nat) (g : Site → Site) :
    (Device.onSites d ns g).core = d.core := by
  unfold Device.onSites
  try dsimp only
  repeat' (first | with_reducible rfl | split | (with_reducible refine (foldl_core _ _ _ ?_).trans ?_ <;> intros) | simp)

@[simp] theorem Device.onFold_core (d : Device) (f : Nat) (g : Fold → Fold) :
    (Device.onFold d f g).core = d.core := by
  simp [Device.onFold]

@[simp] theorem Device.onHeft_core (d : Device) (h : Nat) (g : Heft → Heft) :
    (Device.onHeft d h g).core = d.core := by
  simp [Device.onHeft]

@[simp] theorem Device.onLink_core (d : Device) (k : Nat) (g : Link → Link) :
    (Device.onLink d k g).core = d.core := by
  simp [Device.onLink]

@[simp] theorem Device.onFn_core (d : Device) (n : Nat) (g : FnRegs → FnRegs) :
    (Device.onFn d n g).core = d.core := by
  simp [Device.onFn]

@[simp] theorem Device.onQuarter_core (d : Device) (q : Nat) (g : Quarter → Quarter) :
    (Device.onQuarter d q g).core = d.core := by
  simp [Device.onQuarter]

@[simp] theorem Device.setRing_core (d : Device) (n : Nat) (r : Ring) :
    (Device.setRing d n r).core = d.core := by
  simp [Device.setRing]

@[simp] theorem Device.onDrive_core (d : Device) (f s : Nat) (g : Drive → Drive) :
    (Device.onDrive d f s g).core = d.core := by
  unfold Device.onDrive
  split <;> simp

@[simp] theorem Device.event_core (d : Device) (n : EventName) (data : List Nat) :
    (Device.event d n data).core = d.core := by
  simp [Device.event]

@[simp] theorem Device.emit_core (d : Device) (o : Output) :
    (Device.emit d o).core = d.core := by
  simp [Device.emit]

@[simp] theorem Device.draw_core (d : Device) :
    (Device.draw d).core = d.core := by
  simp [Device.draw]

@[simp] theorem Device.fromHost_core (d : Device) (fn : Nat) (g : Device → Device) (hg : ∀ d, (g d).core = d.core) :
    (Device.fromHost d fn g).core = d.core := by
  unfold Device.fromHost
  split <;> simp [hg]

theorem Device.fromHost_evolves (d : Device) (fn : Nat) (g : Device → Device) (hg : ∀ d : Device, d.evolves (g d)) :
    d.evolves (d.fromHost fn g) := by
  unfold Device.fromHost
  split
  · exact evolves_of_core rfl
  · exact hg d

@[simp] theorem Device.fromRegs_core (d : Device) (fn : Nat) (g : Device → Device) (hg : ∀ d, (g d).core = d.core) :
    (Device.fromRegs d fn g).core = d.core := by
  unfold Device.fromRegs
  split <;> simp [hg]

theorem Device.fromRegs_evolves (d : Device) (fn : Nat) (g : Device → Device) (hg : ∀ d : Device, d.evolves (g d)) :
    d.evolves (d.fromRegs fn g) := by
  unfold Device.fromRegs
  split
  · exact evolves_of_core rfl
  · exact hg d

/-! ## Packets -/

@[simp] theorem Device.checkWiring_core (d : Device) (k : Nat) :
    (Device.checkWiring d k).core = d.core := by
  unfold Device.checkWiring
  try dsimp only
  repeat' (first | with_reducible rfl | split | (with_reducible refine (foldl_core _ _ _ ?_).trans ?_ <;> intros) | simp)

@[simp] theorem Device.checkAll_core (d : Device) :
    (Device.checkAll d).core = d.core := by
  unfold Device.checkAll
  try dsimp only
  repeat' (first | with_reducible rfl | split | (with_reducible refine (foldl_core _ _ _ ?_).trans ?_ <;> intros) | simp)

@[simp] theorem Device.transmit_core (d : Device) (k : Nat) (p : Packet) :
    (Device.transmit d k p).core = d.core := by
  simp [Device.transmit]

@[simp] theorem Device.sendOn_core (d : Device) (k : Nat) (p : Packet) :
    (Device.sendOn d k p).core = d.core := by
  unfold Device.sendOn
  try dsimp only
  repeat' (first | with_reducible rfl | split | (with_reducible refine (foldl_core _ _ _ ?_).trans ?_ <;> intros) | simp)

@[simp] theorem Device.drainPort_core (d : Device) (k : Nat) :
    (Device.drainPort d k).core = d.core := by
  unfold Device.drainPort
  try dsimp only
  repeat' (first | with_reducible rfl | split | (with_reducible refine (foldl_core _ _ _ ?_).trans ?_ <;> intros) | simp)

@[simp] theorem Device.sendTo_core (d : Device) (p : Packet) :
    (Device.sendTo d p).core = d.core := by
  unfold Device.sendTo
  split <;> simp

@[simp] theorem Device.sendData_core (d : Device) (p : Packet) (base : Nat) (bs : List Byte) (last : Packet → Packet) :
    (Device.sendData d p base bs last).core = d.core := by
  unfold Device.sendData
  try dsimp only
  repeat' (first | with_reducible rfl | split | (with_reducible refine (foldl_core _ _ _ ?_).trans ?_ <;> intros) | simp)

@[simp] theorem Device.tell_core (d : Device) (rank : Nat) (m : Vc0) :
    (Device.tell d rank m).core = d.core := by
  unfold Device.tell
  try dsimp only
  repeat' (first | with_reducible rfl | split | (with_reducible refine (foldl_core _ _ _ ?_).trans ?_ <;> intros) | simp)

@[simp] theorem Device.tellBell_core (d : Device) (m : Vc0) :
    (Device.tellBell d m).core = d.core := by
  unfold Device.tellBell
  split <;> simp

@[simp] theorem Device.declareFailed_core (d : Device) :
    (Device.declareFailed d).core = d.core := by
  unfold Device.declareFailed
  try dsimp only
  repeat' (first | with_reducible rfl | split | (with_reducible refine (foldl_core _ _ _ ?_).trans ?_ <;> intros) | simp)

@[simp] theorem Device.tagFailed_core (d : Device) (k : Nat) :
    (Device.tagFailed d k).core = d.core := by
  simp [Device.tagFailed]

@[simp] theorem Device.owe_core (d : Device) (k : Nat) (p : Packet) :
    (Device.owe d k p).core = d.core := by
  simp [Device.owe]

@[simp] theorem Device.deliver_core (d : Device) (k : Nat) (p : Packet) (g : Device → Device) (hg : ∀ d, (g d).core = d.core) :
    (Device.deliver d k p g).core = d.core := by
  unfold Device.deliver
  repeat' (first | with_reducible rfl | split | simp [hg])

theorem Device.deliver_evolves (d : Device) (k : Nat) (p : Packet) (g : Device → Device) (hg : ∀ d : Device, d.evolves (g d)) :
    d.evolves (d.deliver k p g) := by
  unfold Device.deliver
  repeat' split
  all_goals first
    | exact evolves_of_core rfl
    | exact evolves_of_core (by simp)
    | exact Device.evolves_trans (evolves_of_core (by simp)) (hg _)

@[simp] theorem Device.hear_core (d : Device) (v : Via) (g : Device → Device) (hg : ∀ d, (g d).core = d.core) :
    (Device.hear d v g).core = d.core := by
  unfold Device.hear
  try dsimp only
  repeat' (first | with_reducible rfl | split | (with_reducible refine (foldl_core _ _ _ ?_).trans ?_ <;> intros) | simp [hg])

/-! ## Ops -/

@[simp] theorem Device.useCheck_core (d : Device) (chunk : Nat) (wr : Bool) :
    (Device.useCheck d chunk wr).core = d.core := by
  unfold Device.useCheck
  try dsimp only
  repeat' (first | with_reducible rfl | split | (with_reducible refine (foldl_core _ _ _ ?_).trans ?_ <;> intros) | simp)

@[simp] theorem Device.checkHalf_core (d : Device) (addr half kind : Nat) (e : Ecc) :
    (Device.checkHalf d addr half kind e).core = d.core := by
  unfold Device.checkHalf
  try dsimp only
  repeat' (first | with_reducible rfl | split | (with_reducible refine (foldl_core _ _ _ ?_).trans ?_ <;> intros) | simp)

@[simp] theorem Device.touchChunk_core (d : Device) (chunk : Nat) (wr : Bool) :
    (Device.touchChunk d chunk wr).core = d.core := by
  simp only [Device.touchChunk, Device.useCheck_core, Device.onQuarter_core]
  split <;> simp

@[simp] theorem Device.touchMem_core (d : Device) (a n : Nat) (wr : Bool) :
    (Device.touchMem d a n wr).core = d.core := by
  unfold Device.touchMem
  try dsimp only
  repeat' (first | with_reducible rfl | split | (with_reducible refine (foldl_core _ _ _ ?_).trans ?_ <;> intros) | simp)

@[simp] theorem Device.memRead_core (d : Device) (a n : Nat) (errs : List (Nat × Ecc)) :
    (Device.memRead d a n errs).core = d.core := by
  unfold Device.memRead
  try dsimp only
  repeat' (first | with_reducible rfl | split | (with_reducible refine (foldl_core _ _ _ ?_).trans ?_ <;> intros) | simp)

@[simp] theorem Device.memWrite_core (d : Device) (k : Key) (a : Nat) (bs : List Byte) (bad : List (Nat × Nat)) :
    (Device.memWrite d k a bs bad).core = d.core := by
  unfold Device.memWrite
  try dsimp only
  repeat' (first | with_reducible rfl | split | (with_reducible refine (foldl_core _ _ _ ?_).trans ?_ <;> intros) | simp)

@[simp] theorem Device.transferRead_core (d : Device) (f x n : Nat) (es : List (Nat × Ecc)) :
    (Device.transferRead d f x n es).core = d.core := by
  unfold Device.transferRead
  try dsimp only
  repeat' (first | with_reducible rfl | split | (with_reducible refine (foldl_core _ _ _ ?_).trans ?_ <;> intros) | simp)

@[simp] theorem Device.writeLocal_core (d : Device) (f x : Nat) (bs : List Byte) (bad : List (Nat × Nat)) :
    (Device.writeLocal d f x bs bad).core = d.core := by
  unfold Device.writeLocal
  try dsimp only
  repeat' (first | with_reducible rfl | split | (with_reducible refine (foldl_core _ _ _ ?_).trans ?_ <;> intros) | simp)

@[simp] theorem Device.hostWrite_core (d : Device) (a : Nat) (bs : List Byte) :
    (Device.hostWrite d a bs).core = d.core := by
  unfold Device.hostWrite
  try dsimp only
  repeat' (first | with_reducible rfl | split | (with_reducible refine (foldl_core _ _ _ ?_).trans ?_ <;> intros) | simp)

@[simp] theorem Device.readOut_core (d : Device) (tag : Nat) (r : HostReq) :
    (Device.readOut d tag r).core = d.core := by
  unfold Device.readOut
  try dsimp only
  repeat' (first | with_reducible rfl | split | (with_reducible refine (foldl_core _ _ _ ?_).trans ?_ <;> intros) | simp)

@[simp] theorem Device.serveReads_core (k : Nat) (d : Device) : (Device.serveReads k d).core = d.core := by
  induction k generalizing d with
  | zero => rfl
  | succ k ih =>
    unfold Device.serveReads
    try dsimp only
    repeat' (first | with_reducible rfl | split | simp [ih])

@[simp] theorem Device.askRead_core (d : Device) (src : Nat) (job : Job) (addr len : Nat) :
    (Device.askRead d src job addr len).core = d.core := by
  unfold Device.askRead
  try dsimp only
  repeat' (first | with_reducible rfl | split | (with_reducible refine (foldl_core _ _ _ ?_).trans ?_ <;> intros) | simp)

@[simp] theorem Device.dropJobs_core (d : Device) (g : Job → Bool) :
    (Device.dropJobs d g).core = d.core := by
  unfold Device.dropJobs
  try dsimp only
  repeat' (first | with_reducible rfl | split | (with_reducible refine (foldl_core _ _ _ ?_).trans ?_ <;> intros) | simp)

@[simp] theorem Device.askDma_core (d : Device) (src : Nat) (job : Job) (addr len : Nat) :
    (Device.askDma d src job addr len).core = d.core := by
  unfold Device.askDma
  try dsimp only
  repeat' (first | with_reducible rfl | split | (with_reducible refine (foldl_core _ _ _ ?_).trans ?_ <;> intros) | simp)

@[simp] theorem Device.tallyPut_core (d : Device) (p : TallyAt) (v : W32) :
    (Device.tallyPut d p v).core = d.core := by
  unfold Device.tallyPut
  split <;> simp

@[simp] theorem Device.capture_core (d : Device) (c : CtlFlit) :
    (Device.capture d c).core = d.core := by
  unfold Device.capture
  split <;> simp

@[simp] theorem Device.inject_core (d : Device) (src : Nat × Nat) (c : CtlFlit) :
    (Device.inject d src c).core = d.core := by
  unfold Device.inject
  try dsimp only
  repeat' (first | with_reducible rfl | split | (with_reducible refine (foldl_core _ _ _ ?_).trans ?_ <;> intros) | simp)

@[simp] theorem Device.wake_core (d : Device) (h : Nat) :
    (Device.wake d h).core = d.core := by
  unfold Device.wake
  try dsimp only
  repeat' (first | with_reducible rfl | split | (with_reducible refine (foldl_core _ _ _ ?_).trans ?_ <;> intros) | simp)

@[simp] theorem Device.onArrive_core (d : Device) (c : CtlFlit) (g : Device → Device) (hg : ∀ d, (g d).core = d.core) :
    (Device.onArrive d c g).core = d.core := by
  unfold Device.onArrive
  try dsimp only
  repeat' (first | with_reducible rfl | split | (with_reducible refine (foldl_core _ _ _ ?_).trans ?_ <;> intros) | simp [hg])

@[simp] theorem Device.supply_core (d : Device) :
    (Device.supply d).core = d.core := by
  unfold Device.supply
  try dsimp only
  repeat' (first | with_reducible rfl | split | (with_reducible refine (foldl_core _ _ _ ?_).trans ?_ <;> intros) | simp)

@[simp] theorem Device.msix_core (d : Device) (r : Ring) :
    (Device.msix d r).core = d.core := by
  unfold Device.msix
  split <;> simp

@[simp] theorem Device.post_core (d : Device) (x : Desc) (status detail : Nat) :
    (Device.post d x status detail).core = d.core := by
  unfold Device.post
  try dsimp only
  repeat' (first | with_reducible rfl | split | (with_reducible refine (foldl_core _ _ _ ?_).trans ?_ <;> intros) | simp)

@[simp] theorem Device.drained_core (d : Device) (sq : Nat) :
    (Device.drained d sq).core = d.core := by
  unfold Device.drained
  try dsimp only
  repeat' (first | with_reducible rfl | split | (with_reducible refine (foldl_core _ _ _ ?_).trans ?_ <;> intros) | simp)

@[simp] theorem Device.finish_core (d : Device) (sq idx status detail : Nat) :
    (Device.finish d sq idx status detail).core = d.core := by
  unfold Device.finish
  try dsimp only
  repeat' (first | with_reducible rfl | split | (with_reducible refine (foldl_core _ _ _ ?_).trans ?_ <;> intros) | simp)

@[simp] theorem Device.sweepGo_core (k : Nat) (d : Device) (sq : Nat) : (Device.sweepGo k d sq).core = d.core := by
  induction k generalizing d with
  | zero => rfl
  | succ k ih =>
    unfold Device.sweepGo
    try dsimp only
    repeat' (first | with_reducible rfl | split | simp [ih])

@[simp] theorem Device.complete_core (d : Device) (sq idx status detail : Nat) :
    (Device.complete d sq idx status detail).core = d.core := by
  simp [Device.complete]

@[simp] theorem Device.completeStep_core (d : Device) (r : Option StepRec) (status detail : Nat) :
    (Device.completeStep d r status detail).core = d.core := by
  unfold Device.completeStep
  split <;> simp

@[simp] theorem Device.abortSteps_core (d : Device) (f s status : Nat) :
    (Device.abortSteps d f s status).core = d.core := by
  unfold Device.abortSteps
  try dsimp only
  repeat' (first | with_reducible rfl | split | (with_reducible refine (foldl_core _ _ _ ?_).trans ?_ <;> intros) | simp)

@[simp] theorem Device.releaseWaits_core (d : Device) (ns : List Nat) :
    (Device.releaseWaits d ns).core = d.core := by
  simp [Device.releaseWaits]

@[simp] theorem Device.abandon_core (d : Device) (f s : Nat) :
    (Device.abandon d f s).core = d.core := by
  simp [Device.abandon]

@[simp] theorem Device.stopDrive_core (d : Device) (f s source status pen addr : Nat) :
    (Device.stopDrive d f s source status pen addr).core = d.core := by
  unfold Device.stopDrive
  try dsimp only
  repeat' (first | with_reducible rfl | split | (with_reducible refine (foldl_core _ _ _ ?_).trans ?_ <;> intros) | simp)

@[simp] theorem Device.stopAt_core (d : Device) (n status addr : Nat) :
    (Device.stopAt d n status addr).core = d.core := by
  unfold Device.stopAt
  try dsimp only
  repeat' (first | with_reducible rfl | split | (with_reducible refine (foldl_core _ _ _ ?_).trans ?_ <;> intros) | simp)

@[simp] theorem Device.stopOpen_core (d : Device) (f s status : Nat) :
    (Device.stopOpen d f s status).core = d.core := by
  simp [Device.stopOpen]

@[simp] theorem Device.tallyStop_core (d : Device) (p : TallyAt) : (Device.tallyStop d p).core = d.core := by
  cases p <;> simp only [Device.tallyStop]
  · simp
  · split <;> simp

@[simp] theorem Device.tallyAdd_core (d : Device) (f id inc : Nat) :
    (Device.tallyAdd d f id inc).core = d.core := by
  unfold Device.tallyAdd
  try dsimp only
  repeat' (first | with_reducible rfl | split | (with_reducible refine (foldl_core _ _ _ ?_).trans ?_ <;> intros) | simp)

@[simp] theorem Device.bump_core (d : Device) (n f id inc : Nat) :
    (Device.bump d n f id inc).core = d.core := by
  unfold Device.bump
  try dsimp only
  repeat' (first | with_reducible rfl | split | (with_reducible refine (foldl_core _ _ _ ?_).trans ?_ <;> intros) | simp)

@[simp] theorem Device.refuse_core (d : Device) (fn status off : Nat) (aperture : Bool) :
    (Device.refuse d fn status off aperture).core = d.core := by
  simp [Device.refuse]

@[simp] theorem Device.alert_core (d : Device) (b : Nat) :
    (Device.alert d b).core = d.core := by
  unfold Device.alert
  try dsimp only
  repeat' (first | with_reducible rfl | split | (with_reducible refine (foldl_core _ _ _ ?_).trans ?_ <;> intros) | simp)

/-! ## Rows -/

@[simp] theorem Device.setRowCount_core (d : Device) (st : RowStore) (row k : Nat) :
    (Device.setRowCount d st row k).core = d.core := by
  unfold Device.setRowCount
  split <;> simp

@[simp] theorem Device.takeSpare_core (d : Device) (st : RowStore) (row : Nat) :
    (Device.takeSpare d st row).core = d.core := by
  unfold Device.takeSpare
  split <;> simp

@[simp] theorem Device.markBad_core (d : Device) (st : RowStore) (row : Nat) :
    (Device.markBad d st row).core = d.core := by
  unfold Device.markBad
  try dsimp only
  repeat' (first | with_reducible rfl | split | (with_reducible refine (foldl_core _ _ _ ?_).trans ?_ <;> intros) | simp)

@[simp] theorem Device.rowReport_core (d : Device) (st : RowStore) (row : Nat) (e : Ecc) :
    (Device.rowReport d st row e).core = d.core := by
  unfold Device.rowReport
  try dsimp only
  repeat' (first | with_reducible rfl | split | (with_reducible refine (foldl_core _ _ _ ?_).trans ?_ <;> intros) | simp)

/-! ## Operands -/

@[simp] theorem Device.noteDirty_core (d : Device) (f x len : Nat) :
    (Device.noteDirty d f x len).core = d.core := by
  unfold Device.noteDirty
  try dsimp only
  repeat' (first | with_reducible rfl | split | (with_reducible refine (foldl_core _ _ _ ?_).trans ?_ <;> intros) | simp)

/-! ## Transfer -/

@[simp] theorem Device.issueFlits_core (d : Device) (src : Nat × Nat) (part : Nat) (fs : List BulkFlit) :
    (Device.issueFlits d src part fs).core = d.core := by
  unfold Device.issueFlits
  try dsimp only
  repeat' (first | with_reducible rfl | split | (with_reducible refine (foldl_core _ _ _ ?_).trans ?_ <;> intros) | simp)

@[simp] theorem Device.issueOrder_core (d : Device) (n m part : Nat) (o : ReadOrder) :
    (Device.issueOrder d n m part o).core = d.core := by
  unfold Device.issueOrder
  try dsimp only
  repeat' (first | with_reducible rfl | split | (with_reducible refine (foldl_core _ _ _ ?_).trans ?_ <;> intros) | simp)

@[simp] theorem Device.endMove_core (d : Device) (x : Xfer) :
    (Device.endMove d x).core = d.core := by
  unfold Device.endMove
  try dsimp only
  repeat' (first | with_reducible rfl | split | (with_reducible refine (foldl_core _ _ _ ?_).trans ?_ <;> intros) | simp)

@[simp] theorem Device.partsDone_core (d : Device) (part k : Nat) :
    (Device.partsDone d part k).core = d.core := by
  unfold Device.partsDone
  try dsimp only
  repeat' (first | with_reducible rfl | split | (with_reducible refine (foldl_core _ _ _ ?_).trans ?_ <;> intros) | simp)

@[simp] theorem Device.cutTransfer_core (d : Device) (n s id : Nat) :
    (Device.cutTransfer d n s id).core = d.core := by
  unfold Device.cutTransfer
  try dsimp only
  repeat' (first | with_reducible rfl | split | (with_reducible refine (foldl_core _ _ _ ?_).trans ?_ <;> intros) | simp)

@[simp] theorem Device.orphan_core (d : Device) (ns : List Nat) (s : Nat) :
    (Device.orphan d ns s).core = d.core := by
  unfold Device.orphan
  try dsimp only
  repeat' (first | with_reducible rfl | split | (with_reducible refine (foldl_core _ _ _ ?_).trans ?_ <;> intros) | simp)

@[simp] theorem Device.moveRow_core (d : Device) (f src dst len : Nat) (es : List (Nat × Ecc)) :
    (Device.moveRow d f src dst len es).core = d.core := by
  simp [Device.moveRow]

@[simp] theorem Device.movePiece_core (d : Device) (n f part tally inc : Nat) (errs : List (Nat × Ecc)) (p : Nat × Nat × Nat) :
    (Device.movePiece d n f part tally inc errs p).1.core = d.core := by
  unfold Device.movePiece
  try dsimp only
  repeat' (first | with_reducible rfl | split | (with_reducible refine (foldl_core _ _ _ ?_).trans ?_ <;> intros) | simp)

@[simp] theorem Device.movePiecesGo_core (d : Device) (n f part tally inc : Nat) (errs : List (Nat × Ecc)) (l : List (Nat × Nat × Nat))
    (left : Nat) : (Device.movePiecesGo d n f part tally inc errs l left).1.core = d.core := by
  induction l generalizing d left with
  | nil => rfl
  | cons p l ih => simp [Device.movePiecesGo, ih]

/-! ## Seq -/

@[simp] theorem Device.stopTile_core (d : Device) (n status : Nat) (x : Dir) (st : Nat) :
    (Device.stopTile d n status x st).core = d.core := by
  unfold Device.stopTile
  try dsimp only
  repeat' (first | with_reducible rfl | split | (with_reducible refine (foldl_core _ _ _ ?_).trans ?_ <;> intros) | simp)

theorem Device.leftOver_core (d : Device) (n : Nat) (x : Dir) (e : Device) (h : Device.leftOver d n x = some e) :
    e.core = d.core := by
  revert e
  unfold Device.leftOver
  try dsimp only
  repeat' (first
    | (refine findSome_core _ _ _ ?_; intro _) | split
    | (intro e h; first
        | contradiction
        | (injection h with h; subst h; repeat' (first
            | with_reducible rfl | split | (with_reducible refine (foldl_core _ _ _ ?_).trans ?_ <;> intros) | simp))))

@[simp] theorem Device.leftStop_core (d : Device) (n : Nat) : (Device.leftStop d n).core = d.core := by
  unfold Device.leftStop
  have h := getD_core _ d (fun e h => Device.leftOver_core d n .sunwise e h)
  exact (getD_core _ _ (fun e h => Device.leftOver_core _ n .widdershins e h)).trans h

@[simp] theorem Device.decodeOne_core (d : Device) (n : Nat) :
    (Device.decodeOne d n).1.core = d.core := by
  unfold Device.decodeOne
  try dsimp only
  repeat' (first | with_reducible rfl | split | (with_reducible refine (foldl_core _ _ _ ?_).trans ?_ <;> intros) | simp)

@[simp] theorem Device.pumpGo_core (k : Nat) (d : Device) (n : Nat) : (Device.pumpGo k d n).core = d.core := by
  induction k generalizing d with
  | zero => rfl
  | succ k ih =>
    unfold Device.pumpGo
    have h := Device.decodeOne_core d n
    split <;> rename_i e <;> rw [e] at h
    · rw [ih]; exact h
    · exact h

@[simp] theorem Device.pump_core (d : Device) (n : Nat) :
    (Device.pump d n).core = d.core := by
  unfold Device.pump
  split <;> simp

@[simp] theorem Device.skipWords_core (d : Device) (n k : Nat) :
    (Device.skipWords d n k).core = d.core := by
  simp [Device.skipWords]

@[simp] theorem Device.goTo_core (d : Device) (n target limit : Nat) :
    (Device.goTo d n target limit).core = d.core := by
  simp [Device.goTo]

@[simp] theorem Device.fetchBlock_core (d : Device) (n : Nat) (es : List (Nat × Ecc)) :
    (Device.fetchBlock d n es).core = d.core := by
  unfold Device.fetchBlock
  try dsimp only
  repeat' (first | with_reducible rfl | split | (with_reducible refine (foldl_core _ _ _ ?_).trans ?_ <;> intros) | simp)

@[simp] theorem Device.endCheck_core (d : Device) (f : Nat) :
    (Device.endCheck d f).core = d.core := by
  unfold Device.endCheck
  try dsimp only
  repeat' (first | with_reducible rfl | split | (with_reducible refine (foldl_core _ _ _ ?_).trans ?_ <;> intros) | simp)

@[simp] theorem Device.takeHead_core (d : Device) (n : Nat) (q : Queue) :
    (Device.takeHead d n q).core = d.core := by
  simp [Device.takeHead]

@[simp] theorem Device.enter_core (d : Device) (n : Nat) (q : Queue) (a : Active) :
    (Device.enter d n q a).core = d.core := by
  simp [Device.enter]

@[simp] theorem Device.issue_core (d : Device) (n : Nat) (q : Queue) (i : Issue) (p : Phase) (g : Device → Device)
    (hg : ∀ d, (g d).core = d.core) :
    (Device.issue d n q i p g).core = d.core := by
  unfold Device.issue
  split <;> simp [hg]

@[simp] theorem Device.retireAct_core (d : Device) (n : Nat) (a : Active) :
    (Device.retireAct d n a).core = d.core := by
  unfold Device.retireAct
  split <;> simp

/-! ## Node -/

@[simp] theorem Device.onDir_core (d : Device) (n : Nat) (x : Dir) (g : NodeDir → NodeDir) :
    (Device.onDir d n x g).core = d.core := by
  simp [Device.onDir]

@[simp] theorem Device.send_core (d : Device) (f : Nat) (ss : List Nat) (x : Dir) (i : Nat) (r : RingTile) :
    (Device.send d f ss x i r).core = d.core := by
  unfold Device.send
  try dsimp only
  repeat' (first | with_reducible rfl | split | (with_reducible refine (foldl_core _ _ _ ?_).trans ?_ <;> intros) | simp)

@[simp] theorem Device.onAct_core (d : Device) (n id : Nat) (g : Active → Active) :
    (Device.onAct d n id g).core = d.core := by
  simp [Device.onAct]

theorem Device.forward_core (d : Device) (f n i : Nat) (ss : List Nat) (x : Dir) (st : Nat) (e : Device)
    (h : Device.forward d f n i ss x st = some e) :
    e.core = d.core := by
  revert e
  unfold Device.forward
  try dsimp only
  repeat' (first
    | (refine findSome_core _ _ _ ?_; intro _) | split
    | (intro e h; first
        | contradiction
        | (injection h with h; subst h; repeat' (first
            | with_reducible rfl | split | (with_reducible refine (foldl_core _ _ _ ?_).trans ?_ <;> intros) | simp))))

theorem Device.landPart_core (d : Device) (v : Drive) (n : Nat) (r : RingTile) (e : Device)
    (h : Device.landPart d v n r = some e) :
    e.core = d.core := by
  revert e
  unfold Device.landPart
  try dsimp only
  repeat' (first
    | (refine findSome_core _ _ _ ?_; intro _) | split
    | (intro e h; first
        | contradiction
        | (injection h with h; subst h; repeat' (first
            | with_reducible rfl | split | (with_reducible refine (foldl_core _ _ _ ?_).trans ?_ <;> intros) | simp))))

theorem Device.landSend_core (d : Device) (f n i : Nat) (ss : List Nat) (st : Nat) (e : Device)
    (h : Device.landSend d f n i ss st = some e) :
    e.core = d.core := by
  revert e
  unfold Device.landSend
  try dsimp only
  repeat' (first
    | (refine findSome_core _ _ _ ?_; intro _) | split
    | (intro e h; first
        | contradiction
        | (injection h with h; subst h; repeat' (first
            | with_reducible rfl | split | (with_reducible refine (foldl_core _ _ _ ?_).trans ?_ <;> intros) | simp))))

theorem Device.lotStart_core (d : Device) (f s n : Nat) (v : Drive) (e : Device) (h : Device.lotStart d f s n v = some e) :
    e.core = d.core := by
  revert e
  unfold Device.lotStart
  try dsimp only
  repeat' (first
    | (refine findSome_core _ _ _ ?_; intro _) | split
    | (intro e h; first
        | contradiction
        | (injection h with h; subst h; repeat' (first
            | with_reducible rfl | split | (with_reducible refine (foldl_core _ _ _ ?_).trans ?_ <;> intros) | simp))))

@[simp] theorem Device.landDone_core (d : Device) (n st : Nat) :
    (Device.landDone d n st).core = d.core := by
  unfold Device.landDone
  split <;> simp

theorem Device.landStart_core (d : Device) (n : Nat) (e : Device) (h : Device.landStart d n = some e) :
    e.core = d.core := by
  revert e
  unfold Device.landStart
  try dsimp only
  repeat' (first
    | (refine findSome_core _ _ _ ?_; intro _) | split
    | (intro e h; first
        | contradiction
        | (injection h with h; subst h; repeat' (first
            | with_reducible rfl | split | (with_reducible refine (foldl_core _ _ _ ?_).trans ?_ <;> intros) | simp))))

theorem Device.lotSend_core (d : Device) (f n i : Nat) (ss : List Nat) (st : Nat) (e : Device)
    (h : Device.lotSend d f n i ss st = some e) :
    e.core = d.core := by
  revert e
  unfold Device.lotSend
  try dsimp only
  repeat' (first
    | (refine findSome_core _ _ _ ?_; intro _) | split
    | (intro e h; first
        | contradiction
        | (injection h with h; subst h; repeat' (first
            | with_reducible rfl | split | (with_reducible refine (foldl_core _ _ _ ?_).trans ?_ <;> intros) | simp))))

@[simp] theorem Device.feedRead_core (d : Device) (f : Nat) (fd : Feed) (fm : Fmt) (i : Nat) (es : List (Nat × Ecc)) :
    (Device.feedRead d f fd fm i es).core = d.core := by
  unfold Device.feedRead
  try dsimp only
  repeat' (first | with_reducible rfl | split | (with_reducible refine (foldl_core _ _ _ ?_).trans ?_ <;> intros) | simp)

theorem Device.feedSend_core (d : Device) (f n : Nat) (e : Device) (h : Device.feedSend d f n = some e) :
    e.core = d.core := by
  revert e
  unfold Device.feedSend
  try dsimp only
  repeat' (first
    | (refine findSome_core _ _ _ ?_; intro _) | split
    | (intro e h; first
        | contradiction
        | (injection h with h; subst h; repeat' (first
            | with_reducible rfl | split | (with_reducible refine (foldl_core _ _ _ ?_).trans ?_ <;> intros) | simp))))

@[simp] theorem Device.dropFeed_core (d : Device) (n : Nat) :
    (Device.dropFeed d n).core = d.core := by
  unfold Device.dropFeed
  try dsimp only
  repeat' (first | with_reducible rfl | split | (with_reducible refine (foldl_core _ _ _ ?_).trans ?_ <;> intros) | simp)

theorem Device.feedStep_core (d : Device) (f s n : Nat) (e : Device) (h : Device.feedStep d f s n = some e) :
    e.core = d.core := by
  revert e
  unfold Device.feedStep
  try dsimp only
  repeat' (first
    | (refine findSome_core _ _ _ ?_; intro _) | split
    | (intro e h; first
        | contradiction
        | (injection h with h; subst h; repeat' (first
            | with_reducible rfl | split | (with_reducible refine (foldl_core _ _ _ ?_).trans ?_ <;> intros) | simp))))

theorem Device.passEnd_core (d : Device) (f n i : Nat) (ss : List Nat) (x : Dir) (st : Nat) (e : Device)
    (h : Device.passEnd d f n i ss x st = some e) :
    e.core = d.core := by
  revert e
  unfold Device.passEnd
  try dsimp only
  repeat' (first
    | (refine findSome_core _ _ _ ?_; intro _) | split
    | (intro e h; first
        | contradiction
        | (injection h with h; subst h; repeat' (first
            | with_reducible rfl | split | (with_reducible refine (foldl_core _ _ _ ?_).trans ?_ <;> intros) | simp))))

theorem Device.passNext_core (d : Device) (f n i : Nat) (ss : List Nat) (x : Dir) (e : Device)
    (h : Device.passNext d f n i ss x = some e) : e.core = d.core := by
  revert e
  unfold Device.passNext
  refine findSome_core _ _ _ ?_
  intro st e h
  simp only [Option.map_eq_some_iff] at h
  obtain ⟨c, h, rfl⟩ := h
  have hc : c.core = d.core := by
    revert c
    refine orElse_core _ _ _ (Device.forward_core _ _ _ _ _ _ _) (orElse_core _ _ _ ?_ (Device.passEnd_core _ _ _ _ _ _ _))
    split
    · exact orElse_core _ _ _ (Device.landSend_core _ _ _ _ _ _) (Device.lotSend_core _ _ _ _ _ _)
    · exact none_core _
  simpa using hc

theorem Device.takeTile_core (d : Device) (n : Nat) (v : Drive) (x : Dir) (e : Device)
    (h : Device.takeTile d n v x = some e) : e.core = d.core := by
  revert e
  unfold Device.takeTile
  dsimp only
  refine findSome_core _ _ _ ?_
  intro st
  split
  · exact none_core _
  · split
    · split
      · exact none_core _
      · intro e h; injection h with h; subst h; simp
    · split
      · exact Device.landPart_core _ _ _ _
      · split
        · exact none_core _
        · intro e h
          simp only [Option.map_eq_some_iff] at h
          obtain ⟨c, -, rfl⟩ := h
          simp

theorem Device.skipTile_core (d : Device) (n : Nat) (v : Drive) (x : Dir) (e : Device) (h : Device.skipTile d n v x = some e) :
    e.core = d.core := by
  revert e
  unfold Device.skipTile
  try dsimp only
  repeat' (first
    | (refine findSome_core _ _ _ ?_; intro _) | split
    | (intro e h; first
        | contradiction
        | (injection h with h; subst h; repeat' (first
            | with_reducible rfl | split | (with_reducible refine (foldl_core _ _ _ ?_).trans ?_ <;> intros) | simp))))

theorem Device.nodeAct_core (d : Device) (ss : List Nat) (x : Dir) (i : Nat) (e : Device)
    (h : Device.nodeAct d ss x i = some e) : e.core = d.core := by
  revert e
  unfold Device.nodeAct
  dsimp only
  cases d.flows (ss.getD i 0) with
  | none => exact none_core _
  | some sv =>
    dsimp only
    refine orElse_core _ _ _ (Device.passNext_core _ _ _ _ _ _) (orElse_core _ _ _ ?_ (orElse_core _ _ _ ?_
      (orElse_core _ _ _ (Device.skipTile_core _ _ _ _) (orElse_core _ _ _ (Device.takeTile_core _ _ _ _)
        (orElse_core _ _ _ ?_ (Device.leftOver_core _ _ _))))))
    all_goals split
    all_goals first
      | exact none_core _
      | exact Device.lotStart_core _ _ _ _ _
      | exact Device.landStart_core _ _
      | exact orElse_core _ _ _ (Device.feedStep_core _ _ _ _) (Device.feedSend_core _ _ _)

@[simp] theorem Device.nodeGo_core (k : Nat) (d : Device) (ss : List Nat) (x : Dir) (i : Nat) :
    (Device.nodeGo k d ss x i).core = d.core := by
  induction k generalizing d with
  | zero => rfl
  | succ k ih =>
    unfold Device.nodeGo
    split
    · rename_i e h
      rw [ih]; exact Device.nodeAct_core _ _ _ _ _ h
    · rfl

@[simp] theorem Device.settle_core (d : Device) (f : Nat) :
    (Device.settle d f).core = d.core := by
  unfold Device.settle
  try dsimp only
  repeat' (first | with_reducible rfl | split | (with_reducible refine (foldl_core _ _ _ ?_).trans ?_ <;> intros) | simp)

@[simp] theorem Device.settleAt_core (d : Device) (n : Nat) :
    (Device.settleAt d n).core = d.core := by
  unfold Device.settleAt
  split <;> simp

@[simp] theorem Device.withErrs_core (d : Device) (n id : Nat) (es : List (Nat × Ecc)) :
    (Device.withErrs d n id es).core = d.core := by
  unfold Device.withErrs
  try dsimp only
  repeat' (first | with_reducible rfl | split | (with_reducible refine (foldl_core _ _ _ ?_).trans ?_ <;> intros) | simp)

@[simp] theorem Device.doFeed_core (d : Device) (n : Nat) (q : Queue) (es : List (Nat × Ecc)) :
    (Device.doFeed d n q es).core = d.core := by
  unfold Device.doFeed
  try dsimp only
  repeat' (first | with_reducible rfl | split | (with_reducible refine (foldl_core _ _ _ ?_).trans ?_ <;> intros) | simp)

@[simp] theorem Device.doLot_core (d : Device) (n : Nat) (q : Queue) (es : List (Nat × Ecc)) :
    (Device.doLot d n q es).core = d.core := by
  unfold Device.doLot
  try dsimp only
  repeat' (first | with_reducible rfl | split | (with_reducible refine (foldl_core _ _ _ ?_).trans ?_ <;> intros) | simp)

@[simp] theorem Device.doLand_core (d : Device) (n : Nat) (q : Queue) :
    (Device.doLand d n q).core = d.core := by
  unfold Device.doLand
  try dsimp only
  repeat' (first | with_reducible rfl | split | (with_reducible refine (foldl_core _ _ _ ?_).trans ?_ <;> intros) | simp)

@[simp] theorem Device.feedArrive_core (d : Device) (x : Flight FeedFlit) :
    (Device.feedArrive d x).core = d.core := by
  unfold Device.feedArrive
  try dsimp only
  repeat' (first | with_reducible rfl | split | (with_reducible refine (foldl_core _ _ _ ?_).trans ?_ <;> intros) | simp)

@[simp] theorem Device.doFeedFlit_core (d : Device) (c : FeedFlit) :
    (Device.doFeedFlit d c).core = d.core := by
  unfold Device.doFeedFlit
  try dsimp only
  repeat' (first | with_reducible rfl | split | (with_reducible refine (foldl_core _ _ _ ?_).trans ?_ <;> intros) | simp)

@[simp] theorem Device.doArrival_core (d : Device) (n : Nat) (x : Dir) (e : Ecc) :
    (Device.doArrival d n x e).core = d.core := by
  unfold Device.doArrival
  try dsimp only
  repeat' (first | with_reducible rfl | split | (with_reducible refine (foldl_core _ _ _ ?_).trans ?_ <;> intros) | simp)

@[simp] theorem Device.doResend_core (d : Device) (n : Nat) (x : Dir) :
    (Device.doResend d n x).core = d.core := by
  unfold Device.doResend
  try dsimp only
  repeat' (first | with_reducible rfl | split | (with_reducible refine (foldl_core _ _ _ ?_).trans ?_ <;> intros) | simp)

/-! ## Array -/

@[simp] theorem Device.accReport_core (d : Device) (n tile row : Nat) (e : Ecc) :
    (Device.accReport d n tile row e).core = d.core := by
  unfold Device.accReport
  try dsimp only
  repeat' (first | with_reducible rfl | split | (with_reducible refine (foldl_core _ _ _ ?_).trans ?_ <;> intros) | simp)

@[simp] theorem Device.readErr_core (d : Device) (n addr : Nat) (e : ReadErr) :
    (Device.readErr d n addr e).1.core = d.core := by
  unfold Device.readErr
  split <;> simp

theorem Device.readPoison_core (d : Device) (n addr : Nat) (bad : List (Nat × Nat)) (e : Device)
    (h : Device.readPoison d n addr bad = some e) :
    e.core = d.core := by
  revert e
  unfold Device.readPoison
  try dsimp only
  repeat' (first
    | (refine findSome_core _ _ _ ?_; intro _) | split
    | (intro e h; first
        | contradiction
        | (injection h with h; subst h; repeat' (first
            | with_reducible rfl | split | (with_reducible refine (foldl_core _ _ _ ?_).trans ?_ <;> intros) | simp))))

theorem Device.accPoison_core (d : Device) (n addr : Nat) (tiles : List Nat) (rows : Nat) (e : Device)
    (h : Device.accPoison d n addr tiles rows = some e) :
    e.core = d.core := by
  revert e
  unfold Device.accPoison
  try dsimp only
  repeat' (first
    | (refine findSome_core _ _ _ ?_; intro _) | split
    | (intro e h; first
        | contradiction
        | (injection h with h; subst h; repeat' (first
            | with_reducible rfl | split | (with_reducible refine (foldl_core _ _ _ ?_).trans ?_ <;> intros) | simp))))

@[simp] theorem Device.doProduct_core (d : Device) (n : Nat) (q : Queue) :
    (Device.doProduct d n q).core = d.core := by
  unfold Device.doProduct
  try dsimp only
  repeat' (first | with_reducible rfl | split | (with_reducible refine (foldl_core _ _ _ ?_).trans ?_ <;> intros) | simp)

@[simp] theorem Device.mismatch_core (d : Device) (n : Nat) (path : CheckPath) (cell : Option (Nat × Nat)) (id : Option Nat) :
    (Device.mismatch d n path cell id).core = d.core := by
  unfold Device.mismatch
  try dsimp only
  repeat' (first | with_reducible rfl | split | (with_reducible refine (foldl_core _ _ _ ?_).trans ?_ <;> intros) | simp)

@[simp] theorem Device.advance_core (d : Device) (n : Nat) (a : Active) (p : Product) (t k : Nat) :
    (Device.advance d n a p t k).core = d.core := by
  unfold Device.advance
  try dsimp only
  repeat' (first | with_reducible rfl | split | (with_reducible refine (foldl_core _ _ _ ?_).trans ?_ <;> intros) | simp)

@[simp] theorem Device.stepGo_core (d : Device) (n : Nat) (a : Active) (p : Product) (fa fb : Fmt) (t : Nat)
    (ws : List StepAt) (err : ReadErr) :
    (Device.stepGo d n a p fa fb t ws err).core = d.core := by
  unfold Device.stepGo
  extract_lets s w kn kl re im tiles k rings ao bo av bv o commit
  have hc : ∀ c, (commit c).core = c.core := by intro c; simp [commit]
  split
  · simp
  split
  · simp
  have hr := Device.readErr_core d n a.cmd.addr err
  split
  rename_i e stop he
  rw [he] at hr
  split
  · exact hr
  split
  · rename_i g hg
    exact (orElse_core _ _ _ (Device.accPoison_core e _ _ _ _) (Device.readPoison_core e _ _ _) g hg).trans hr
  refine Eq.trans ?_ hr
  split
  · simp
  · repeat' split
    all_goals simp [hc]

@[simp] theorem Device.lotGo_core (d : Device) (n : Nat) (v : Drive) (a : Active) (p : Product) (fa fb : Fmt) (t : Nat)
    (err : ReadErr) :
    (Device.lotGo d n v a p fa fb t err).core = d.core := by
  unfold Device.lotGo
  try dsimp only
  repeat' (first | with_reducible rfl | split | (with_reducible refine (foldl_core _ _ _ ?_).trans ?_ <;> intros) | simp)

@[simp] theorem Device.fillerErr_core (d : Device) (n : Nat) (err : ReadErr) :
    (Device.fillerErr d n err).core = d.core := by
  unfold Device.fillerErr
  try dsimp only
  repeat' (first | with_reducible rfl | split | (with_reducible refine (foldl_core _ _ _ ?_).trans ?_ <;> intros) | simp)

@[simp] theorem Device.doTileStep_core (d : Device) (n : Nat) (err : ReadErr) :
    (Device.doTileStep d n err).core = d.core := by
  unfold Device.doTileStep
  try dsimp only
  repeat' (first | with_reducible rfl | split | (with_reducible refine (foldl_core _ _ _ ?_).trans ?_ <;> intros) | simp)

@[simp] theorem Device.doTiles_core (d : Device) (n : Nat) (q : Queue) (clear : Bool) :
    (Device.doTiles d n q clear).core = d.core := by
  unfold Device.doTiles
  try dsimp only
  repeat' (first | with_reducible rfl | split | (with_reducible refine (foldl_core _ _ _ ?_).trans ?_ <;> intros) | simp)

@[simp] theorem Device.pollTiles_core (d : Device) (n : Nat) (a : Active) :
    (Device.pollTiles d n a).core = d.core := by
  unfold Device.pollTiles
  try dsimp only
  repeat' (first | with_reducible rfl | split | (with_reducible refine (foldl_core _ _ _ ?_).trans ?_ <;> intros) | simp)

@[simp] theorem Device.moveGo_core (d : Device) (n : Nat) (q : Queue) (i : Issue) (m : Move) (errs : List (Nat × Ecc)) :
    (Device.moveGo d n q i m errs).core = d.core := by
  unfold Device.moveGo
  try dsimp only
  repeat' (first | with_reducible rfl | split | (with_reducible refine (foldl_core _ _ _ ?_).trans ?_ <;> intros) | simp)

@[simp] theorem Device.doMove_core (d : Device) (n : Nat) (q : Queue) (es : List (Nat × Ecc)) :
    (Device.doMove d n q es).core = d.core := by
  unfold Device.doMove
  try dsimp only
  repeat' (first
      | with_reducible rfl | split
      | (with_reducible refine (foldl_core _ _ _ ?_).trans ?_ <;> intros)
      | (with_reducible refine (Device.issue_core (hg := ?_) ..).trans ?_ <;> intros) | simp)

/-! ## Vector -/

@[simp] theorem Device.vopTile_core (d : Device) (n : Nat) (v : Drive) (a : Active) (o : Vop) (err : ReadErr) :
    (Device.vopTile d n v a o err).core = d.core := by
  unfold Device.vopTile
  extract_lets t heads h st ha read last
  split
  · simp
  split
  · simp
  have hr := Device.readErr_core d n a.cmd.addr err
  split
  rename_i e stop he
  rw [he] at hr
  split
  · exact hr
  split
  · rename_i g hg
    exact (orElse_core _ _ _ (Device.accPoison_core e _ _ _ _) (Device.readPoison_core e _ _ _) g hg).trans hr
  refine Eq.trans ?_ hr
  extract_lets pen d1 d2
  have h2 : d2.core = e.core := by simp [d2, d1]
  split <;> simp [h2]

@[simp] theorem Device.vopGo_core (k : Nat) (d : Device) (n id : Nat) (err : ReadErr) :
    (Device.vopGo k d n id err).core = d.core := by
  induction k generalizing d err with
  | zero => rfl
  | succ k ih =>
    unfold Device.vopGo
    dsimp only
    split
    · split <;> simp [ih]
    · rfl

@[simp] theorem Device.vopRun_core (d : Device) (n : Nat) (q : Queue) (err : ReadErr) :
    (Device.vopRun d n q err).core = d.core := by
  unfold Device.vopRun
  split
  · split <;> simp
  · rfl

@[simp] theorem Device.doVop_core (d : Device) (n : Nat) (q : Queue) (err : ReadErr) :
    (Device.doVop d n q err).core = d.core := by
  unfold Device.doVop
  try dsimp only
  repeat' (first | with_reducible rfl | split | (with_reducible refine (foldl_core _ _ _ ?_).trans ?_ <;> intros) | simp)

/-! ## Stream -/

@[simp] theorem Device.doNop_core (d : Device) (n : Nat) :
    (Device.doNop d n).core = d.core := by
  unfold Device.doNop
  try dsimp only
  repeat' (first | with_reducible rfl | split | (with_reducible refine (foldl_core _ _ _ ?_).trans ?_ <;> intros) | simp)

@[simp] theorem Device.doEnd_core (d : Device) (n : Nat) :
    (Device.doEnd d n).core = d.core := by
  unfold Device.doEnd
  try dsimp only
  repeat' (first | with_reducible rfl | split | (with_reducible refine (foldl_core _ _ _ ?_).trans ?_ <;> intros) | simp)

@[simp] theorem Device.doJump_core (d : Device) (n : Nat) :
    (Device.doJump d n).core = d.core := by
  unfold Device.doJump
  try dsimp only
  repeat' (first | with_reducible rfl | split | (with_reducible refine (foldl_core _ _ _ ?_).trans ?_ <;> intros) | simp)

@[simp] theorem Device.doCall_core (d : Device) (n : Nat) :
    (Device.doCall d n).core = d.core := by
  unfold Device.doCall
  try dsimp only
  repeat' (first | with_reducible rfl | split | (with_reducible refine (foldl_core _ _ _ ?_).trans ?_ <;> intros) | simp)

@[simp] theorem Device.doRet_core (d : Device) (n : Nat) :
    (Device.doRet d n).core = d.core := by
  unfold Device.doRet
  try dsimp only
  repeat' (first | with_reducible rfl | split | (with_reducible refine (foldl_core _ _ _ ?_).trans ?_ <;> intros) | simp)

@[simp] theorem Device.doMbsel_core (d : Device) (n : Nat) (q : Queue) :
    (Device.doMbsel d n q).core = d.core := by
  unfold Device.doMbsel
  try dsimp only
  repeat' (first | with_reducible rfl | split | (with_reducible refine (foldl_core _ _ _ ?_).trans ?_ <;> intros) | simp)

@[simp] theorem Device.doStep_core (d : Device) (n : Nat) (q : Queue) :
    (Device.doStep d n q).core = d.core := by
  unfold Device.doStep
  try dsimp only
  repeat' (first | with_reducible rfl | split | (with_reducible refine (foldl_core _ _ _ ?_).trans ?_ <;> intros) | simp)

@[simp] theorem Device.doTallyAdd_core (d : Device) (n : Nat) (q : Queue) :
    (Device.doTallyAdd d n q).core = d.core := by
  unfold Device.doTallyAdd
  try dsimp only
  repeat' (first | with_reducible rfl | split | (with_reducible refine (foldl_core _ _ _ ?_).trans ?_ <;> intros) | simp)

@[simp] theorem Device.setFrom_core (d : Device) (n f id value : Nat) :
    (Device.setFrom d n f id value).core = d.core := by
  unfold Device.setFrom
  try dsimp only
  repeat' (first | with_reducible rfl | split | (with_reducible refine (foldl_core _ _ _ ?_).trans ?_ <;> intros) | simp)

@[simp] theorem Device.doTallySet_core (d : Device) (n : Nat) (q : Queue) :
    (Device.doTallySet d n q).core = d.core := by
  unfold Device.doTallySet
  try dsimp only
  repeat' (first | with_reducible rfl | split | (with_reducible refine (foldl_core _ _ _ ?_).trans ?_ <;> intros) | simp)

@[simp] theorem Device.askCmp_core (d : Device) (n : Nat) (q : Queue) (cls value : Nat) (late : Device → Active → Device)
    (hg : ∀ d a, (late d a).core = d.core) :
    (Device.askCmp d n q cls value late).core = d.core := by
  unfold Device.askCmp
  try dsimp only
  repeat' (first | with_reducible rfl | split | (with_reducible refine (foldl_core _ _ _ ?_).trans ?_ <;> intros) | simp [hg])

@[simp] theorem Device.timeout_core (status : Nat) (n : Nat) (d : Device) (a : Active) :
    (Device.timeout status n d a).core = d.core := by
  simp [Device.timeout]

@[simp] theorem Device.setDone_core (n : Nat) (d : Device) (a : Active) :
    (Device.setDone n d a).core = d.core := by
  simp [Device.setDone]

@[simp] theorem Device.doTallyWait_core (d : Device) (n : Nat) (q : Queue) :
    (Device.doTallyWait d n q).core = d.core := by
  unfold Device.doTallyWait
  try dsimp only
  repeat' (first | with_reducible rfl | split | (with_reducible refine (foldl_core _ _ _ ?_).trans ?_ <;> intros) | simp)

@[simp] theorem Device.musterArrive_core (d : Device) (n f slot group : Nat) :
    (Device.musterArrive d n f slot group).core = d.core := by
  simp [Device.musterArrive]

@[simp] theorem Device.doMuster_core (d : Device) (n : Nat) (q : Queue) :
    (Device.doMuster d n q).core = d.core := by
  unfold Device.doMuster
  try dsimp only
  repeat' (first | with_reducible rfl | split | (with_reducible refine (foldl_core _ _ _ ?_).trans ?_ <;> intros) | simp)

@[simp] theorem Device.doWatchWait_core (d : Device) (n : Nat) (q : Queue) :
    (Device.doWatchWait d n q).core = d.core := by
  unfold Device.doWatchWait
  try dsimp only
  repeat' (first | with_reducible rfl | split | (with_reducible refine (foldl_core _ _ _ ?_).trans ?_ <;> intros) | simp)

@[simp] theorem Device.doWatchRetry_core (d : Device) (n : Nat) (q : Queue) :
    (Device.doWatchRetry d n q).core = d.core := by
  unfold Device.doWatchRetry
  try dsimp only
  repeat' (first | with_reducible rfl | split | (with_reducible refine (foldl_core _ _ _ ?_).trans ?_ <;> intros) | simp)

@[simp] theorem Device.doRacePush_core (d : Device) (n : Nat) (q : Queue) :
    (Device.doRacePush d n q).core = d.core := by
  unfold Device.doRacePush
  try dsimp only
  repeat' (first | with_reducible rfl | split | (with_reducible refine (foldl_core _ _ _ ?_).trans ?_ <;> intros) | simp)

@[simp] theorem Device.doRacePop_core (d : Device) (n : Nat) (q : Queue) :
    (Device.doRacePop d n q).core = d.core := by
  unfold Device.doRacePop
  try dsimp only
  repeat' (first | with_reducible rfl | split | (with_reducible refine (foldl_core _ _ _ ?_).trans ?_ <;> intros) | simp)

@[simp] theorem Device.doHandleSet_core (d : Device) (n : Nat) (q : Queue) :
    (Device.doHandleSet d n q).core = d.core := by
  unfold Device.doHandleSet
  try dsimp only
  repeat' (first | with_reducible rfl | split | (with_reducible refine (foldl_core _ _ _ ?_).trans ?_ <;> intros) | simp)

@[simp] theorem Device.giveBack_core (d : Device) (slot : Nat) :
    (Device.giveBack d slot).core = d.core := by
  unfold Device.giveBack
  try dsimp only
  repeat' (first | with_reducible rfl | split | (with_reducible refine (foldl_core _ _ _ ?_).trans ?_ <;> intros) | simp)

@[simp] theorem Device.freeHeld_core (d : Device) (plan : Nat) :
    (Device.freeHeld d plan).core = d.core := by
  unfold Device.freeHeld
  try dsimp only
  repeat' (first | with_reducible rfl | split | (with_reducible refine (foldl_core _ _ _ ?_).trans ?_ <;> intros) | simp)

@[simp] theorem Device.acceptShear_core (d : Device) (n : Nat) (a : Active) (c : Shear) :
    (Device.acceptShear d n a c).core = d.core := by
  unfold Device.acceptShear
  try dsimp only
  repeat' (first | with_reducible rfl | split | (with_reducible refine (foldl_core _ _ _ ?_).trans ?_ <;> intros) | simp)

@[simp] theorem Device.doShear_core (d : Device) (n : Nat) (q : Queue) :
    (Device.doShear d n q).core = d.core := by
  unfold Device.doShear
  try dsimp only
  repeat' (first | with_reducible rfl | split | (with_reducible refine (foldl_core _ _ _ ?_).trans ?_ <;> intros) | simp)

@[simp] theorem Device.acceptCollect_core (d : Device) (n : Nat) (a : Active) (c : Collect) :
    (Device.acceptCollect d n a c).core = d.core := by
  unfold Device.acceptCollect
  split <;> simp

@[simp] theorem Device.doCollect_core (d : Device) (n : Nat) (q : Queue) :
    (Device.doCollect d n q).core = d.core := by
  unfold Device.doCollect
  try dsimp only
  repeat' (first | with_reducible rfl | split | (with_reducible refine (foldl_core _ _ _ ?_).trans ?_ <;> intros) | simp)

@[simp] theorem Device.pollSync_core (d : Device) (n : Nat) (a : Active) :
    (Device.pollSync d n a).core = d.core := by
  unfold Device.pollSync
  try dsimp only
  repeat' (first | with_reducible rfl | split | (with_reducible refine (foldl_core _ _ _ ?_).trans ?_ <;> intros) | simp)

@[simp] theorem Device.waitFires_core (d : Device) (n : Nat) (a : Active) :
    (Device.waitFires d n a).core = d.core := by
  unfold Device.waitFires
  try dsimp only
  repeat' (first | with_reducible rfl | split | (with_reducible refine (foldl_core _ _ _ ?_).trans ?_ <;> intros) | simp)

/-! ## Pen -/

@[simp] theorem Device.doCompletion_core (d : Device) (n : Nat) (q : Queue) (e : Engine) (k : Nat) :
    (Device.doCompletion d n q e k).core = d.core := by
  unfold Device.doCompletion
  try dsimp only
  repeat' (first | with_reducible rfl | split | (with_reducible refine (foldl_core _ _ _ ?_).trans ?_ <;> intros) | simp)

@[simp] theorem Device.stopPen_core (d : Device) (n : Nat) (c : StopCause) :
    (Device.stopPen d n c).core = d.core := by
  unfold Device.stopPen
  try dsimp only
  repeat' (first | with_reducible rfl | split | (with_reducible refine (foldl_core _ _ _ ?_).trans ?_ <;> intros) | simp)

@[simp] theorem Device.resumePen_core (d : Device) (n : Nat) (c : StopCause) :
    (Device.resumePen d n c).core = d.core := by
  unfold Device.resumePen
  try dsimp only
  repeat' (first | with_reducible rfl | split | (with_reducible refine (foldl_core _ _ _ ?_).trans ?_ <;> intros) | simp)

@[simp] theorem Device.doPenStop_core (d : Device) (n : Nat) (c : StopCause) :
    (Device.doPenStop d n c).core = d.core := by
  unfold Device.doPenStop
  split <;> simp

@[simp] theorem Device.doIdle_core (d : Device) (n : Nat) :
    (Device.doIdle d n).core = d.core := by
  unfold Device.doIdle
  try dsimp only
  repeat' (first | with_reducible rfl | split | (with_reducible refine (foldl_core _ _ _ ?_).trans ?_ <;> intros) | simp)

@[simp] theorem Device.doRampEnd_core (d : Device) (n : Nat) :
    (Device.doRampEnd d n).core = d.core := by
  simp [Device.doRampEnd]

@[simp] theorem Device.doRampRequest_core (d : Device) (n : Nat) (up : Bool) :
    (Device.doRampRequest d n up).core = d.core := by
  simp [Device.doRampRequest]

@[simp] theorem Device.completeRuns_core (d : Device) (f s : Nat) :
    (Device.completeRuns d f s).core = d.core := by
  unfold Device.completeRuns
  try dsimp only
  repeat' (first | with_reducible rfl | split | (with_reducible refine (foldl_core _ _ _ ?_).trans ?_ <;> intros) | simp)

@[simp] theorem Device.doRampGrant_core (d : Device) (n : Nat) (up : Bool) (cycle : Nat) :
    (Device.doRampGrant d n up cycle).core = d.core := by
  unfold Device.doRampGrant
  try dsimp only
  repeat' (first
      | with_reducible rfl
      | (with_reducible first
          | refine (Device.onArrive_core _ _ _ ?_).trans ?_
          | refine (Device.deliver_core _ _ _ _ ?_).trans ?_
          | refine (Device.hear_core _ _ _ ?_).trans ?_
          | refine (Device.fromHost_core _ _ _ ?_).trans ?_
          | refine (Device.begin_core _ _ _ _ _ ?_).trans ?_
          | refine (Device.forMember_core _ _ _ _ ?_).trans ?_) <;> intros | split
      | (with_reducible refine (foldl_core _ _ _ ?_).trans ?_ <;> intros) | simp)

@[simp] theorem Device.savePen_core (d : Device) (n s : Nat) (v : Drive) :
    (Device.savePen d n s v).core = d.core := by
  unfold Device.savePen
  try dsimp only
  repeat' (first | with_reducible rfl | split | (with_reducible refine (foldl_core _ _ _ ?_).trans ?_ <;> intros) | simp)

@[simp] theorem Device.rejoin_core (d : Device) (n stopped : Nat) :
    (Device.rejoin d n stopped).core = d.core := by
  unfold Device.rejoin
  try dsimp only
  repeat' (first | with_reducible rfl | split | (with_reducible refine (foldl_core _ _ _ ?_).trans ?_ <;> intros) | simp)

@[simp] theorem Device.resumeWaits_core (d : Device) (f s : Nat) :
    (Device.resumeWaits d f s).core = d.core := by
  unfold Device.resumeWaits
  try dsimp only
  repeat' (first | with_reducible rfl | split | (with_reducible refine (foldl_core _ _ _ ?_).trans ?_ <;> intros) | simp)

@[simp] theorem Device.vacate_core (d : Device) (f s n : Nat) :
    (Device.vacate d f s n).core = d.core := by
  unfold Device.vacate
  try dsimp only
  repeat' (first | with_reducible rfl | split | (with_reducible refine (foldl_core _ _ _ ?_).trans ?_ <;> intros) | simp)

@[simp] theorem Device.load_core (d : Device) (f s n : Nat) (v : Drive) :
    (Device.load d f s n v).core = d.core := by
  unfold Device.load
  try dsimp only
  repeat' (first | with_reducible rfl | split | (with_reducible refine (foldl_core _ _ _ ?_).trans ?_ <;> intros) | simp)

@[simp] theorem Device.startDrive_core (d : Device) (f s : Nat) :
    (Device.startDrive d f s).core = d.core := by
  unfold Device.startDrive
  try dsimp only
  repeat' (first | with_reducible rfl | split | (with_reducible refine (foldl_core _ _ _ ?_).trans ?_ <;> intros) | simp)

@[simp] theorem Device.switched_core (d : Device) (f s : Nat) (v : Drive) :
    (Device.switched d f s v).core = d.core := by
  unfold Device.switched
  try dsimp only
  repeat' (first | with_reducible rfl | split | (with_reducible refine (foldl_core _ _ _ ?_).trans ?_ <;> intros) | simp)

@[simp] theorem Device.doPreempt_core (d : Device) (n cycles : Nat) :
    (Device.doPreempt d n cycles).core = d.core := by
  unfold Device.doPreempt
  try dsimp only
  repeat' (first | with_reducible rfl | split | (with_reducible refine (foldl_core _ _ _ ?_).trans ?_ <;> intros) | simp)

@[simp] theorem Device.retirePen_core (d : Device) (n : Nat) :
    (Device.retirePen d n).core = d.core := by
  unfold Device.retirePen
  try dsimp only
  repeat' (first | with_reducible rfl | split | (with_reducible refine (foldl_core _ _ _ ?_).trans ?_ <;> intros) | simp)

@[simp] theorem Device.doPenRetire_core (d : Device) (n : Nat) :
    (Device.doPenRetire d n).core = d.core := by
  unfold Device.doPenRetire
  split <;> simp

@[simp] theorem Device.renameFlights_core (d : Device) (n m : Nat) :
    (Device.renameFlights d n m).core = d.core := by
  unfold Device.renameFlights
  try dsimp only
  repeat' (first | with_reducible rfl | split | (with_reducible refine (foldl_core _ _ _ ?_).trans ?_ <;> intros) | simp)

@[simp] theorem Device.doSubstitute_core (d : Device) (n : Nat) :
    (Device.doSubstitute d n).core = d.core := by
  unfold Device.doSubstitute
  try dsimp only
  repeat' (first | with_reducible rfl | split | (with_reducible refine (foldl_core _ _ _ ?_).trans ?_ <;> intros) | simp)

/-! ## Rings -/

@[simp] theorem Device.landFlit_core (d : Device) (f : BulkFlit) (part : Nat) :
    (Device.landFlit d f part).core = d.core := by
  unfold Device.landFlit
  try dsimp only
  repeat' (first | with_reducible rfl | split | (with_reducible refine (foldl_core _ _ _ ?_).trans ?_ <;> intros) | simp)

@[simp] theorem Device.doBulkFlit_core (d : Device) (f : BulkFlit) :
    (Device.doBulkFlit d f).core = d.core := by
  unfold Device.doBulkFlit
  try dsimp only
  repeat' (first | with_reducible rfl | split | (with_reducible refine (foldl_core _ _ _ ?_).trans ?_ <;> intros) | simp)

@[simp] theorem Device.serveOrder_core (d : Device) (o : ReadOrder) (part : Nat) (errs : List (Nat × Ecc)) :
    (Device.serveOrder d o part errs).core = d.core := by
  unfold Device.serveOrder
  try dsimp only
  repeat' (first | with_reducible rfl | split | (with_reducible refine (foldl_core _ _ _ ?_).trans ?_ <;> intros) | simp)

@[simp] theorem Device.doReadOrder_core (d : Device) (o : ReadOrder) (es : List (Nat × Ecc)) :
    (Device.doReadOrder d o es).core = d.core := by
  unfold Device.doReadOrder
  try dsimp only
  repeat' (first | with_reducible rfl | split | (with_reducible refine (foldl_core _ _ _ ?_).trans ?_ <;> intros) | simp)

@[simp] theorem Device.doCtlAdd_core (d : Device) (f id inc : Nat) :
    (Device.doCtlAdd d f id inc).core = d.core := by
  simp [Device.doCtlAdd]

@[simp] theorem Device.doCtlSet_core (d : Device) (f id value : Nat) :
    (Device.doCtlSet d f id value).core = d.core := by
  unfold Device.doCtlSet
  try dsimp only
  repeat' (first
      | with_reducible rfl
      | (with_reducible first
          | refine (Device.onArrive_core _ _ _ ?_).trans ?_
          | refine (Device.deliver_core _ _ _ _ ?_).trans ?_
          | refine (Device.hear_core _ _ _ ?_).trans ?_
          | refine (Device.fromHost_core _ _ _ ?_).trans ?_
          | refine (Device.begin_core _ _ _ _ _ ?_).trans ?_
          | refine (Device.forMember_core _ _ _ _ ?_).trans ?_) <;> intros | split
      | (with_reducible refine (foldl_core _ _ _ ?_).trans ?_ <;> intros) | simp)

@[simp] theorem Device.releaseMuster_core (d : Device) (f slot group cycle : Nat) :
    (Device.releaseMuster d f slot group cycle).core = d.core := by
  unfold Device.releaseMuster
  try dsimp only
  repeat' (first | with_reducible rfl | split | (with_reducible refine (foldl_core _ _ _ ?_).trans ?_ <;> intros) | simp)

@[simp] theorem Device.doMusterArrive_core (d : Device) (f slot group pen cycle : Nat) :
    (Device.doMusterArrive d f slot group pen cycle).core = d.core := by
  unfold Device.doMusterArrive
  try dsimp only
  repeat' (first
      | with_reducible rfl
      | (with_reducible first
          | refine (Device.onArrive_core _ _ _ ?_).trans ?_
          | refine (Device.deliver_core _ _ _ _ ?_).trans ?_
          | refine (Device.hear_core _ _ _ ?_).trans ?_
          | refine (Device.fromHost_core _ _ _ ?_).trans ?_
          | refine (Device.begin_core _ _ _ _ _ ?_).trans ?_
          | refine (Device.forMember_core _ _ _ _ ?_).trans ?_) <;> intros | split
      | (with_reducible refine (foldl_core _ _ _ ?_).trans ?_ <;> intros) | simp)

@[simp] theorem Device.staggerUp_core (d : Device) (n cycle : Nat) :
    (Device.staggerUp d n cycle).core = d.core := by
  unfold Device.staggerUp
  try dsimp only
  repeat' (first | with_reducible rfl | split | (with_reducible refine (foldl_core _ _ _ ?_).trans ?_ <;> intros) | simp)

@[simp] theorem Device.doMusterRelease_core (d : Device) (f slot group n pos cycle : Nat) :
    (Device.doMusterRelease d f slot group n pos cycle).core = d.core := by
  unfold Device.doMusterRelease
  try dsimp only
  repeat' (first
      | with_reducible rfl
      | (with_reducible first
          | refine (Device.onArrive_core _ _ _ ?_).trans ?_
          | refine (Device.deliver_core _ _ _ _ ?_).trans ?_
          | refine (Device.hear_core _ _ _ ?_).trans ?_
          | refine (Device.fromHost_core _ _ _ ?_).trans ?_
          | refine (Device.begin_core _ _ _ _ _ ?_).trans ?_
          | refine (Device.forMember_core _ _ _ _ ?_).trans ?_) <;> intros | split
      | (with_reducible refine (foldl_core _ _ _ ?_).trans ?_ <;> intros) | simp)

@[simp] theorem Device.doSetupAddr_core (d : Device) (crook rd : Bool) (off : Nat) :
    (Device.doSetupAddr d crook rd off).core = d.core := by
  simp [Device.doSetupAddr]

@[simp] theorem Device.doSetupData_core (d : Device) (crook refused : Bool) (value : Nat) :
    (Device.doSetupData d crook refused value).core = d.core := by
  simp [Device.doSetupData]

@[simp] theorem Device.doEventFrag_core (d : Device) (n value : Nat) (last : Bool) :
    (Device.doEventFrag d n value last).core = d.core := by
  unfold Device.doEventFrag
  try dsimp only
  repeat' (first | with_reducible rfl | split | (with_reducible refine (foldl_core _ _ _ ?_).trans ?_ <;> intros) | simp)

@[simp] theorem Device.doDraw_core (d : Device) (a : Nat) (req : List Nat) :
    (Device.doDraw d a req).core = d.core := by
  unfold Device.doDraw
  try dsimp only
  repeat' (first | with_reducible rfl | split | (with_reducible refine (foldl_core _ _ _ ?_).trans ?_ <;> intros) | simp)

/-! ## Memory -/

@[simp] theorem Device.doMemRead_core (d : Device) (addr : Nat) (lo hi : Ecc) :
    (Device.doMemRead d addr lo hi).core = d.core := by
  unfold Device.doMemRead
  split <;> simp

@[simp] theorem Device.doMemWrite_core (d : Device) (f x : Nat) (bs : List Byte) :
    (Device.doMemWrite d f x bs).core = d.core := by
  unfold Device.doMemWrite
  try dsimp only
  repeat' (first | with_reducible rfl | split | (with_reducible refine (foldl_core _ _ _ ?_).trans ?_ <;> intros) | simp)

@[simp] theorem Device.doPatrol_core (d : Device) (ch : Nat) (errs : List (Ecc × Ecc)) :
    (Device.doPatrol d ch errs).core = d.core := by
  unfold Device.doPatrol
  try dsimp only
  repeat' (first | with_reducible rfl | split | (with_reducible refine (foldl_core _ _ _ ?_).trans ?_ <;> intros) | simp)

@[simp] theorem Device.readMr4_core (d : Device) (q : Nat) (hot : Bool × Bool) :
    (Device.readMr4 d q hot).core = d.core := by
  unfold Device.readMr4
  try dsimp only
  repeat' (first | with_reducible rfl | split | (with_reducible refine (foldl_core _ _ _ ?_).trans ?_ <;> intros) | simp)

@[simp] theorem Device.doRefresh_core (d : Device) (q : Nat) (hot : Bool × Bool) :
    (Device.doRefresh d q hot).core = d.core := by
  unfold Device.doRefresh
  try dsimp only
  repeat' (first | with_reducible rfl | split | (with_reducible refine (foldl_core _ _ _ ?_).trans ?_ <;> intros) | simp)

@[simp] theorem Device.doRfm_core (d : Device) (q : Nat) (hot : Bool × Bool) :
    (Device.doRfm d q hot).core = d.core := by
  unfold Device.doRfm
  try dsimp only
  repeat' (first | with_reducible rfl | split | (with_reducible refine (foldl_core _ _ _ ?_).trans ?_ <;> intros) | simp)

@[simp] theorem Device.doWck_core (d : Device) (q ch : Nat) (drifted : Bool) :
    (Device.doWck d q ch drifted).core = d.core := by
  unfold Device.doWck
  split <;> simp

@[simp] theorem Device.doChannelDown_core (d : Device) (ch : Nat) :
    (Device.doChannelDown d ch).core = d.core := by
  unfold Device.doChannelDown
  split <;> simp

@[simp] theorem Device.doSelfRefIn_core (d : Device) (q : Nat) :
    (Device.doSelfRefIn d q).core = d.core := by
  unfold Device.doSelfRefIn
  split <;> simp

@[simp] theorem Device.doSelfRefOut_core (d : Device) (q : Nat) :
    (Device.doSelfRefOut d q).core = d.core := by
  unfold Device.doSelfRefOut
  split <;> simp

@[simp] theorem Device.scrubWord_core (d : Device) (n word : Nat) (e : Ecc) :
    (Device.scrubWord d n word e).core = d.core := by
  unfold Device.scrubWord
  try dsimp only
  repeat' (first | with_reducible rfl | split | (with_reducible refine (foldl_core _ _ _ ?_).trans ?_ <;> intros) | simp)

@[simp] theorem Device.doScrub_core (d : Device) (n bank : Nat) (granted : Bool) (errs : List Ecc) :
    (Device.doScrub d n bank granted errs).core = d.core := by
  unfold Device.doScrub
  try dsimp only
  repeat' (first | with_reducible rfl | split | (with_reducible refine (foldl_core _ _ _ ?_).trans ?_ <;> intros) | simp)

@[simp] theorem Device.startClear_core (d : Device) (n : Nat) :
    (Device.startClear d n).core = d.core := by
  simp [Device.startClear]

@[simp] theorem Device.doPadClear_core (d : Device) (n : Nat) :
    (Device.doPadClear d n).core = d.core := by
  unfold Device.doPadClear
  try dsimp only
  repeat' (first | with_reducible rfl | split | (with_reducible refine (foldl_core _ _ _ ?_).trans ?_ <;> intros) | simp)

@[simp] theorem Device.abandonRecords_core (d : Device) :
    (Device.abandonRecords d).core = d.core := by
  unfold Device.abandonRecords
  try dsimp only
  repeat' (first | with_reducible rfl | split | (with_reducible refine (foldl_core _ _ _ ?_).trans ?_ <;> intros) | simp)

@[simp] theorem Device.rowBroken_core (d : Device) (st : RowStore) (row : Nat) :
    (Device.rowBroken d st row).core = d.core := by
  unfold Device.rowBroken
  try dsimp only
  repeat' (first | with_reducible rfl | split | (with_reducible refine (foldl_core _ _ _ ?_).trans ?_ <;> intros) | simp)

@[simp] theorem Device.doRowSpare_core (d : Device) (st : RowStore) (row : Nat) (e : Ecc) :
    (Device.doRowSpare d st row e).core = d.core := by
  unfold Device.doRowSpare
  try dsimp only
  repeat' (first | with_reducible rfl | split | (with_reducible refine (foldl_core _ _ _ ?_).trans ?_ <;> intros) | simp)

@[simp] theorem Device.doRowRemap_core (d : Device) (st : RowStore) (row : Nat) :
    (Device.doRowRemap d st row).core = d.core := by
  unfold Device.doRowRemap
  try dsimp only
  repeat' (first | with_reducible rfl | split | (with_reducible refine (foldl_core _ _ _ ?_).trans ?_ <;> intros) | simp)

/-! ## Shears -/

@[simp] theorem Device.noteWrite_core (d : Device) (r : ShearReq) (x len : Nat) :
    (Device.noteWrite d r x len).core = d.core := by
  unfold Device.noteWrite
  try dsimp only
  repeat' (first | with_reducible rfl | split | (with_reducible refine (foldl_core _ _ _ ?_).trans ?_ <;> intros) | simp)

@[simp] theorem Device.writeState_core (d : Device) (r : ShearReq) (x : Nat) (bs : List Byte) :
    (Device.writeState d r x bs).core = d.core := by
  unfold Device.writeState
  split <;> simp

@[simp] theorem Device.writeFactor_core (d : Device) (r : ShearReq) (p : FactorWrite) :
    (Device.writeFactor d r p).core = d.core := by
  unfold Device.writeFactor
  try dsimp only
  repeat' (first | with_reducible rfl | split | (with_reducible refine (foldl_core _ _ _ ?_).trans ?_ <;> intros) | simp)

@[simp] theorem Device.shearPoison_core (d : Device) (r : ShearReq) :
    (Device.shearPoison d r).core = d.core := by
  simp [Device.shearPoison]

@[simp] theorem Device.hubAdd_core (d : Device) (f id inc : Nat) :
    (Device.hubAdd d f id inc).core = d.core := by
  unfold Device.hubAdd
  try dsimp only
  repeat' (first | with_reducible rfl | split | (with_reducible refine (foldl_core _ _ _ ?_).trans ?_ <;> intros) | simp)

@[simp] theorem Device.shearBlocks_core (r : ShearReq) (step n : Nat) (d : Device) (b : Nat) :
    (Device.shearBlocks r step n d b).1.core = d.core := by
  induction n generalizing d b with
  | zero => rfl
  | succ n ih =>
    unfold Device.shearBlocks
    dsimp only
    split
    · rfl
    · split
      · simp
      · rw [ih]
        refine (foldl_core _ _ _ ?_).trans ?_
        · intros; simp
        · simp

@[simp] theorem Device.shearMatrix_core (d : Device) (r : ShearReq) :
    (Device.shearMatrix d r).1.core = d.core := by
  unfold Device.shearMatrix
  try dsimp only
  repeat' (first | with_reducible rfl | split | (with_reducible refine (foldl_core _ _ _ ?_).trans ?_ <;> intros) | simp)

@[simp] theorem Device.doMemShears_core (d : Device) (u : Nat) :
    (Device.doMemShears d u).core = d.core := by
  unfold Device.doMemShears
  try dsimp only
  repeat' (first | with_reducible rfl | split | (with_reducible refine (foldl_core _ _ _ ?_).trans ?_ <;> intros) | simp)

/-! ## Collect -/

@[simp] theorem Device.onRun_core (d : Device) (slot : Nat) (g : RunC → RunC) :
    (Device.onRun d slot g).core = d.core := by
  unfold Device.onRun
  split <;> simp

@[simp] theorem Device.endRun_core (d : Device) (slot : Nat) :
    (Device.endRun d slot).core = d.core := by
  unfold Device.endRun
  try dsimp only
  repeat' (first | with_reducible rfl | split | (with_reducible refine (foldl_core _ _ _ ?_).trans ?_ <;> intros) | simp)

@[simp] theorem Device.shardDone_core (d : Device) (slot f x : Nat) (p : PlanE) :
    (Device.shardDone d slot f x p).core = d.core := by
  unfold Device.shardDone
  split <;> simp

@[simp] theorem Device.spread_core (d : Device) (slot plan leaf : Nat) (p : PlanE) (off : Nat) (bs : List Byte) (last : Bool) :
    (Device.spread d slot plan leaf p off bs last).core = d.core := by
  unfold Device.spread
  try dsimp only
  repeat' (first | with_reducible rfl | split | (with_reducible refine (foldl_core _ _ _ ?_).trans ?_ <;> intros) | simp)

@[simp] theorem Device.rootChunk_core (d : Device) (slot : Nat) (p : PlanE) (c : Partial) :
    (Device.rootChunk d slot p c).core = d.core := by
  unfold Device.rootChunk
  try dsimp only
  repeat' (first | with_reducible rfl | split | (with_reducible refine (foldl_core _ _ _ ?_).trans ?_ <;> intros) | simp)

@[simp] theorem Device.addPartial_core (d : Device) (slot : Nat) (p : PlanE) (x : Partial) :
    (Device.addPartial d slot p x).core = d.core := by
  unfold Device.addPartial
  try dsimp only
  repeat' (first | with_reducible rfl | split | (with_reducible refine (foldl_core _ _ _ ?_).trans ?_ <;> intros) | simp)

@[simp] theorem Device.startReduce_core (d : Device) (slot : Nat) (c : Coll) (p : PlanE) :
    (Device.startReduce d slot c p).core = d.core := by
  unfold Device.startReduce
  try dsimp only
  repeat' (first | with_reducible rfl | split | (with_reducible refine (foldl_core _ _ _ ?_).trans ?_ <;> intros) | simp)

@[simp] theorem Device.doCollStart_core (d : Device) (es : List (Nat × Ecc)) :
    (Device.doCollStart d es).core = d.core := by
  unfold Device.doCollStart
  try dsimp only
  repeat' (first | with_reducible rfl | split | (with_reducible refine (foldl_core _ _ _ ?_).trans ?_ <;> intros) | simp)

@[simp] theorem Device.withhold_core (d : Device) (slot k : Nat) (p : Packet) :
    (Device.withhold d slot k p).core = d.core := by
  unfold Device.withhold
  try dsimp only
  repeat' (first | with_reducible rfl | split | (with_reducible refine (foldl_core _ _ _ ?_).trans ?_ <;> intros) | simp)

@[simp] theorem Device.doReduce_core (d : Device) (k : Nat) (p : Packet) :
    (Device.doReduce d k p).core = d.core := by
  unfold Device.doReduce
  try dsimp only
  repeat' (first | with_reducible rfl | split | (with_reducible refine (foldl_core _ _ _ ?_).trans ?_ <;> intros) | simp)

@[simp] theorem Device.landGather_core (d : Device) (slot f : Nat) (e : PlanE) (p : Packet) :
    (Device.landGather d slot f e p).core = d.core := by
  unfold Device.landGather
  split <;> simp

@[simp] theorem Device.doGather_core (d : Device) (k : Nat) (p : Packet) :
    (Device.doGather d k p).core = d.core := by
  unfold Device.doGather
  split <;> simp

@[simp] theorem Device.setLag_core (d : Device) (g : Nat) (l : Option Lag) :
    (Device.setLag d g l).core = d.core := by
  simp [Device.setLag]

@[simp] theorem Device.holdBack_core (d : Device) (g k : Nat) (p : Packet) :
    (Device.holdBack d g k p).core = d.core := by
  unfold Device.holdBack
  try dsimp only
  repeat' (first | with_reducible rfl | split | (with_reducible refine (foldl_core _ _ _ ?_).trans ?_ <;> intros) | simp)

@[simp] theorem Device.stopHold_core (d : Device) (g : Nat) :
    (Device.stopHold d g).core = d.core := by
  unfold Device.stopHold
  try dsimp only
  repeat' (first | with_reducible rfl | split | (with_reducible refine (foldl_core _ _ _ ?_).trans ?_ <;> intros) | simp)

@[simp] theorem Device.doMulticast_core (d : Device) (k : Nat) (p : Packet) (room : Bool) :
    (Device.doMulticast d k p room).core = d.core := by
  unfold Device.doMulticast
  try dsimp only
  repeat' (first | with_reducible rfl | split | (with_reducible refine (foldl_core _ _ _ ?_).trans ?_ <;> intros) | simp)

@[simp] theorem Device.detach_core (d : Device) (g : Nat) :
    (Device.detach d g).core = d.core := by
  unfold Device.detach
  try dsimp only
  repeat' (first | with_reducible rfl | split | (with_reducible refine (foldl_core _ _ _ ?_).trans ?_ <;> intros) | simp)

@[simp] theorem Device.doRepairRequest_core (d : Device) (g : Nat) :
    (Device.doRepairRequest d g).core = d.core := by
  unfold Device.doRepairRequest
  try dsimp only
  repeat' (first | with_reducible rfl | split | (with_reducible refine (foldl_core _ _ _ ?_).trans ?_ <;> intros) | simp)

@[simp] theorem Device.sendRepair_core (d : Device) (e : PlanE) (q : Packet) (off : Nat) :
    (Device.sendRepair d e q off).core = d.core := by
  unfold Device.sendRepair
  try dsimp only
  repeat' (first | with_reducible rfl | split | (with_reducible refine (foldl_core _ _ _ ?_).trans ?_ <;> intros) | simp)

@[simp] theorem Device.doRepair_core (d : Device) (k : Nat) (p : Packet) :
    (Device.doRepair d k p).core = d.core := by
  unfold Device.doRepair
  try dsimp only
  repeat' (first
      | with_reducible rfl
      | (with_reducible first
          | refine (Device.onArrive_core _ _ _ ?_).trans ?_
          | refine (Device.deliver_core _ _ _ _ ?_).trans ?_
          | refine (Device.hear_core _ _ _ ?_).trans ?_
          | refine (Device.fromHost_core _ _ _ ?_).trans ?_
          | refine (Device.begin_core _ _ _ _ _ ?_).trans ?_
          | refine (Device.forMember_core _ _ _ _ ?_).trans ?_) <;> intros | split
      | (with_reducible refine (foldl_core _ _ _ ?_).trans ?_ <;> intros) | simp)

@[simp] theorem Device.doLaggardFail_core (d : Device) (g : Nat) :
    (Device.doLaggardFail d g).core = d.core := by
  unfold Device.doLaggardFail
  try dsimp only
  repeat' (first | with_reducible rfl | split | (with_reducible refine (foldl_core _ _ _ ?_).trans ?_ <;> intros) | simp)

@[simp] theorem Device.handRecord_core (d : Device) (slot f plan : Nat) (p : PlanE) (b : Nat) (bs : List Byte) (last : Bool) :
    (Device.handRecord d slot f plan p b bs last).core = d.core := by
  simp [Device.handRecord]

@[simp] theorem Device.handFoster_core (d : Device) (slot plan : Nat) (r : ShearReq) (p : PlanE) (b x : Nat) :
    (Device.handFoster d slot plan r p b x).core = d.core := by
  unfold Device.handFoster
  try dsimp only
  repeat' (first | with_reducible rfl | split | (with_reducible refine (foldl_core _ _ _ ?_).trans ?_ <;> intros) | simp)

@[simp] theorem Device.writeUpdated_core (d : Device) (r : ShearReq) (b0 j : Nat) (new : StateBlock) :
    (Device.writeUpdated d r b0 j new).core = d.core := by
  unfold Device.writeUpdated
  try dsimp only
  repeat' (first | with_reducible rfl | split | (with_reducible refine (foldl_core _ _ _ ?_).trans ?_ <;> intros) | simp)

@[simp] theorem Device.handBlock_core (d : Device) (slot plan : Nat) (r : ShearReq) (p : PlanE) (b0 i : Nat) (last : Bool) :
    (Device.handBlock d slot plan r p b0 i last).core = d.core := by
  unfold Device.handBlock
  try dsimp only
  repeat' (first | with_reducible rfl | split | (with_reducible refine (foldl_core _ _ _ ?_).trans ?_ <;> intros) | simp)

@[simp] theorem Device.endLinkShear_core (d : Device) (r : ShearReq) (done : Nat) :
    (Device.endLinkShear d r done).core = d.core := by
  unfold Device.endLinkShear
  split <;> simp

@[simp] theorem Device.doLinkShears_core (d : Device) (k plan j : Nat) :
    (Device.doLinkShears d k plan j).core = d.core := by
  unfold Device.doLinkShears
  try dsimp only
  repeat' (first | with_reducible rfl | split | (with_reducible refine (foldl_core _ _ _ ?_).trans ?_ <;> intros) | simp)

/-! ## HostRing -/

@[simp] theorem Device.stopFetch_core (d : Device) (n : Nat) :
    (Device.stopFetch d n).core = d.core := by
  unfold Device.stopFetch
  try dsimp only
  repeat' (first | with_reducible rfl | split | (with_reducible refine (foldl_core _ _ _ ?_).trans ?_ <;> intros) | simp)

@[simp] theorem Device.haltOne_core (d : Device) (n cause : Nat) :
    (Device.haltOne d n cause).core = d.core := by
  unfold Device.haltOne
  try dsimp only
  repeat' (first | with_reducible rfl | split | (with_reducible refine (foldl_core _ _ _ ?_).trans ?_ <;> intros) | simp)

@[simp] theorem Device.haltRing_core (d : Device) (n cause : Nat) :
    (Device.haltRing d n cause).core = d.core := by
  unfold Device.haltRing
  try dsimp only
  repeat' (first | with_reducible rfl | split | (with_reducible refine (foldl_core _ _ _ ?_).trans ?_ <;> intros) | simp)

@[simp] theorem Device.enableRing_core (d : Device) (n owner size link : Nat) :
    (Device.enableRing d n owner size link).core = d.core := by
  unfold Device.enableRing
  try dsimp only
  repeat' (first | with_reducible rfl | split | (with_reducible refine (foldl_core _ _ _ ?_).trans ?_ <;> intros) | simp)

@[simp] theorem Device.disableRing_core (d : Device) (n : Nat) :
    (Device.disableRing d n).core = d.core := by
  unfold Device.disableRing
  try dsimp only
  repeat' (first | with_reducible rfl | split | (with_reducible refine (foldl_core _ _ _ ?_).trans ?_ <;> intros) | simp)

@[simp] theorem Device.writeRingCfg_core (d : Device) (fn n value : Nat) :
    (Device.writeRingCfg d fn n value).core = d.core := by
  unfold Device.writeRingCfg
  try dsimp only
  repeat' (first | with_reducible rfl | split | (with_reducible refine (foldl_core _ _ _ ?_).trans ?_ <;> intros) | simp)

@[simp] theorem Device.writeRingBase_core (d : Device) (fn n word value : Nat) :
    (Device.writeRingBase d fn n word value).core = d.core := by
  unfold Device.writeRingBase
  try dsimp only
  repeat' (first | with_reducible rfl | split | (with_reducible refine (foldl_core _ _ _ ?_).trans ?_ <;> intros) | simp)

@[simp] theorem Device.doRingEnable_core (d : Device) (fn n value : Nat) :
    (Device.doRingEnable d fn n value).core = d.core := by
  simp [Device.doRingEnable]

@[simp] theorem Device.doRingDisable_core (d : Device) (fn n value : Nat) :
    (Device.doRingDisable d fn n value).core = d.core := by
  simp [Device.doRingDisable]

@[simp] theorem Device.sqTail_core (d : Device) (n value : Nat) :
    (Device.sqTail d n value).core = d.core := by
  unfold Device.sqTail
  try dsimp only
  repeat' (first | with_reducible rfl | split | (with_reducible refine (foldl_core _ _ _ ?_).trans ?_ <;> intros) | simp)

@[simp] theorem Device.doSqDb_core (d : Device) (fn n width value : Nat) :
    (Device.doSqDb d fn n width value).core = d.core := by
  unfold Device.doSqDb
  try dsimp only
  repeat' (first | with_reducible rfl | split | (with_reducible refine (foldl_core _ _ _ ?_).trans ?_ <;> intros) | simp)

@[simp] theorem Device.ringHeld_core (d : Device) (f : Nat) :
    (Device.ringHeld d f).core = d.core := by
  unfold Device.ringHeld
  try dsimp only
  repeat' (first | with_reducible rfl | split | (with_reducible refine (foldl_core _ _ _ ?_).trans ?_ <;> intros) | simp)

@[simp] theorem Device.doCqDb_core (d : Device) (fn n width value : Nat) :
    (Device.doCqDb d fn n width value).core = d.core := by
  unfold Device.doCqDb
  try dsimp only
  repeat' (first | with_reducible rfl | split | (with_reducible refine (foldl_core _ _ _ ?_).trans ?_ <;> intros) | simp)

@[simp] theorem Device.doFetchDesc_core (d : Device) (sq : Nat) :
    (Device.doFetchDesc d sq).core = d.core := by
  unfold Device.doFetchDesc
  try dsimp only
  repeat' (first | with_reducible rfl | split | (with_reducible refine (foldl_core _ _ _ ?_).trans ?_ <;> intros) | simp)

@[simp] theorem Device.landFetch_core (d : Device) (sq : Nat) (data : HostRead) :
    (Device.landFetch d sq data).core = d.core := by
  unfold Device.landFetch
  try dsimp only
  repeat' (first | with_reducible rfl | split | (with_reducible refine (foldl_core _ _ _ ?_).trans ?_ <;> intros) | simp)

@[simp] theorem Device.begin_core (d : Device) (sq idx op : Nat) (g : Desc → Device) (hg : ∀ x, (g x).core = d.core) :
    (Device.begin d sq idx op g).core = d.core := by
  unfold Device.begin
  try dsimp only
  repeat' (first | with_reducible rfl | split | (with_reducible refine (foldl_core _ _ _ ?_).trans ?_ <;> intros) | simp [hg])

@[simp] theorem Device.markStarted_core (d : Device) (sq idx : Nat) :
    (Device.markStarted d sq idx).core = d.core := by
  simp [Device.markStarted]

@[simp] theorem Device.landPieces_core (d : Device) (f : Nat) (bs : List Byte) (x0 : Nat) (l : List (Nat × Nat)) (k : Nat) :
    (Device.landPieces d f bs x0 l k).1.core = d.core := by
  induction l generalizing d k with
  | nil => rfl
  | cons p l ih =>
    unfold Device.landPieces
    split
    · rfl
    · rw [ih]; simp

@[simp] theorem Device.undefine_core (d : Device) (f x n : Nat) :
    (Device.undefine d f x n).core = d.core := by
  simp [Device.undefine]

@[simp] theorem Device.dmaOut_core (d : Device) (f : Nat) (m : DmaD) (errs : List (Nat × Ecc)) :
    (Device.dmaOut d f m errs).1.core = d.core := by
  unfold Device.dmaOut
  try dsimp only
  repeat' (first | with_reducible rfl | split | (with_reducible refine (foldl_core _ _ _ ?_).trans ?_ <;> intros) | simp)

@[simp] theorem Device.dmaIn_core (d : Device) (f : Nat) (m : DmaD) (r : HostReq) (data : HostRead) :
    (Device.dmaIn d f m r data).1.core = d.core := by
  unfold Device.dmaIn
  extract_lets had
  cases data with
  | abort => simp
  | timeout => simp
  | data bs =>
    have h := Device.landPieces_core d f bs (m.loc + r.off) (windowsOf (m.loc + r.off) bs.length) 0
    dsimp only
    split <;> rename_i he <;> rw [he] at h
    · exact h
    · split <;> simpa using h

@[simp] theorem Device.doDma_core (d : Device) (sq idx : Nat) (errs : List (Nat × Ecc)) :
    (Device.doDma d sq idx errs).core = d.core := by
  unfold Device.doDma
  refine Device.begin_core _ _ _ _ _ ?_
  intro x
  extract_lets m f st
  split
  · simp
  split
  · rfl
  split
  · have h := Device.dmaOut_core d f m errs
    split
    rename_i he
    rw [he] at h
    simp only [Device.complete_core]
    split <;> simpa using h
  · simp

@[simp] theorem Device.landDma_core (d : Device) (sq idx : Nat) (r : HostReq) (data : HostRead) :
    (Device.landDma d sq idx r data).core = d.core := by
  unfold Device.landDma
  split
  · rfl
  extract_lets m f
  have h := Device.dmaIn_core d f m r data
  split <;> rename_i he <;> rw [he] at h
  · exact h
  · simp only [Device.complete_core]
    split <;> simpa using h

@[simp] theorem Device.doTallyAddDesc_core (d : Device) (sq idx : Nat) :
    (Device.doTallyAddDesc d sq idx).core = d.core := by
  unfold Device.doTallyAddDesc
  try dsimp only
  repeat' (first
      | with_reducible rfl | split
      | (with_reducible refine (foldl_core _ _ _ ?_).trans ?_ <;> intros)
      | (with_reducible refine (Device.begin_core (hg := ?_) ..).trans ?_ <;> intros) | simp)

@[simp] theorem Device.doWait_core (d : Device) (sq idx : Nat) :
    (Device.doWait d sq idx).core = d.core := by
  unfold Device.doWait
  try dsimp only
  repeat' (first | with_reducible rfl | split | (with_reducible refine (foldl_core _ _ _ ?_).trans ?_ <;> intros) | simp)

@[simp] theorem Device.doWaitTimeout_core (d : Device) (sq idx : Nat) :
    (Device.doWaitTimeout d sq idx).core = d.core := by
  unfold Device.doWaitTimeout
  try dsimp only
  repeat' (first | with_reducible rfl | split | (with_reducible refine (foldl_core _ _ _ ?_).trans ?_ <;> intros) | simp)

/-! ## Drives -/

@[simp] theorem Device.writeEntry_core (d : Device) (f s : Nat) (bs : List Byte) :
    (Device.writeEntry d f s bs).core = d.core := by
  unfold Device.writeEntry
  split <;> simp

@[simp] theorem Device.bookMismatch_core (d : Device) (f s leaf number : Nat) :
    (Device.bookMismatch d f s leaf number).core = d.core := by
  simp [Device.bookMismatch]

@[simp] theorem Device.doStepDesc_core (d : Device) (sq idx : Nat) :
    (Device.doStepDesc d sq idx).core = d.core := by
  unfold Device.doStepDesc
  try dsimp only
  repeat' (first
      | with_reducible rfl | split
      | (with_reducible refine (foldl_core _ _ _ ?_).trans ?_ <;> intros)
      | (with_reducible refine (Device.begin_core (hg := ?_) ..).trans ?_ <;> intros) | simp)

@[simp] theorem Device.endBatch_core (d : Device) (f s k : Nat) (m : DmaD) (st : Nat) :
    (Device.endBatch d f s k m st).core = d.core := by
  unfold Device.endBatch
  try dsimp only
  repeat' (first | with_reducible rfl | split | (with_reducible refine (foldl_core _ _ _ ?_).trans ?_ <;> intros) | simp)

@[simp] theorem Device.startBatch_core (d : Device) (f s k : Nat) :
    (Device.startBatch d f s k).core = d.core := by
  unfold Device.startBatch
  try dsimp only
  repeat' (first | with_reducible rfl | split | (with_reducible refine (foldl_core _ _ _ ?_).trans ?_ <;> intros) | simp)

@[simp] theorem Device.startBatches_core (d : Device) (f s : Nat) :
    (Device.startBatches d f s).core = d.core := by
  unfold Device.startBatches
  try dsimp only
  repeat' (first | with_reducible rfl | split | (with_reducible refine (foldl_core _ _ _ ?_).trans ?_ <;> intros) | simp)

@[simp] theorem Device.landBatch_core (d : Device) (f s k : Nat) (r : HostReq) (data : HostRead) :
    (Device.landBatch d f s k r data).core = d.core := by
  unfold Device.landBatch
  split
  · have h := Device.dmaIn_core d f ‹_› r data
    split <;> rename_i he <;> rw [he] at h
    · exact h
    · simpa using h
  · simp

@[simp] theorem Device.landMember_core (d : Device) (rank tag : Nat) (data : HostRead) :
    (Device.landMember d rank tag data).core = d.core := by
  unfold Device.landMember
  try dsimp only
  repeat' (first | with_reducible rfl | split | (with_reducible refine (foldl_core _ _ _ ?_).trans ?_ <;> intros) | simp)

@[simp] theorem Device.landRead_core (d : Device) (r : HostReq) (data : HostRead) :
    (Device.landRead d r data).core = d.core := by
  unfold Device.landRead
  try dsimp only
  repeat' (first | with_reducible rfl | split | (with_reducible refine (foldl_core _ _ _ ?_).trans ?_ <;> intros) | simp)

@[simp] theorem Device.readDone_core (d : Device) (tag : Nat) (data : HostRead) :
    (Device.readDone d tag data).core = d.core := by
  unfold Device.readDone
  try dsimp only
  repeat' (first | with_reducible rfl | split | (with_reducible refine (foldl_core _ _ _ ?_).trans ?_ <;> intros) | simp)

@[simp] theorem Device.doHostRead_core (d : Device) (tag : Nat) (data : HostRead) :
    (Device.doHostRead d tag data).core = d.core := by
  unfold Device.doHostRead
  try dsimp only
  repeat' (first | with_reducible rfl | split | (with_reducible refine (foldl_core _ _ _ ?_).trans ?_ <;> intros) | simp)

@[simp] theorem Device.doStepPrepare_core (d : Device) (sq idx : Nat) (r : StepReads) :
    (Device.doStepPrepare d sq idx r).core = d.core := by
  unfold Device.doStepPrepare
  try dsimp only
  repeat' (first | with_reducible rfl | split | (with_reducible refine (foldl_core _ _ _ ?_).trans ?_ <;> intros) | simp)

@[simp] theorem Device.onStream_core (d : Device) (s n : Nat) (g : Seqr → Seqr) :
    (Device.onStream d s n g).core = d.core := by
  simp [Device.onStream]

@[simp] theorem Device.passStep_core (d : Device) (f s n : Nat) (v : Drive) (r : StepRec) :
    (Device.passStep d f s n v r).core = d.core := by
  unfold Device.passStep
  try dsimp only
  repeat' (first | with_reducible rfl | split | (with_reducible refine (foldl_core _ _ _ ?_).trans ?_ <;> intros) | simp)

@[simp] theorem Device.openDue_core (d : Device) (f s : Nat) :
    (Device.openDue d f s).core = d.core := by
  unfold Device.openDue
  try dsimp only
  repeat' (first | with_reducible rfl | split | (with_reducible refine (foldl_core _ _ _ ?_).trans ?_ <;> intros) | simp)

@[simp] theorem Device.openStep_core (d : Device) (f s : Nat) (r : StepRec) (m : Bool × Bool) :
    (Device.openStep d f s r m).core = d.core := by
  unfold Device.openStep
  try dsimp only
  repeat' (first | with_reducible rfl | split | (with_reducible refine (foldl_core _ _ _ ?_).trans ?_ <;> intros) | simp)

@[simp] theorem Device.doStepOpen_core (d : Device) (f s : Nat) :
    (Device.doStepOpen d f s).core = d.core := by
  unfold Device.doStepOpen
  try dsimp only
  repeat' (first | with_reducible rfl | split | (with_reducible refine (foldl_core _ _ _ ?_).trans ?_ <;> intros) | simp)

@[simp] theorem Device.startDrain_core (d : Device) (f : Nat) (v : Drive) (step : Nat) :
    (Device.startDrain d f v step).core = d.core := by
  simp [Device.startDrain]

@[simp] theorem Device.ownCommit_core (d : Device) (f s k : Nat) :
    (Device.ownCommit d f s k).core = d.core := by
  unfold Device.ownCommit
  try dsimp only
  repeat' (first | with_reducible rfl | split | (with_reducible refine (foldl_core _ _ _ ?_).trans ?_ <;> intros) | simp)

@[simp] theorem Device.sendDone_core (d : Device) (k : Nat) :
    (Device.sendDone d k).core = d.core := by
  unfold Device.sendDone
  split <;> simp

@[simp] theorem Device.writeRecords_core (d : Device) (f s : Nat) (r : StepRec) :
    (Device.writeRecords d f s r).core = d.core := by
  unfold Device.writeRecords
  try dsimp only
  repeat' (first | with_reducible rfl | split | (with_reducible refine (foldl_core _ _ _ ?_).trans ?_ <;> intros) | simp)

@[simp] theorem Device.afterClose_core (d : Device) (f s : Nat) (r : StepRec) :
    (Device.afterClose d f s r).core = d.core := by
  unfold Device.afterClose
  extract_lets k high c1 d1 d2 c2 d3 c3 d4 c5 d5
  have h1 : d1.core = d.core := by simp only [d1, c1]; split <;> simp
  have h2 : d2.core = d1.core := by simp only [d2]; repeat' (first | with_reducible rfl | split | simp)
  have h3 : d3.core = d2.core := by simp only [d3, c2]; split <;> simp
  have h4 : d4.core = d3.core := by simp only [d4, c3]; split <;> simp
  have h5 : d5.core = d4.core := by simp [d5, c5]
  split <;> simp [h1, h2, h3, h4, h5, -Device.core_upd]

@[simp] theorem Device.closeStep_core (d : Device) (f s : Nat) :
    (Device.closeStep d f s).core = d.core := by
  unfold Device.closeStep
  try dsimp only
  repeat' (first | with_reducible rfl | split | (with_reducible refine (foldl_core _ _ _ ?_).trans ?_ <;> intros) | simp)

@[simp] theorem Device.doStepClose_core (d : Device) (f s : Nat) (err : Option (Nat × Ecc)) :
    (Device.doStepClose d f s err).core = d.core := by
  unfold Device.doStepClose
  try dsimp only
  repeat' (first | with_reducible rfl | split | (with_reducible refine (foldl_core _ _ _ ?_).trans ?_ <;> intros) | simp)

@[simp] theorem Device.stopTrace_core (d : Device) :
    (Device.stopTrace d).core = d.core := by
  unfold Device.stopTrace
  split <;> simp

@[simp] theorem Device.sayLoaded_core (d : Device) :
    (Device.sayLoaded d).core = d.core := by
  unfold Device.sayLoaded
  try dsimp only
  repeat' (first | with_reducible rfl | split | (with_reducible refine (foldl_core _ _ _ ?_).trans ?_ <;> intros) | simp)

@[simp] theorem Device.seat_core (d : Device) (f s : Nat) (v : Drive) (r : StepRec) (ms : List DmaD) :
    (Device.seat d f s v r ms).core = d.core := by
  unfold Device.seat
  extract_lets cfg w x d1 d2 hold others c1 d3 y d4 d5
  have h2 : d2.core = d.core := by simp only [d2, d1]; split <;> simp
  have h3 : d3.core = d2.core := by simp only [d3, c1]; split <;> simp
  have h4 : d4.core = d3.core := by simp [d4]
  have h5 : d5.core = d4.core := by simp only [d5]; split <;> simp
  split <;> simp [h2, h3, h4, h5, -Device.core_upd]

@[simp] theorem Device.install_core (d : Device) (f s : Nat) (v : Drive) (r : StepRec) (ms : List DmaD) :
    (Device.install d f s v r ms).core = d.core := by
  unfold Device.install
  dsimp only
  split <;> simp

@[simp] theorem Device.doLaunch_core (d : Device) (sq idx : Nat) (block : HostRead) (reads : StepReads) :
    (Device.doLaunch d sq idx block reads).core = d.core := by
  unfold Device.doLaunch
  try dsimp only
  repeat' (first
      | with_reducible rfl | split
      | (with_reducible refine (foldl_core _ _ _ ?_).trans ?_ <;> intros)
      | (with_reducible refine (Device.begin_core (hg := ?_) ..).trans ?_ <;> intros) | simp)

@[simp] theorem Device.doRun_core (d : Device) (sq idx : Nat) :
    (Device.doRun d sq idx).core = d.core := by
  unfold Device.doRun
  try dsimp only
  repeat' (first
      | with_reducible rfl | split
      | (with_reducible refine (foldl_core _ _ _ ?_).trans ?_ <;> intros)
      | (with_reducible refine (Device.begin_core (hg := ?_) ..).trans ?_ <;> intros) | simp)

@[simp] theorem Device.finishSwitch_core (d : Device) (f s : Nat) :
    (Device.finishSwitch d f s).core = d.core := by
  unfold Device.finishSwitch
  try dsimp only
  repeat' (first | with_reducible rfl | split | (with_reducible refine (foldl_core _ _ _ ?_).trans ?_ <;> intros) | simp)

@[simp] theorem Device.releaseSlot_core (d : Device) (f s : Nat) :
    (Device.releaseSlot d f s).core = d.core := by
  unfold Device.releaseSlot
  try dsimp only
  repeat' (first | with_reducible rfl | split | (with_reducible refine (foldl_core _ _ _ ?_).trans ?_ <;> intros) | simp)

@[simp] theorem Device.endDrive_core (d : Device) (f s : Nat) :
    (Device.endDrive d f s).core = d.core := by
  unfold Device.endDrive
  try dsimp only
  repeat' (first | with_reducible rfl | split | (with_reducible refine (foldl_core _ _ _ ?_).trans ?_ <;> intros) | simp)

@[simp] theorem Device.doEndDesc_core (d : Device) (sq idx : Nat) :
    (Device.doEndDesc d sq idx).core = d.core := by
  unfold Device.doEndDesc
  try dsimp only
  repeat' (first
      | with_reducible rfl | split
      | (with_reducible refine (foldl_core _ _ _ ?_).trans ?_ <;> intros)
      | (with_reducible refine (Device.begin_core (hg := ?_) ..).trans ?_ <;> intros) | simp)

@[simp] theorem Device.doPlan_core (d : Device) (sq idx : Nat) :
    (Device.doPlan d sq idx).core = d.core := by
  unfold Device.doPlan
  try dsimp only
  repeat' (first
      | with_reducible rfl
      | (with_reducible first
          | refine (Device.onArrive_core _ _ _ ?_).trans ?_
          | refine (Device.deliver_core _ _ _ _ ?_).trans ?_
          | refine (Device.hear_core _ _ _ ?_).trans ?_
          | refine (Device.fromHost_core _ _ _ ?_).trans ?_
          | refine (Device.begin_core _ _ _ _ _ ?_).trans ?_
          | refine (Device.forMember_core _ _ _ _ ?_).trans ?_) <;> intros | split
      | (with_reducible refine (foldl_core _ _ _ ?_).trans ?_ <;> intros) | simp)

@[simp] theorem Device.setGroup_core (d : Device) (g : Nat) (e : Option (Nat × List Nat × Bool × Nat × Nat)) :
    (Device.setGroup d g e).core = d.core := by
  simp [Device.setGroup]

@[simp] theorem Device.tellMembers_core (d : Device) (g : Nat → Option FlockMsg) :
    (Device.tellMembers d g).core = d.core := by
  unfold Device.tellMembers
  try dsimp only
  repeat' (first | with_reducible rfl | split | (with_reducible refine (foldl_core _ _ _ ?_).trans ?_ <;> intros) | simp)

@[simp] theorem Device.doGroupOpen_core (d : Device) (sq idx : Nat) :
    (Device.doGroupOpen d sq idx).core = d.core := by
  unfold Device.doGroupOpen
  try dsimp only
  repeat' (first
      | with_reducible rfl | split
      | (with_reducible refine (foldl_core _ _ _ ?_).trans ?_ <;> intros)
      | (with_reducible refine (Device.begin_core (hg := ?_) ..).trans ?_ <;> intros) | simp)

@[simp] theorem Device.doGroupClose_core (d : Device) (sq idx : Nat) :
    (Device.doGroupClose d sq idx).core = d.core := by
  unfold Device.doGroupClose
  try dsimp only
  repeat' (first
      | with_reducible rfl | split
      | (with_reducible refine (foldl_core _ _ _ ?_).trans ?_ <;> intros)
      | (with_reducible refine (Device.begin_core (hg := ?_) ..).trans ?_ <;> intros) | simp)

/-! ## Flock -/

@[simp] theorem Device.extendBy_core (d : Device) (i : Nat) (m : List Byte) :
    (Device.extendBy d i m).core = d.core := by
  simp [Device.extendBy]

@[simp] theorem Device.measure_core (d : Device) (i : Nat) (content : List Nat) :
    (Device.measure d i content).core = d.core := by
  simp [Device.measure]

@[simp] theorem Device.ownRoutes_core (d : Device) :
    (Device.ownRoutes d).core = d.core := by
  unfold Device.ownRoutes
  try dsimp only
  repeat' (first | with_reducible rfl | split | (with_reducible refine (foldl_core _ _ _ ?_).trans ?_ <;> intros) | simp)

@[simp] theorem Device.writeRoutes_core (d : Device) :
    (Device.writeRoutes d).core = d.core := by
  unfold Device.writeRoutes
  try dsimp only
  repeat' (first | with_reducible rfl | split | (with_reducible refine (foldl_core _ _ _ ?_).trans ?_ <;> intros) | simp)

@[simp] theorem Device.takeState_core (d : Device) (standby : Bool) (foster ward : Option Nat) :
    (Device.takeState d standby foster ward).core = d.core := by
  simp [Device.takeState]

@[simp] theorem Device.writeLeaves_core (d : Device) :
    (Device.writeLeaves d).core = d.core := by
  simp [Device.writeLeaves]

@[simp] theorem Device.takeFolds_core (d : Device) (rank n : Nat) :
    (Device.takeFolds d rank n).core = d.core := by
  unfold Device.takeFolds
  try dsimp only
  repeat' (first | with_reducible rfl | split | (with_reducible refine (foldl_core _ _ _ ?_).trans ?_ <;> intros) | simp)

@[simp] theorem Device.tellFolds_core (d : Device) (n : Nat) :
    (Device.tellFolds d n).core = d.core := by
  unfold Device.tellFolds
  try dsimp only
  repeat' (first | with_reducible rfl | split | (with_reducible refine (foldl_core _ _ _ ?_).trans ?_ <;> intros) | simp)

@[simp] theorem Device.formFailed_core (d : Device) (reason : Nat) :
    (Device.formFailed d reason).core = d.core := by
  simp [Device.formFailed]

@[simp] theorem Device.clearFlock_core (d : Device) :
    (Device.clearFlock d).core = d.core := by
  simp [Device.clearFlock]

@[simp] theorem Device.formWith_core (d : Device) (ok : List MemberInfo) (actives : List Nat) :
    (Device.formWith d ok actives).core = d.core := by
  unfold Device.formWith
  try dsimp only
  repeat' (first | with_reducible rfl | split | (with_reducible refine (foldl_core _ _ _ ?_).trans ?_ <;> intros) | simp)

@[simp] theorem Device.form_core (d : Device) (ms : List MemberInfo) :
    (Device.form d ms).core = d.core := by
  unfold Device.form
  try dsimp only
  repeat' (first | with_reducible rfl | split | (with_reducible refine (foldl_core _ _ _ ?_).trans ?_ <;> intros) | simp)

@[simp] theorem Device.doFlockForm_core (d : Device) (fn : Nat) (ms : List MemberInfo) :
    (Device.doFlockForm d fn ms).core = d.core := by
  unfold Device.doFlockForm
  try dsimp only
  repeat' (first | with_reducible rfl | split | (with_reducible refine (foldl_core _ _ _ ?_).trans ?_ <;> intros) | simp)

@[simp] theorem Device.doFormTimeout_core (d : Device) :
    (Device.doFormTimeout d).core = d.core := by
  unfold Device.doFormTimeout
  split <;> simp

@[simp] theorem Device.leaveFlock_core (d : Device) :
    (Device.leaveFlock d).core = d.core := by
  simp [Device.leaveFlock]

@[simp] theorem Device.doDissolve_core (d : Device) (fn : Nat) (resident : List Nat) :
    (Device.doDissolve d fn resident).core = d.core := by
  unfold Device.doDissolve
  try dsimp only
  repeat' (first | with_reducible rfl | split | (with_reducible refine (foldl_core _ _ _ ?_).trans ?_ <;> intros) | simp)

@[simp] theorem Device.doRouteUpdate_core (d : Device) (rank port : Nat) :
    (Device.doRouteUpdate d rank port).core = d.core := by
  unfold Device.doRouteUpdate
  split <;> simp

@[simp] theorem Device.doReadmit_core (d : Device) (fn rank : Nat) (m : MemberInfo) :
    (Device.doReadmit d fn rank m).core = d.core := by
  unfold Device.doReadmit
  try dsimp only
  repeat' (first | with_reducible rfl | split | (with_reducible refine (foldl_core _ _ _ ?_).trans ?_ <;> intros) | simp)

@[simp] theorem Device.doHeartbeat_core (d : Device) (v : Via) (rank : Nat) :
    (Device.doHeartbeat d v rank).core = d.core := by
  unfold Device.doHeartbeat
  try dsimp only
  repeat' (first
      | with_reducible rfl
      | (with_reducible first
          | refine (Device.onArrive_core _ _ _ ?_).trans ?_
          | refine (Device.deliver_core _ _ _ _ ?_).trans ?_
          | refine (Device.hear_core _ _ _ ?_).trans ?_
          | refine (Device.fromHost_core _ _ _ ?_).trans ?_
          | refine (Device.begin_core _ _ _ _ _ ?_).trans ?_
          | refine (Device.forMember_core _ _ _ _ ?_).trans ?_) <;> intros | split
      | (with_reducible refine (foldl_core _ _ _ ?_).trans ?_ <;> intros) | simp)

/-! ## Recovery -/

@[simp] theorem Device.tellWard_core (d : Device) (ward : Nat) (ok : Bool) :
    (Device.tellWard d ward ok).core = d.core := by
  simp [Device.tellWard]

@[simp] theorem Device.wardDone_core (d : Device) (was : Bool) (k : Nat) :
    (Device.wardDone d was k).core = d.core := by
  unfold Device.wardDone
  try dsimp only
  repeat' (first | with_reducible rfl | split | (with_reducible refine (foldl_core _ _ _ ?_).trans ?_ <;> intros) | simp)

@[simp] theorem Device.landFoster_core (d : Device) (p : Packet) :
    (Device.landFoster d p).core = d.core := by
  unfold Device.landFoster
  try dsimp only
  repeat' (first | with_reducible rfl | split | (with_reducible refine (foldl_core _ _ _ ?_).trans ?_ <;> intros) | simp)

@[simp] theorem Device.holdCredits_core (d : Device) (k : Nat) (p : Packet) :
    (Device.holdCredits d k p).core = d.core := by
  unfold Device.holdCredits
  try dsimp only
  repeat' (first | with_reducible rfl | split | (with_reducible refine (foldl_core _ _ _ ?_).trans ?_ <;> intros) | simp)

@[simp] theorem Device.takeFoster_core (d : Device) (p : Packet) :
    (Device.takeFoster d p).core = d.core := by
  unfold Device.takeFoster
  try dsimp only
  repeat' (first | with_reducible rfl | split | (with_reducible refine (foldl_core _ _ _ ?_).trans ?_ <;> intros) | simp)

@[simp] theorem Device.fosterComes_core (d : Device) (k : Nat) (p : Packet) :
    (Device.fosterComes d k p).core = d.core := by
  unfold Device.fosterComes
  try dsimp only
  repeat' (first
      | with_reducible rfl
      | (with_reducible first
          | refine (Device.onArrive_core _ _ _ ?_).trans ?_
          | refine (Device.deliver_core _ _ _ _ ?_).trans ?_
          | refine (Device.hear_core _ _ _ ?_).trans ?_
          | refine (Device.fromHost_core _ _ _ ?_).trans ?_
          | refine (Device.begin_core _ _ _ _ _ ?_).trans ?_
          | refine (Device.forMember_core _ _ _ _ ?_).trans ?_) <;> intros | split
      | (with_reducible refine (foldl_core _ _ _ ?_).trans ?_ <;> intros) | simp)

@[simp] theorem Device.doFoster_core (d : Device) (k : Nat) (p : Packet) :
    (Device.doFoster d k p).core = d.core := by
  unfold Device.doFoster
  try dsimp only
  repeat' (first | with_reducible rfl | split | (with_reducible refine (foldl_core _ _ _ ?_).trans ?_ <;> intros) | simp)

@[simp] theorem Device.doFosterEnd_core (d : Device) (k : Nat) (p : Packet) :
    (Device.doFosterEnd d k p).core = d.core := by
  unfold Device.doFosterEnd
  try dsimp only
  repeat' (first | with_reducible rfl | split | (with_reducible refine (foldl_core _ _ _ ?_).trans ?_ <;> intros) | simp)

@[simp] theorem Device.takeWaitingPages_core (k : Nat) (d : Device) : (Device.takeWaitingPages k d).core = d.core := by
  induction k generalizing d with
  | zero => rfl
  | succ k ih =>
    unfold Device.takeWaitingPages
    split
    · rfl
    · split
      · rfl
      · simp [ih]

@[simp] theorem Device.sendPage_core (d : Device) (f t : Nat) (v : Drive) (page : Nat) :
    (Device.sendPage d f t v page).core = d.core := by
  simp [Device.sendPage]

@[simp] theorem Device.doFosterSend_core (d : Device) (f : Nat) :
    (Device.doFosterSend d f).core = d.core := by
  unfold Device.doFosterSend
  try dsimp only
  repeat' (first | with_reducible rfl | split | (with_reducible refine (foldl_core _ _ _ ?_).trans ?_ <;> intros) | simp)

@[simp] theorem Device.tellAll_core (d : Device) (m : Vc0) :
    (Device.tellAll d m).core = d.core := by
  unfold Device.tellAll
  try dsimp only
  repeat' (first | with_reducible rfl | split | (with_reducible refine (foldl_core _ _ _ ?_).trans ?_ <;> intros) | simp)

@[simp] theorem Device.beginRecovery_core (d : Device) (lost layer : Nat) :
    (Device.beginRecovery d lost layer).core = d.core := by
  simp [Device.beginRecovery]

@[simp] theorem Device.issueCommit_core (d : Device) (k : Nat) :
    (Device.issueCommit d k).core = d.core := by
  unfold Device.issueCommit
  try dsimp only
  repeat' (first | with_reducible rfl | split | (with_reducible refine (foldl_core _ _ _ ?_).trans ?_ <;> intros) | simp)

@[simp] theorem Device.doDone_core (d : Device) (v : Via) (rank step : Nat) (reading : Bool) :
    (Device.doDone d v rank step reading).core = d.core := by
  unfold Device.doDone
  try dsimp only
  repeat' (first
      | with_reducible rfl
      | (with_reducible first
          | refine (Device.onArrive_core _ _ _ ?_).trans ?_
          | refine (Device.deliver_core _ _ _ _ ?_).trans ?_
          | refine (Device.hear_core _ _ _ ?_).trans ?_
          | refine (Device.fromHost_core _ _ _ ?_).trans ?_
          | refine (Device.begin_core _ _ _ _ _ ?_).trans ?_
          | refine (Device.forMember_core _ _ _ _ ?_).trans ?_) <;> intros | split
      | (with_reducible refine (foldl_core _ _ _ ?_).trans ?_ <;> intros) | simp)

@[simp] theorem Device.setSlotBit_core (d : Device) (w : Ward) (page : Nat) (v : Bool) :
    (Device.setSlotBit d w page v).core = d.core := by
  simp [Device.setSlotBit]

@[simp] theorem Device.commitWard_core (d : Device) (k : Nat) :
    (Device.commitWard d k).core = d.core := by
  unfold Device.commitWard
  try dsimp only
  repeat' (first | with_reducible rfl | split | (with_reducible refine (foldl_core _ _ _ ?_).trans ?_ <;> intros) | simp)

@[simp] theorem Device.doCommit_core (d : Device) (v : Via) (k : Nat) (snap exp : Bool) :
    (Device.doCommit d v k snap exp).core = d.core := by
  unfold Device.doCommit
  refine Device.hear_core _ _ _ ?_
  intro d
  split
  · rfl
  extract_lets r1 d1 r2 d2 seeded d3 d4 d5
  have h1 : d1.core = d.core := by simp [d1]
  have h2 : d2.core = d1.core := by simp only [d2]; split <;> simp
  have h4 : d4.core = d2.core := by simp [d4, d3]
  split <;> simp [d5, h1, h2, h4, -Device.core_upd]

@[simp] theorem Device.resetDrive_core (d : Device) (f s k0 : Nat) :
    (Device.resetDrive d f s k0).core = d.core := by
  unfold Device.resetDrive
  try dsimp only
  repeat' (first | with_reducible rfl | split | (with_reducible refine (foldl_core _ _ _ ?_).trans ?_ <;> intros) | simp)

@[simp] theorem Device.doAbort_core (d : Device) (v : Via) (k0 : Nat) :
    (Device.doAbort d v k0).core = d.core := by
  unfold Device.doAbort
  try dsimp only
  repeat' (first
      | with_reducible rfl
      | (with_reducible first
          | refine (Device.onArrive_core _ _ _ ?_).trans ?_
          | refine (Device.deliver_core _ _ _ _ ?_).trans ?_
          | refine (Device.hear_core _ _ _ ?_).trans ?_
          | refine (Device.fromHost_core _ _ _ ?_).trans ?_
          | refine (Device.begin_core _ _ _ _ _ ?_).trans ?_
          | refine (Device.forMember_core _ _ _ _ ?_).trans ?_) <;> intros | split
      | (with_reducible refine (foldl_core _ _ _ ?_).trans ?_ <;> intros) | simp)

@[simp] theorem Device.nextLayer_core (d : Device) :
    (Device.nextLayer d).core = d.core := by
  unfold Device.nextLayer
  try dsimp only
  repeat' (first | with_reducible rfl | split | (with_reducible refine (foldl_core _ _ _ ?_).trans ?_ <;> intros) | simp)

@[simp] theorem Device.restart_core (d : Device) :
    (Device.restart d).core = d.core := by
  unfold Device.restart
  try dsimp only
  repeat' (first | with_reducible rfl | split | (with_reducible refine (foldl_core _ _ _ ?_).trans ?_ <;> intros) | simp)

@[simp] theorem Device.loseRank_core (d : Device) (r : Nat) :
    (Device.loseRank d r).core = d.core := by
  simp [Device.loseRank]

@[simp] theorem Device.failure_core (d : Device) (lost : Option Nat) (deeper : Bool) :
    (Device.failure d lost deeper).core = d.core := by
  unfold Device.failure
  try dsimp only
  repeat' (first | with_reducible rfl | split | (with_reducible refine (foldl_core _ _ _ ?_).trans ?_ <;> intros) | simp)

@[simp] theorem Device.loseBell_core (d : Device) :
    (Device.loseBell d).core = d.core := by
  unfold Device.loseBell
  split <;> simp

@[simp] theorem Device.takeFailure_core (d : Device) (rank : Nat) (c : FailCause) :
    (Device.takeFailure d rank c).core = d.core := by
  unfold Device.takeFailure
  try dsimp only
  repeat' (first | with_reducible rfl | split | (with_reducible refine (foldl_core _ _ _ ?_).trans ?_ <;> intros) | simp)

@[simp] theorem Device.doDeviceFailure_core (d : Device) (v : Via) (rank : Nat) (c : FailCause) :
    (Device.doDeviceFailure d v rank c).core = d.core := by
  unfold Device.doDeviceFailure
  try dsimp only
  repeat' (first | with_reducible rfl | split | (with_reducible refine (foldl_core _ _ _ ?_).trans ?_ <;> intros) | simp)

@[simp] theorem Device.doMemberLost_core (d : Device) (rank : Nat) :
    (Device.doMemberLost d rank).core = d.core := by
  unfold Device.doMemberLost
  try dsimp only
  repeat' (first | with_reducible rfl | split | (with_reducible refine (foldl_core _ _ _ ?_).trans ?_ <;> intros) | simp)

@[simp] theorem Device.loadFails_core (d : Device) :
    (Device.loadFails d).core = d.core := by
  unfold Device.loadFails
  try dsimp only
  repeat' (first | with_reducible rfl | split | (with_reducible refine (foldl_core _ _ _ ?_).trans ?_ <;> intros) | simp)

@[simp] theorem Device.copyWard_core (d : Device) (w : Ward) :
    (Device.copyWard d w).core = d.core := by
  unfold Device.copyWard
  try dsimp only
  repeat' (first | with_reducible rfl | split | (with_reducible refine (foldl_core _ _ _ ?_).trans ?_ <;> intros) | simp)

@[simp] theorem Device.beginLoad_core (d : Device) (layer lost k0 : Nat) :
    (Device.beginLoad d layer lost k0).core = d.core := by
  unfold Device.beginLoad
  try dsimp only
  repeat' (first | with_reducible rfl | split | (with_reducible refine (foldl_core _ _ _ ?_).trans ?_ <;> intros) | simp)

@[simp] theorem Device.expectLoad_core (d : Device) :
    (Device.expectLoad d).core = d.core := by
  unfold Device.expectLoad
  try dsimp only
  repeat' (first | with_reducible rfl | split | (with_reducible refine (foldl_core _ _ _ ?_).trans ?_ <;> intros) | simp)

@[simp] theorem Device.pullOwn_core (d : Device) (all : Bool) (k0 : Nat) :
    (Device.pullOwn d all k0).core = d.core := by
  unfold Device.pullOwn
  try dsimp only
  repeat' (first | with_reducible rfl | split | (with_reducible refine (foldl_core _ _ _ ?_).trans ?_ <;> intros) | simp)

@[simp] theorem Device.loadFoster_core (d : Device) (a : Bool) (lost k0 src : Nat) :
    (Device.loadFoster d a lost k0 src).core = d.core := by
  unfold Device.loadFoster
  try dsimp only
  repeat' (first | with_reducible rfl | split | (with_reducible refine (foldl_core _ _ _ ?_).trans ?_ <;> intros) | simp)

@[simp] theorem Device.loadImage_core (d : Device) (a : Bool) (lost k0 : Nat) :
    (Device.loadImage d a lost k0).core = d.core := by
  unfold Device.loadImage
  try dsimp only
  repeat' (first | with_reducible rfl | split | (with_reducible refine (foldl_core _ _ _ ?_).trans ?_ <;> intros) | simp)

@[simp] theorem Device.takeLoad_core (d : Device) (layer lost k0 src : Nat) :
    (Device.takeLoad d layer lost k0 src).core = d.core := by
  unfold Device.takeLoad
  try dsimp only
  repeat' (first | with_reducible rfl | split | (with_reducible refine (foldl_core _ _ _ ?_).trans ?_ <;> intros) | simp)

@[simp] theorem Device.deepen_core (d : Device) (gone : Bool) (im : List (List Nat)) (k : Nat) :
    (Device.deepen d gone im k).core = d.core := by
  unfold Device.deepen
  try dsimp only
  repeat' (first | with_reducible rfl | split | (with_reducible refine (foldl_core _ _ _ ?_).trans ?_ <;> intros) | simp)

@[simp] theorem Device.doAssignment_core (d : Device) (lost : Nat) (im : List (List Nat)) (k : Nat) :
    (Device.doAssignment d lost im k).core = d.core := by
  unfold Device.doAssignment
  try dsimp only
  repeat' (first | with_reducible rfl | split | (with_reducible refine (foldl_core _ _ _ ?_).trans ?_ <;> intros) | simp)

@[simp] theorem Device.landLoad_core (d : Device) (page off : Nat) (data : List Byte) :
    (Device.landLoad d page off data).core = d.core := by
  unfold Device.landLoad
  try dsimp only
  repeat' (first | with_reducible rfl | split | (with_reducible refine (foldl_core _ _ _ ?_).trans ?_ <;> intros) | simp)

@[simp] theorem Device.doLoadPacket_core (d : Device) (k : Nat) (p : Packet) :
    (Device.doLoadPacket d k p).core = d.core := by
  unfold Device.doLoadPacket
  try dsimp only
  repeat' (first | with_reducible rfl | split | (with_reducible refine (foldl_core _ _ _ ?_).trans ?_ <;> intros) | simp)

@[simp] theorem Device.sendLoad_core (d : Device) (dest page : Nat) (bs : List Byte) (poison cote : Bool) :
    (Device.sendLoad d dest page bs poison cote).core = d.core := by
  unfold Device.sendLoad
  try dsimp only
  repeat' (first | with_reducible rfl | split | (with_reducible refine (foldl_core _ _ _ ?_).trans ?_ <;> intros) | simp)

@[simp] theorem Device.servePull_core (d : Device) (dest whose step : Nat) (pages : List Nat) :
    (Device.servePull d dest whose step pages).core = d.core := by
  unfold Device.servePull
  try dsimp only
  repeat' (first | with_reducible rfl | split | (with_reducible refine (foldl_core _ _ _ ?_).trans ?_ <;> intros) | simp)

@[simp] theorem Device.doRecovReady_core (d : Device) :
    (Device.doRecovReady d).core = d.core := by
  unfold Device.doRecovReady
  split <;> simp

@[simp] theorem Device.doExportDone_core (d : Device) (fn : Nat) :
    (Device.doExportDone d fn).core = d.core := by
  unfold Device.doExportDone
  try dsimp only
  repeat' (first | with_reducible rfl | split | (with_reducible refine (foldl_core _ _ _ ?_).trans ?_ <;> intros) | simp)

@[simp] theorem Device.doHandover_core (d : Device) (fn rank : Nat) :
    (Device.doHandover d fn rank).core = d.core := by
  unfold Device.doHandover
  split <;> simp

@[simp] theorem Device.pointCome_core (d : Device) (cls : Nat) :
    (Device.pointCome d cls).core = d.core := by
  unfold Device.pointCome
  try dsimp only
  repeat' (first | with_reducible rfl | split | (with_reducible refine (foldl_core _ _ _ ?_).trans ?_ <;> intros) | simp)

@[simp] theorem Device.armPoint_core (d : Device) (u : CmpUser) (cls v : Nat) :
    (Device.armPoint d u cls v).core = d.core := by
  unfold Device.armPoint
  try dsimp only
  repeat' (first | with_reducible rfl | split | (with_reducible refine (foldl_core _ _ _ ?_).trans ?_ <;> intros) | simp)

@[simp] theorem Device.doSignArm_core (d : Device) (fn value : Nat) :
    (Device.doSignArm d fn value).core = d.core := by
  unfold Device.doSignArm
  split <;> simp

@[simp] theorem Device.doSnapatArm_core (d : Device) (fn value : Nat) :
    (Device.doSnapatArm d fn value).core = d.core := by
  unfold Device.doSnapatArm
  try dsimp only
  repeat' (first | with_reducible rfl | split | (with_reducible refine (foldl_core _ _ _ ?_).trans ?_ <;> intros) | simp)

@[simp] theorem Device.doSeal_core (d : Device) :
    (Device.doSeal d).core = d.core := by
  unfold Device.doSeal
  try dsimp only
  repeat' (first | with_reducible rfl | split | (with_reducible refine (foldl_core _ _ _ ?_).trans ?_ <;> intros) | simp)

@[simp] theorem Device.loseDrain_core (d : Device) (f : Nat) :
    (Device.loseDrain d f).core = d.core := by
  unfold Device.loseDrain
  split <;> simp

@[simp] theorem Device.doDrain_core (d : Device) (f units : Nat) :
    (Device.doDrain d f units).core = d.core := by
  unfold Device.doDrain
  try dsimp only
  repeat' (first | with_reducible rfl | split | (with_reducible refine (foldl_core _ _ _ ?_).trans ?_ <;> intros) | simp)

@[simp] theorem Device.doJournal_core (d : Device) (f : Nat) :
    (Device.doJournal d f).core = d.core := by
  unfold Device.doJournal
  try dsimp only
  repeat' (first | with_reducible rfl | split | (with_reducible refine (foldl_core _ _ _ ?_).trans ?_ <;> intros) | simp)

@[simp] theorem Device.takeFlockState_core (d : Device) (st reason : Nat) :
    (Device.takeFlockState d st reason).core = d.core := by
  unfold Device.takeFlockState
  try dsimp only
  repeat' (first | with_reducible rfl | split | (with_reducible refine (foldl_core _ _ _ ?_).trans ?_ <;> intros) | simp)

@[simp] theorem Device.manage_core (d : Device) (m : FlockMsg) :
    (Device.manage d m).core = d.core := by
  unfold Device.manage
  try dsimp only
  repeat' (first | with_reducible rfl | split | (with_reducible refine (foldl_core _ _ _ ?_).trans ?_ <;> intros) | simp)

@[simp] theorem Device.doManage_core (d : Device) (v : Via) (m : FlockMsg) :
    (Device.doManage d v m).core = d.core := by
  unfold Device.doManage
  try dsimp only
  repeat' (first | with_reducible rfl | split | (with_reducible refine (foldl_core _ _ _ ?_).trans ?_ <;> intros) | simp)

/-! ## Links -/

@[simp] theorem Device.takeDown_core (d : Device) (k : Nat) (again : Bool) :
    (Device.takeDown d k again).core = d.core := by
  simp [Device.takeDown]

@[simp] theorem Device.failLink_core (d : Device) (k : Nat) :
    (Device.failLink d k).core = d.core := by
  unfold Device.failLink
  try dsimp only
  repeat' (first | with_reducible rfl | split | (with_reducible refine (foldl_core _ _ _ ?_).trans ?_ <;> intros) | simp)

@[simp] theorem Device.doCtlSend_core (d : Device) (k : Nat) :
    (Device.doCtlSend d k).core = d.core := by
  unfold Device.doCtlSend
  try dsimp only
  repeat' (first | with_reducible rfl | split | (with_reducible refine (foldl_core _ _ _ ?_).trans ?_ <;> intros) | simp)

@[simp] theorem Device.ackDue_core (d : Device) (k : Nat) :
    (Device.ackDue d k).core = d.core := by
  unfold Device.ackDue
  try dsimp only
  repeat' (first | with_reducible rfl | split | (with_reducible refine (foldl_core _ _ _ ?_).trans ?_ <;> intros) | simp)

@[simp] theorem Device.askReplay_core (d : Device) (k : Nat) :
    (Device.askReplay d k).core = d.core := by
  simp [Device.askReplay]

@[simp] theorem Device.doFrame_core (d : Device) (k : Nat) (f : Frame) :
    (Device.doFrame d k f).core = d.core := by
  unfold Device.doFrame
  try dsimp only
  repeat' (first | with_reducible rfl | split | (with_reducible refine (foldl_core _ _ _ ?_).trans ?_ <;> intros) | simp)

@[simp] theorem Device.doReplay_core (d : Device) (k seq : Nat) :
    (Device.doReplay d k seq).core = d.core := by
  unfold Device.doReplay
  try dsimp only
  repeat' (first | with_reducible rfl | split | (with_reducible refine (foldl_core _ _ _ ?_).trans ?_ <;> intros) | simp)

@[simp] theorem Device.doCtlSlot_core (d : Device) (k : Nat) (c : CtlSlot) :
    (Device.doCtlSlot d k c).core = d.core := by
  unfold Device.doCtlSlot
  try dsimp only
  repeat' (first | with_reducible rfl | split | (with_reducible refine (foldl_core _ _ _ ?_).trans ?_ <;> intros) | simp)

@[simp] theorem Device.doSilent_core (d : Device) (k : Nat) :
    (Device.doSilent d k).core = d.core := by
  unfold Device.doSilent
  try dsimp only
  repeat' (first | with_reducible rfl | split | (with_reducible refine (foldl_core _ _ _ ?_).trans ?_ <;> intros) | simp)

@[simp] theorem Device.doRetrain_core (d : Device) (k : Nat) :
    (Device.doRetrain d k).core = d.core := by
  unfold Device.doRetrain
  split <;> simp

@[simp] theorem Device.doLinkFailed_core (d : Device) (k : Nat) :
    (Device.doLinkFailed d k).core = d.core := by
  unfold Device.doLinkFailed
  split <;> simp

@[simp] theorem Device.doTraining_core (d : Device) (k : Nat) (t : Training) :
    (Device.doTraining d k t).core = d.core := by
  unfold Device.doTraining
  extract_lets l l0 lanes again d1 d2 d3 d4 d5 ended c d6
  have h1 : d1.core = d.core := by simp only [d1]; split <;> simp
  have h2 : d2.core = d1.core := by simp only [d2]; simp
  have h3 : d3.core = d2.core := by simp only [d3]; split <;> simp
  have h4 : d4.core = d3.core := by simp only [d4]; simp
  have h5 : d5.core = d.core := by
    simp only [d5]
    split
    · simp [h1]
    · split <;> simp [h1, h2, h3, h4]
  have h6 : d6.core = d5.core := by simp only [d6, c]; split <;> simp
  split
  · rfl
  · simp [h5, h6]

@[simp] theorem Device.writeLinkCtrl_core (d : Device) (k value : Nat) :
    (Device.writeLinkCtrl d k value).core = d.core := by
  unfold Device.writeLinkCtrl
  try dsimp only
  repeat' (first | with_reducible rfl | split | (with_reducible refine (foldl_core _ _ _ ?_).trans ?_ <;> intros) | simp)

@[simp] theorem Device.doLinkCtrl_core (d : Device) (fn k value : Nat) :
    (Device.doLinkCtrl d fn k value).core = d.core := by
  unfold Device.doLinkCtrl
  split <;> simp

@[simp] theorem Device.doKeys_core (d : Device) (k : Nat) (ok : Bool) :
    (Device.doKeys d k ok).core = d.core := by
  unfold Device.doKeys
  try dsimp only
  repeat' (first | with_reducible rfl | split | (with_reducible refine (foldl_core _ _ _ ?_).trans ?_ <;> intros) | simp)

@[simp] theorem Device.doForward_core (d : Device) (k : Nat) (p : Packet) :
    (Device.doForward d k p).core = d.core := by
  unfold Device.doForward
  try dsimp only
  repeat' (first | with_reducible rfl | split | (with_reducible refine (foldl_core _ _ _ ?_).trans ?_ <;> intros) | simp)

/-! ## Time -/

@[simp] theorem Device.cutDma_core (d : Device) (f : Nat) (m : DmaD) :
    (Device.cutDma d f m).1.core = d.core := by
  unfold Device.cutDma
  split <;> simp

@[simp] theorem Device.endCut_core (d : Device) (u : CutOwner) :
    (Device.endCut d u).core = d.core := by
  unfold Device.endCut
  try dsimp only
  repeat' (first | with_reducible rfl | split | (with_reducible refine (foldl_core _ _ _ ?_).trans ?_ <;> intros) | simp)

@[simp] theorem Device.doCut_core (d : Device) (a beats : Nat) (o : CutOwner) :
    (Device.doCut d a beats o).core = d.core := by
  unfold Device.doCut
  try dsimp only
  repeat' (first | with_reducible rfl | split | (with_reducible refine (foldl_core _ _ _ ?_).trans ?_ <;> intros) | simp)

@[simp] theorem Device.doHeftSlew_core (d : Device) (h : Nat) :
    (Device.doHeftSlew d h).core = d.core := by
  simp [Device.doHeftSlew]

@[simp] theorem Device.relocked_core (d : Device) :
    (Device.relocked d).core = d.core := by
  unfold Device.relocked
  try dsimp only
  repeat' (first | with_reducible rfl | split | (with_reducible refine (foldl_core _ _ _ ?_).trans ?_ <;> intros) | simp)

@[simp] theorem Device.doSlewEnd_core (d : Device) (h : Nat) :
    (Device.doSlewEnd d h).core = d.core := by
  simp [Device.doSlewEnd]

@[simp] theorem Device.doStretch_core (d : Device) (h : Nat) :
    (Device.doStretch d h).core = d.core := by
  simp [Device.doStretch]

@[simp] theorem Device.doRealign_core (d : Device) (h g : Nat) :
    (Device.doRealign d h g).core = d.core := by
  unfold Device.doRealign
  try dsimp only
  repeat' (first | with_reducible rfl | split | (with_reducible refine (foldl_core _ _ _ ?_).trans ?_ <;> intros) | simp)

@[simp] theorem Device.doClockStop_core (d : Device) (h : Nat) :
    (Device.doClockStop d h).core = d.core := by
  unfold Device.doClockStop
  split <;> simp

@[simp] theorem Device.doWake_core (d : Device) (h : Nat) :
    (Device.doWake d h).core = d.core := by
  unfold Device.doWake
  split <;> simp

@[simp] theorem Device.injectWaiting_core (d : Device) :
    (Device.injectWaiting d).core = d.core := by
  unfold Device.injectWaiting
  try dsimp only
  repeat' (first | with_reducible rfl | split | (with_reducible refine (foldl_core _ _ _ ?_).trans ?_ <;> intros) | simp)

@[simp] theorem Device.doHandshake_core (d : Device) (h : Nat) :
    (Device.doHandshake d h).core = d.core := by
  simp [Device.doHandshake]

@[simp] theorem Device.drop_core (d : Device) (h k : Nat) :
    (Device.drop d h k).core = d.core := by
  simp [Device.drop]

@[simp] theorem Device.resetHeft_core (d : Device) (h : Nat) :
    (Device.resetHeft d h).core = d.core := by
  unfold Device.resetHeft
  try dsimp only
  repeat' (first | with_reducible rfl | split | (with_reducible refine (foldl_core _ _ _ ?_).trans ?_ <;> intros) | simp)

@[simp] theorem Device.doUnitReset_core (d : Device) (u : UnitId) :
    (Device.doUnitReset d u).core = d.core := by
  unfold Device.doUnitReset
  try dsimp only
  repeat' (first | with_reducible rfl | split | (with_reducible refine (foldl_core _ _ _ ?_).trans ?_ <;> intros) | simp)

@[simp] theorem Device.doRefLoss_core (d : Device) :
    (Device.doRefLoss d).core = d.core := by
  unfold Device.doRefLoss
  try dsimp only
  repeat' (first | with_reducible rfl | split | (with_reducible refine (foldl_core _ _ _ ?_).trans ?_ <;> intros) | simp)

@[simp] theorem Device.relock_core (d : Device) :
    (Device.relock d).core = d.core := by
  simp [Device.relock]

@[simp] theorem Device.doRefRestored_core (d : Device) :
    (Device.doRefRestored d).core = d.core := by
  unfold Device.doRefRestored
  try dsimp only
  repeat' (first | with_reducible rfl | split | (with_reducible refine (foldl_core _ _ _ ?_).trans ?_ <;> intros) | simp)

@[simp] theorem Device.haltFolds_core (d : Device) :
    (Device.haltFolds d).core = d.core := by
  unfold Device.haltFolds
  try dsimp only
  repeat' (first | with_reducible rfl | split | (with_reducible refine (foldl_core _ _ _ ?_).trans ?_ <;> intros) | simp)

@[simp] theorem Device.doRefFail_core (d : Device) :
    (Device.doRefFail d).core = d.core := by
  unfold Device.doRefFail
  split <;> simp

@[simp] theorem Device.watchHold_core (d : Device) (e : EventName) :
    (Device.watchHold d e).core = d.core := by
  simp [Device.watchHold]

@[simp] theorem Device.useFrame_core (d : Device) (v : Nat) :
    (Device.useFrame d v).core = d.core := by
  unfold Device.useFrame
  try dsimp only
  repeat' (first | with_reducible rfl | split | (with_reducible refine (foldl_core _ _ _ ?_).trans ?_ <;> intros) | simp)

@[simp] theorem Device.doWatchFrame_core (d : Device) (value check low : Nat) :
    (Device.doWatchFrame d value check low).core = d.core := by
  unfold Device.doWatchFrame
  try dsimp only
  repeat' (first | with_reducible rfl | split | (with_reducible refine (foldl_core _ _ _ ?_).trans ?_ <;> intros) | simp)

@[simp] theorem Device.doWatchLoss_core (d : Device) :
    (Device.doWatchLoss d).core = d.core := by
  unfold Device.doWatchLoss
  split <;> simp

@[simp] theorem Device.doWatchSkew_core (d : Device) :
    (Device.doWatchSkew d).core = d.core := by
  unfold Device.doWatchSkew
  split <;> simp

@[simp] theorem Device.reload_core (d : Device) (fn : Nat) :
    (Device.reload d fn).core = d.core := by
  unfold Device.reload
  try dsimp only
  repeat' (first | with_reducible rfl | split | (with_reducible refine (foldl_core _ _ _ ?_).trans ?_ <;> intros) | simp)

@[simp] theorem Device.doReload_core (d : Device) (fn : Nat) :
    (Device.doReload d fn).core = d.core := by
  unfold Device.doReload
  split <;> simp

@[simp] theorem Device.doWatchLo_core (d : Device) (fn : Nat) :
    (Device.doWatchLo d fn).core = d.core := by
  unfold Device.doWatchLo
  split <;> simp

@[simp] theorem Device.batchesStart_core (d : Device) :
    (Device.batchesStart d).core = d.core := by
  unfold Device.batchesStart
  try dsimp only
  repeat' (first | with_reducible rfl | split | (with_reducible refine (foldl_core _ _ _ ?_).trans ?_ <;> intros) | simp)

@[simp] theorem Device.tick_core (d : Device) :
    (Device.tick d).core = d.core := by
  simp [Device.tick]

@[simp] theorem Device.fire_core (d : Device) (u : CmpUser) :
    (Device.fire d u).core = d.core := by
  unfold Device.fire
  try dsimp only
  repeat' (first | with_reducible rfl | split | (with_reducible refine (foldl_core _ _ _ ?_).trans ?_ <;> intros) | simp)

@[simp] theorem Device.doFire_core (d : Device) (c : Nat) :
    (Device.doFire d c).core = d.core := by
  unfold Device.doFire
  try dsimp only
  repeat' (first | with_reducible rfl | split | (with_reducible refine (foldl_core _ _ _ ?_).trans ?_ <;> intros) | simp)

/-! ## Folds -/

@[simp] theorem Device.saveRecord_core (d : Device) :
    (Device.saveRecord d).core = d.core := by
  unfold Device.saveRecord
  try dsimp only
  repeat' (first | with_reducible rfl | split | (with_reducible refine (foldl_core _ _ _ ?_).trans ?_ <;> intros) | simp)

@[simp] theorem Device.needRoot_core (d : Device) :
    (Device.needRoot d).core = d.core := by
  unfold Device.needRoot
  try dsimp only
  repeat' (first | with_reducible rfl | split | (with_reducible refine (foldl_core _ _ _ ?_).trans ?_ <;> intros) | simp)

@[simp] theorem Device.drawKey_core (d : Device) (f : Nat) :
    (Device.drawKey d f).core = d.core := by
  simp [Device.drawKey]

@[simp] theorem Device.measureFolds_core (d : Device) :
    (Device.measureFolds d).core = d.core := by
  simp [Device.measureFolds]

@[simp] theorem Device.mapPens_core (d : Device) (ms : List Nat) (folds : Nat) :
    (Device.mapPens d ms folds).core = d.core := by
  unfold Device.mapPens
  try dsimp only
  repeat' (first | with_reducible rfl | split | (with_reducible refine (foldl_core _ _ _ ?_).trans ?_ <;> intros) | simp)

@[simp] theorem Device.closeRings_core (d : Device) (mine : Nat → Bool) (status : Nat) :
    (Device.closeRings d mine status).core = d.core := by
  unfold Device.closeRings
  try dsimp only
  repeat' (first | with_reducible rfl | split | (with_reducible refine (foldl_core _ _ _ ?_).trans ?_ <;> intros) | simp)

@[simp] theorem Device.zeroDrive_core (d : Device) (f s : Nat) :
    (Device.zeroDrive d f s).core = d.core := by
  unfold Device.zeroDrive
  try dsimp only
  repeat' (first | with_reducible rfl | split | (with_reducible refine (foldl_core _ _ _ ?_).trans ?_ <;> intros) | simp)

@[simp] theorem Device.endFold_core (d : Device) (f : Nat) :
    (Device.endFold d f).core = d.core := by
  unfold Device.endFold
  try dsimp only
  repeat' (first | with_reducible rfl | split | (with_reducible refine (foldl_core _ _ _ ?_).trans ?_ <;> intros) | simp)

@[simp] theorem Device.endAll_core (d : Device) :
    (Device.endAll d).core = d.core := by
  unfold Device.endAll
  try dsimp only
  repeat' (first | with_reducible rfl | split | (with_reducible refine (foldl_core _ _ _ ?_).trans ?_ <;> intros) | simp)

@[simp] theorem Device.handFold_core (d : Device) (f : Nat) :
    (Device.handFold d f).core = d.core := by
  unfold Device.handFold
  try dsimp only
  repeat' (first | with_reducible rfl | split | (with_reducible refine (foldl_core _ _ _ ?_).trans ?_ <;> intros) | simp)

theorem Device.changeCount_evolves (d : Device) (f : Nat) (h : [1, 2, 4, 8].contains f = true) : d.evolves (d.changeCount f) := by
  unfold Device.changeCount
  extract_lets d1 ms d2 d3 d4 d5 d6 r d7
  have h4 : d4.core = d.core := by
    simp only [d4, d3, d2, d1]
    refine (foldl_core _ _ _ ?_).trans ?_
    · intros; simp
    · simp only [Device.onSites_core]
      refine (foldl_core _ _ _ ?_).trans ?_ <;> intros <;> simp
  clear_value d4
  have h5 : d4.evolves d5 := ⟨rfl, rfl, Fuses.burnt_refl _, fun o => ⟨o.1, o.2.1, o.2.2.1, o.2.2.2.1, o.2.2.2.2.1, by simpa using h⟩⟩
  exact Device.evolves_core (Device.evolves_trans (evolves_of_core h4) h5) (by simp [d7, d6])

theorem Device.writeCount_evolves (d : Device) (fn f : Nat) : d.evolves (d.writeCount fn f) := by
  unfold Device.writeCount
  extract_lets st
  split
  · exact evolves_of_core (by simp)
  · rename_i h
    refine Device.evolves_core (Device.changeCount_evolves d f ?_) (by simp)
    by_contra hc
    exact h (by simp only [st, Device.countStatus]; simp_all)

theorem Device.doFoldCount_evolves (d : Device) (fn value : Nat) : d.evolves (d.doFoldCount fn value) :=
  evolves_ite (Device.writeCount_evolves _ _ _) (evolves_of_core rfl)

@[simp] theorem Device.resetVf_core (d : Device) (f : Nat) :
    (Device.resetVf d f).core = d.core := by
  simp [Device.resetVf]

@[simp] theorem Device.doHandFold_core (d : Device) (fn f : Nat) :
    (Device.doHandFold d fn f).core = d.core := by
  unfold Device.doHandFold
  try dsimp only
  repeat' (first | with_reducible rfl | split | (with_reducible refine (foldl_core _ _ _ ?_).trans ?_ <;> intros) | simp)

@[simp] theorem Device.doFoldReady_core (d : Device) (f : Nat) :
    (Device.doFoldReady d f).core = d.core := by
  unfold Device.doFoldReady
  try dsimp only
  repeat' (first | with_reducible rfl | split | (with_reducible refine (foldl_core _ _ _ ?_).trans ?_ <;> intros) | simp)

@[simp] theorem Device.haltTrace_core (d : Device) :
    (Device.haltTrace d).core = d.core := by
  simp [Device.haltTrace]

@[simp] theorem Device.destroy_core (d : Device) :
    (Device.destroy d).core = d.core := by
  unfold Device.destroy
  try dsimp only
  repeat' (first | with_reducible rfl | split | (with_reducible refine (foldl_core _ _ _ ?_).trans ?_ <;> intros) | simp)

@[simp] theorem Device.rebuild_core (d : Device) :
    (Device.rebuild d).core = d.core := by
  unfold Device.rebuild
  try dsimp only
  repeat' (first | with_reducible rfl | split | (with_reducible refine (foldl_core _ _ _ ?_).trans ?_ <;> intros) | simp)

@[simp] theorem Device.zeroVolatile_core (d : Device) :
    (Device.zeroVolatile d).core = d.core := by
  simp [Device.zeroVolatile]

theorem Device.persistent_evolves (d : Device) : d.evolves d.persistent := by
  refine ⟨rfl, rfl, ?_, fun h => h⟩
  simp only [Fuses.burnt, Device.persistent]
  refine ⟨trivial, le_refl _, by simp, by simp, by omega, by simp⟩

theorem Device.zeroPersistent_evolves (d : Device) : d.evolves d.zeroPersistent := by
  unfold Device.zeroPersistent
  exact Device.evolves_core (Device.evolves_trans (evolves_of_core (Device.destroy_core d)) (Device.persistent_evolves _)) (by simp)

theorem Device.doSecCtrl_evolves (d : Device) (fn value : Nat) : d.evolves (d.doSecCtrl fn value) := by
  unfold Device.doSecCtrl
  split
  · exact Device.zeroPersistent_evolves d
  · exact evolves_of_core rfl

@[simp] theorem Device.resetPf_core (d : Device) :
    (Device.resetPf d).core = d.core := by
  simp [Device.resetPf]

@[simp] theorem Device.doFlr_core (d : Device) (fn : Nat) :
    (Device.doFlr d fn).core = d.core := by
  unfold Device.doFlr
  try dsimp only
  repeat' (first | with_reducible rfl | split | (with_reducible refine (foldl_core _ _ _ ?_).trans ?_ <;> intros) | simp)

@[simp] theorem Device.doPortReset_core (d : Device) :
    (Device.doPortReset d).core = d.core := by
  unfold Device.doPortReset
  try dsimp only
  repeat' (first | with_reducible rfl | split | (with_reducible refine (foldl_core _ _ _ ?_).trans ?_ <;> intros) | simp)

@[simp] theorem Device.doSiteRetire_core (d : Device) (fn n : Nat) :
    (Device.doSiteRetire d fn n).core = d.core := by
  unfold Device.doSiteRetire
  try dsimp only
  repeat' (first | with_reducible rfl | split | (with_reducible refine (foldl_core _ _ _ ?_).trans ?_ <;> intros) | simp)

@[simp] theorem Device.doClearCounts_core (d : Device) (fn n : Nat) :
    (Device.doClearCounts d fn n).core = d.core := by
  unfold Device.doClearCounts
  split <;> simp

@[simp] theorem Device.doEnterS4_core (d : Device) :
    (Device.doEnterS4 d).core = d.core := by
  unfold Device.doEnterS4
  try dsimp only
  repeat' (first | with_reducible rfl | split | (with_reducible refine (foldl_core _ _ _ ?_).trans ?_ <;> intros) | simp)

/-! ## Security -/

theorem Device.runImage_evolves (d : Device) (i : Image) (ram : Bool) : d.evolves (d.runImage i ram) := by
  unfold Device.runImage
  extract_lets sv up d1 c c' d2
  have h1 : d1.core = d.core := by simp only [d1, Device.extendBy_core]
  have h2 : d1.evolves d2 := by
    refine ⟨rfl, rfl, ?_, fun h => h⟩
    simp only [Fuses.burnt, d2, c, c']
    refine ⟨trivial, ?_, by simp, by simp, by omega, by omega⟩
    split <;> omega
  exact Device.evolves_core (Device.evolves_trans (evolves_of_core h1) h2) (by simp [-Device.core_upd])

@[simp] theorem Device.toRecovery_core (d : Device) (reason : Nat) :
    (Device.toRecovery d reason).core = d.core := by
  simp [Device.toRecovery]

theorem Device.applyMaps_evolves (d : Device) : d.evolves d.applyMaps := by
  refine ⟨rfl, rfl, Fuses.burnt_refl _, ?_⟩
  rintro ⟨-, h⟩
  exact ⟨by simp [Device.applyMaps], h⟩

@[simp] theorem Device.readRecord_core (d : Device) :
    (Device.readRecord d).core = d.core := by
  unfold Device.readRecord
  try dsimp only
  repeat' (first | with_reducible rfl | split | (with_reducible refine (foldl_core _ _ _ ?_).trans ?_ <;> intros) | simp)

theorem Device.joinUp_evolves (d : Device) : d.evolves d.joinUp := by
  unfold Device.joinUp
  split
  · exact Device.evolves_core (Device.applyMaps_evolves d) (by simp)
  · exact evolves_of_core rfl

theorem Device.doBoot_evolves (d : Device) : d.evolves d.doBoot := by
  unfold Device.doBoot
  extract_lets e
  have h : e.core = d.core := by simp only [e, Device.extendBy_core]
  repeat' split
  all_goals first
    | exact evolves_of_core rfl
    | exact Device.evolves_trans (evolves_of_core h) (Device.runImage_evolves _ _ _)
    | exact evolves_of_core (by simp [h])

@[simp] theorem Device.answer_core (d : Device) (fn status : Nat) (bs : List Byte) :
    (Device.answer d fn status bs).core = d.core := by
  simp [Device.answer]

@[simp] theorem Device.answerStatus_core (d : Device) (fn status : Nat) :
    (Device.answerStatus d fn status).core = d.core := by
  simp [Device.answerStatus]

@[simp] theorem Device.command_core (d : Device) (fn op : Nat) (g : Device → Device) (hg : ∀ d, (g d).core = d.core) :
    (d.command fn op g).core = d.core := by
  unfold Device.command
  repeat' split
  all_goals simp [hg]

theorem Device.command_evolves (d : Device) (fn op : Nat) (g : Device → Device) (hg : ∀ d : Device, d.evolves (g d)) :
    d.evolves (d.command fn op g) := by
  unfold Device.command
  repeat' split
  all_goals first
    | exact hg _
    | exact evolves_of_core (by simp)

@[simp] theorem Device.doGetCert_core (d : Device) (fn : Nat) :
    (Device.doGetCert d fn).core = d.core := by
  simp [Device.doGetCert]

@[simp] theorem Device.doAttest_core (d : Device) (fn : Nat) :
    (Device.doAttest d fn).core = d.core := by
  simp [Device.doAttest]

@[simp] theorem Device.doExtend_core (d : Device) (fn : Nat) :
    (Device.doExtend d fn).core = d.core := by
  simp [Device.doExtend]

@[simp] theorem Device.doGetNonce_core (d : Device) (fn : Nat) :
    (Device.doGetNonce d fn).core = d.core := by
  unfold Device.doGetNonce
  try dsimp only
  repeat' (first
      | with_reducible rfl | split
      | (with_reducible refine (foldl_core _ _ _ ?_).trans ?_ <;> intros)
      | (with_reducible refine (Device.command_core (hg := ?_) ..).trans ?_ <;> intros) | simp)

theorem Device.doOwnerEnrol_evolves (d : Device) (fn : Nat) : d.evolves (d.doOwnerEnrol fn) := by
  refine Device.command_evolves _ _ _ _ fun d => ?_
  split
  · exact evolves_of_core (by simp)
  · rename_i h
    refine Device.evolves_core (b := { d with sec := { d.sec with fuses := { d.sec.fuses with
      owner := true, ownerHash := sha512 (d.request fn 0 133) } } }) ⟨rfl, rfl, ?_, fun h => h⟩ (by simp [-Device.core_upd])
    simp only [Fuses.burnt]
    simp_all

@[simp] theorem Device.byOfficer_core (d : Device) (fn op : Nat) (g : Device → Device) (hg : ∀ d, (g d).core = d.core) :
    (d.byOfficer fn op g).core = d.core := by
  unfold Device.byOfficer
  dsimp only
  repeat' split
  all_goals simp [hg]

theorem Device.byOfficer_evolves (d : Device) (fn op : Nat) (g : Device → Device) (hg : ∀ d : Device, d.evolves (g d)) :
    d.evolves (d.byOfficer fn op g) := by
  unfold Device.byOfficer
  extract_lets ok c e
  have h : e.core = d.core := by simp [e, c]
  repeat' split
  all_goals first
    | exact Device.evolves_trans (evolves_of_core h) (hg _)
    | exact evolves_of_core (by simp [h])

@[simp] theorem Device.measureMode_core (d : Device) :
    (Device.measureMode d).core = d.core := by
  simp [Device.measureMode]

@[simp] theorem Device.doSetApproved_core (d : Device) (fn : Nat) :
    (Device.doSetApproved d fn).core = d.core := by
  unfold Device.doSetApproved
  try dsimp only
  repeat' (first
      | with_reducible rfl | split
      | (with_reducible refine (foldl_core _ _ _ ?_).trans ?_ <;> intros)
      | (with_reducible refine (Device.command_core (hg := ?_) ..).trans ?_ <;> intros)
      | (with_reducible refine (Device.byOfficer_core (hg := ?_) ..).trans ?_ <;> intros) | simp)

@[simp] theorem Device.endService_core (d : Device) :
    (Device.endService d).core = d.core := by
  simp [Device.endService]

theorem Device.doDecommission_evolves (d : Device) (fn : Nat) : d.evolves (d.doDecommission fn) := by
  refine Device.command_evolves _ _ _ _ fun d => Device.byOfficer_evolves _ _ _ _ fun d => ?_
  extract_lets e c c'
  have h : d.evolves e := Device.evolves_core
    (Device.evolves_trans (evolves_of_core (Device.destroy_core d)) (Device.persistent_evolves _)) (by simp [e])
  clear_value e
  refine Device.evolves_core (Device.evolves_trans h ?_) (Device.answerStatus_core _ _ _)
  refine ⟨rfl, rfl, ?_, fun h => h⟩
  simp [Fuses.burnt, c, c']

@[simp] theorem Device.doFwUpdate_core (d : Device) (fn : Nat) (image : Option Image) :
    (Device.doFwUpdate d fn image).core = d.core := by
  unfold Device.doFwUpdate
  try dsimp only
  repeat' (first
      | with_reducible rfl | split
      | (with_reducible refine (foldl_core _ _ _ ?_).trans ?_ <;> intros)
      | (with_reducible refine (Device.command_core (hg := ?_) ..).trans ?_ <;> intros) | simp)

theorem Device.doRecoveryLoad_evolves (d : Device) (fn : Nat) (image : Option Image) :
    d.evolves (d.doRecoveryLoad fn image) := by
  refine Device.command_evolves _ _ _ _ fun d => ?_
  split
  · exact evolves_of_core (by simp)
  cases image with
  | none => exact evolves_of_core (by simp)
  | some i =>
  dsimp only
  split
  · exact evolves_of_core (by simp)
  have h : ({ d with sec := { d.sec with ram := some i } } : Device).core = d.core := by simp
  exact Device.evolves_core (Device.evolves_trans (Device.evolves_trans (evolves_of_core h) (Device.runImage_evolves _ _ _))
    (Device.joinUp_evolves _)) (Device.answerStatus_core _ _ _)

@[simp] theorem Device.doRecoveryWrite_core (d : Device) (fn : Nat) :
    (Device.doRecoveryWrite d fn).core = d.core := by
  unfold Device.doRecoveryWrite
  try dsimp only
  repeat' (first
      | with_reducible rfl | split
      | (with_reducible refine (foldl_core _ _ _ ?_).trans ?_ <;> intros)
      | (with_reducible refine (Device.command_core (hg := ?_) ..).trans ?_ <;> intros) | simp)

theorem Device.doZeroise_evolves (d : Device) (fn : Nat) : d.evolves (d.doZeroise fn) :=
  Device.command_evolves _ _ _ _ fun d => Device.evolves_core (Device.zeroPersistent_evolves d) (Device.answerStatus_core _ _ _)

@[simp] theorem Device.spdm_core (d : Device) (need : Nat) (g : Device → Device) (hg : ∀ d, (g d).core = d.core) :
    (Device.spdm d need g).core = d.core := by
  unfold Device.spdm
  split <;> simp [hg]

@[simp] theorem Device.sayPlain_core (d : Device) (bs : List Byte) :
    (Device.sayPlain d bs).core = d.core := by
  simp [Device.sayPlain]

@[simp] theorem Device.sayFree_core (d : Device) (request n : Nat) :
    (Device.sayFree d request n).core = d.core := by
  simp [Device.sayFree]

@[simp] theorem Device.doGetVersion_core (d : Device) :
    (Device.doGetVersion d).core = d.core := by
  simp [Device.doGetVersion]

@[simp] theorem Device.doGetCapabilities_core (d : Device) :
    (Device.doGetCapabilities d).core = d.core := by
  simp [Device.doGetCapabilities]

@[simp] theorem Device.doNegotiate_core (d : Device) :
    (Device.doNegotiate d).core = d.core := by
  simp [Device.doNegotiate]

@[simp] theorem Device.doGetDigests_core (d : Device) :
    (Device.doGetDigests d).core = d.core := by
  simp [Device.doGetDigests]

@[simp] theorem Device.doGetCertificate_core (d : Device) (off len : Nat) :
    (Device.doGetCertificate d off len).core = d.core := by
  simp [Device.doGetCertificate]

@[simp] theorem Device.doChallenge_core (d : Device) (nonce : List Byte) :
    (Device.doChallenge d nonce).core = d.core := by
  simp [Device.doChallenge]

@[simp] theorem Device.doGetMeasurements_core (d : Device) (index : Nat) :
    (Device.doGetMeasurements d index).core = d.core := by
  simp [Device.doGetMeasurements]

@[simp] theorem Device.doKeyExchange_core (d : Device) (z : List Byte) :
    (Device.doKeyExchange d z).core = d.core := by
  unfold Device.doKeyExchange
  try dsimp only
  repeat' (first
      | with_reducible rfl | split
      | (with_reducible refine (foldl_core _ _ _ ?_).trans ?_ <;> intros)
      | (with_reducible refine (Device.spdm_core (hg := ?_) ..).trans ?_ <;> intros) | simp)

@[simp] theorem Device.doFinish_core (d : Device) (id : Nat) (cert : Option (List Byte × List Byte)) (ok : Bool) :
    (Device.doFinish d id cert ok).core = d.core := by
  unfold Device.doFinish
  try dsimp only
  repeat' (first
      | with_reducible rfl | split
      | (with_reducible refine (foldl_core _ _ _ ?_).trans ?_ <;> intros)
      | (with_reducible refine (Device.spdm_core (hg := ?_) ..).trans ?_ <;> intros) | simp)

@[simp] theorem Device.doEndSession_core (d : Device) (id : Nat) :
    (Device.doEndSession d id).core = d.core := by
  unfold Device.doEndSession
  try dsimp only
  repeat' (first
      | with_reducible rfl | split
      | (with_reducible refine (foldl_core _ _ _ ?_).trans ?_ <;> intros)
      | (with_reducible refine (Device.spdm_core (hg := ?_) ..).trans ?_ <;> intros) | simp)

@[simp] theorem Device.doIdeKm_core (d : Device) (id fn : Nat) (selective : Bool) :
    (Device.doIdeKm d id fn selective).core = d.core := by
  unfold Device.doIdeKm
  try dsimp only
  repeat' (first
      | with_reducible rfl | split
      | (with_reducible refine (foldl_core _ _ _ ?_).trans ?_ <;> intros)
      | (with_reducible refine (Device.spdm_core (hg := ?_) ..).trans ?_ <;> intros) | simp)

@[simp] theorem Device.doSelfTests_core (d : Device) (failing : Option Nat) :
    (Device.doSelfTests d failing).core = d.core := by
  unfold Device.doSelfTests
  try dsimp only
  repeat' (first | with_reducible rfl | split | (with_reducible refine (foldl_core _ _ _ ?_).trans ?_ <;> intros) | simp)

@[simp] theorem Device.doReseed_core (d : Device) :
    (Device.doReseed d).core = d.core := by
  unfold Device.doReseed
  split <;> simp

@[simp] theorem Device.doTamperFall_core (d : Device) :
    (Device.doTamperFall d).core = d.core := by
  unfold Device.doTamperFall
  split <;> simp

@[simp] theorem Device.doTamperRise_core (d : Device) :
    (Device.doTamperRise d).core = d.core := by
  simp [Device.doTamperRise]

theorem Device.doTamper_evolves (d : Device) : d.evolves d.doTamper := by
  unfold Device.doTamper
  split
  · exact evolves_of_core rfl
  · extract_lets e c c'
    have h : d.evolves e := Device.evolves_trans (evolves_of_core (by simp)) (Device.zeroPersistent_evolves _)
    clear_value e
    refine Device.evolves_trans h ⟨rfl, rfl, ?_, ?_⟩
    · simp only [Fuses.burnt, c, c']
      refine ⟨trivial, le_refl _, by simp, by simp, by omega, by omega⟩
    · simp [Device.sized]

@[simp] theorem Device.setTap_core (d : Device) (t : TapInstr) :
    (Device.setTap d t).core = d.core := by
  unfold Device.setTap
  try dsimp only
  repeat' (first | with_reducible rfl | split | (with_reducible refine (foldl_core _ _ _ ?_).trans ?_ <;> intros) | simp)

@[simp] theorem Device.tapAct_core (d : Device) (g : Device → Device) (hg : ∀ d, (g d).core = d.core) :
    (Device.tapAct d g).core = d.core := by
  unfold Device.tapAct
  split <;> simp [hg]

@[simp] theorem Device.doBypass_core (d : Device) :
    (Device.doBypass d).core = d.core := by
  simp [Device.doBypass]

@[simp] theorem Device.doIdcode_core (d : Device) :
    (Device.doIdcode d).core = d.core := by
  simp [Device.doIdcode]

@[simp] theorem Device.doSample_core (d : Device) (cells : List Bool) :
    (Device.doSample d cells).core = d.core := by
  simp [Device.doSample]

@[simp] theorem Device.doExtest_core (d : Device) :
    (Device.doExtest d).core = d.core := by
  simp [Device.doExtest]

@[simp] theorem Device.laneTest_core (d : Device) (t : TapInstr) :
    (Device.laneTest d t).core = d.core := by
  unfold Device.laneTest
  try dsimp only
  repeat' (first
      | with_reducible rfl | split
      | (with_reducible refine (foldl_core _ _ _ ?_).trans ?_ <;> intros)
      | (with_reducible refine (Device.tapAct_core (hg := ?_) ..).trans ?_ <;> intros) | simp)

@[simp] theorem Device.doPulse_core (d : Device) :
    (Device.doPulse d).core = d.core := by
  simp [Device.doPulse]

@[simp] theorem Device.doTrain_core (d : Device) :
    (Device.doTrain d).core = d.core := by
  simp [Device.doTrain]

@[simp] theorem Device.doDieState_core (d : Device) :
    (Device.doDieState d).core = d.core := by
  unfold Device.doDieState
  try dsimp only
  repeat' (first
      | with_reducible rfl | split
      | (with_reducible refine (foldl_core _ _ _ ?_).trans ?_ <;> intros)
      | (with_reducible refine (Device.tapAct_core (hg := ?_) ..).trans ?_ <;> intros) | simp)

/-! ## Power -/

theorem Device.kept_evolves (d : Device) : d.evolves d.kept := by
  refine ⟨rfl, rfl, Fuses.burnt_refl _, fun _ => ?_⟩
  simp [Device.sized, Device.kept, Device.reset]

theorem Device.evolves_of {d e : Device} (h1 : e.idrev = d.idrev) (h2 : e.serial = d.serial) (h3 : e.sec.fuses = d.sec.fuses)
    (h4 : e.sized) : d.evolves e := ⟨h1, h2, by rw [h3]; exact Fuses.burnt_refl _, fun _ => h4⟩

theorem Device.coreLost_evolves (d : Device) (cause : Nat): d.evolves (d.coreLost cause) :=
  Device.evolves_of rfl rfl rfl (by simp [Device.sized, Device.coreLost, Device.kept, Device.reset])

theorem Device.reboot_evolves (d : Device) (cause : Nat): d.evolves (d.reboot cause) :=
  Device.evolves_of rfl rfl rfl (by simp [Device.sized, Device.reboot, Device.kept, Device.reset])

theorem Device.doModuleReset_evolves (d : Device) (slotId : Nat) : d.evolves (d.doModuleReset slotId) := by
  unfold Device.doModuleReset
  extract_lets c e
  have h : e.core = d.core := by simp [e, c]
  split
  · exact evolves_of_core h
  · exact Device.evolves_trans (evolves_of_core h) (Device.reboot_evolves _ _)

theorem Device.doResetCtrl_evolves (d : Device) (fn value : Nat) : d.evolves (d.doResetCtrl fn value) := by
  unfold Device.doResetCtrl
  split
  · exact Device.reboot_evolves _ _
  · exact evolves_of_core rfl

theorem Device.doWatchdog_evolves (d : Device) : d.evolves d.doWatchdog := by
  unfold Device.doWatchdog
  split
  · exact evolves_of_core rfl
  · exact Device.reboot_evolves _ _

@[simp] theorem Device.sampleTamper_core (d : Device) :
    (Device.sampleTamper d).core = d.core := by
  simp [Device.sampleTamper]

theorem Device.doPowerOn_evolves (d : Device) : d.evolves (d.doPowerOn) :=
  Device.evolves_of rfl rfl rfl (by simp [Device.sized, Device.doPowerOn, Device.kept, Device.reset, Device.sampleTamper])

theorem Device.doVauxLoss_evolves (d : Device) : d.evolves (d.doVauxLoss) :=
  Device.evolves_of rfl rfl rfl (by simp [Device.sized, Device.doVauxLoss, Device.kept, Device.reset])

@[simp] theorem Device.doPowerUp_core (d : Device) :
    (Device.doPowerUp d).core = d.core := by
  unfold Device.doPowerUp
  try dsimp only
  repeat' (first | with_reducible rfl | split | (with_reducible refine (foldl_core _ _ _ ?_).trans ?_ <;> intros) | simp)

theorem Device.dropRails_evolves (d : Device) (cause : Nat) : d.evolves (d.dropRails cause) := by
  unfold Device.dropRails
  split
  · exact Device.coreLost_evolves _ _
  · exact evolves_of_core rfl

theorem Device.dropRails_of {d e : Device} (cause : Nat) (h : e.core = d.core) : d.evolves (e.dropRails cause) :=
  Device.evolves_trans (evolves_of_core h) (Device.dropRails_evolves _ _)

theorem Device.doPowerDown_evolves (d : Device) (opOff : Bool) : d.evolves (d.doPowerDown opOff) := by
  unfold Device.doPowerDown
  exact Device.dropRails_of _ (by split <;> simp)

theorem Device.doInputFault_evolves (d : Device) (mv : Nat) : d.evolves (d.doInputFault mv) := by
  unfold Device.doInputFault
  repeat' split
  all_goals first
    | exact Device.dropRails_of _ (by simp)
    | exact evolves_of_core (by simp)

@[simp] theorem Device.doVcore_core (d : Device) (half mv : Nat) :
    (Device.doVcore d half mv).core = d.core := by
  unfold Device.doVcore
  try dsimp only
  repeat' (first | with_reducible rfl | split | (with_reducible refine (foldl_core _ _ _ ?_).trans ?_ <;> intros) | simp)

theorem Device.doPg_evolves (d : Device) : d.evolves d.doPg := by
  unfold Device.doPg
  split
  · exact evolves_of_core rfl
  · extract_lets lost c1 c2 c3 e
    have h : e.core = d.core := by simp [e, c1, c2, c3]
    split
    · exact evolves_of_core h
    · exact Device.evolves_core (Device.evolves_trans (evolves_of_core h) (Device.applyMaps_evolves _)) (by simp [-Device.core_upd])

@[simp] theorem Device.doPerst_core (d : Device) :
    (Device.doPerst d).core = d.core := by
  unfold Device.doPerst
  try dsimp only
  repeat' (first | with_reducible rfl | split | (with_reducible refine (foldl_core _ _ _ ?_).trans ?_ <;> intros) | simp)

@[simp] theorem Device.enterS3_core (d : Device) :
    (Device.enterS3 d).core = d.core := by
  simp [Device.enterS3]

@[simp] theorem Device.doSramTest_core (d : Device) (n : Nat) (passed : Bool) :
    (Device.doSramTest d n passed).core = d.core := by
  unfold Device.doSramTest
  try dsimp only
  repeat' (first | with_reducible rfl | split | (with_reducible refine (foldl_core _ _ _ ?_).trans ?_ <;> intros) | simp)

@[simp] theorem Device.doMemTraining_core (d : Device) (fast slow : Option Nat) :
    (Device.doMemTraining d fast slow).core = d.core := by
  unfold Device.doMemTraining
  try dsimp only
  repeat' (first | with_reducible rfl | split | (with_reducible refine (foldl_core _ _ _ ?_).trans ?_ <;> intros) | simp)

@[simp] theorem Device.doMeasure_core (d : Device) (watts fast slow : Nat) :
    (Device.doMeasure d watts fast slow).core = d.core := by
  unfold Device.doMeasure
  try dsimp only
  repeat' (first | with_reducible rfl | split | (with_reducible refine (foldl_core _ _ _ ?_).trans ?_ <;> intros) | simp)

@[simp] theorem Device.govern_core (d : Device) (step : Nat) :
    (Device.govern d step).core = d.core := by
  simp [Device.govern]

@[simp] theorem Device.doGovDown_core (d : Device) :
    (Device.doGovDown d).core = d.core := by
  unfold Device.doGovDown
  split <;> simp

@[simp] theorem Device.doGovUp_core (d : Device) :
    (Device.doGovUp d).core = d.core := by
  unfold Device.doGovUp
  split <;> simp

@[simp] theorem Device.doGuard_core (d : Device) :
    (Device.doGuard d).core = d.core := by
  unfold Device.doGuard
  split <;> simp

@[simp] theorem Device.doGovPause_core (d : Device) :
    (Device.doGovPause d).core = d.core := by
  unfold Device.doGovPause
  try dsimp only
  repeat' (first | with_reducible rfl | split | (with_reducible refine (foldl_core _ _ _ ?_).trans ?_ <;> intros) | simp)

@[simp] theorem Device.doLeaveGuard_core (d : Device) :
    (Device.doLeaveGuard d).core = d.core := by
  unfold Device.doLeaveGuard
  try dsimp only
  repeat' (first | with_reducible rfl | split | (with_reducible refine (foldl_core _ _ _ ?_).trans ?_ <;> intros) | simp)

@[simp] theorem Device.sense_core (d : Device) (h reading : Nat) :
    (Device.sense d h reading).core = d.core := by
  unfold Device.sense
  split <;> simp

@[simp] theorem Device.doThermDown_core (d : Device) (h reading : Nat) :
    (Device.doThermDown d h reading).core = d.core := by
  unfold Device.doThermDown
  try dsimp only
  repeat' (first | with_reducible rfl | split | (with_reducible refine (foldl_core _ _ _ ?_).trans ?_ <;> intros) | simp)

@[simp] theorem Device.doThermUp_core (d : Device) (h reading : Nat) :
    (Device.doThermUp d h reading).core = d.core := by
  unfold Device.doThermUp
  try dsimp only
  repeat' (first | with_reducible rfl | split | (with_reducible refine (foldl_core _ _ _ ?_).trans ?_ <;> intros) | simp)

theorem Device.doThermtrip_evolves (d : Device) (h reading : Nat) : d.evolves (d.doThermtrip h reading) := by
  unfold Device.doThermtrip
  split
  · exact evolves_of_core rfl
  · exact Device.dropRails_of _ (by simp)

theorem Device.doOperation_evolves (d : Device) (value : Option Nat) : d.evolves (d.doOperation value) := by
  unfold Device.doOperation
  repeat' split
  all_goals first
    | exact Device.doPowerDown_evolves _ _
    | exact evolves_of_core (by simp)

@[simp] theorem Device.doClearFaults_core (d : Device) :
    (Device.doClearFaults d).core = d.core := by
  simp [Device.doClearFaults]

@[simp] theorem Device.doStatusWord_core (d : Device) :
    (Device.doStatusWord d).core = d.core := by
  simp [Device.doStatusWord]

@[simp] theorem Device.sayReading_core (d : Device) (reading : Nat) :
    (Device.sayReading d reading).core = d.core := by
  simp [Device.sayReading]

@[simp] theorem Device.smbus_core (d : Device) (v : Nat) :
    (Device.smbus d v).core = d.core := by
  unfold Device.smbus
  split <;> simp

@[simp] theorem Device.doAlertClear_core (d : Device) (value : Nat) :
    (Device.doAlertClear d value).core = d.core := by
  unfold Device.doAlertClear
  split <;> simp

@[simp] theorem Device.doAra_core (d : Device) :
    (Device.doAra d).core = d.core := by
  unfold Device.doAra
  split <;> simp

/-! ## Flags -/

@[simp] theorem Device.apFault_core (d : Device) (fn status y : Nat) :
    (Device.apFault d fn status y).core = d.core := by
  simp [Device.apFault]

@[simp] theorem Device.apRead_core (d : Device) (fn y width : Nat) (es : List (Nat × Ecc)) :
    (Device.apRead d fn y width es).1.core = d.core := by
  unfold Device.apRead
  try dsimp only
  repeat' (first | with_reducible rfl | split | (with_reducible refine (foldl_core _ _ _ ?_).trans ?_ <;> intros) | simp)

@[simp] theorem Device.apWrite_core (d : Device) (fn y width value : Nat) :
    (Device.apWrite d fn y width value).core = d.core := by
  unfold Device.apWrite
  try dsimp only
  repeat' (first | with_reducible rfl | split | (with_reducible refine (foldl_core _ _ _ ?_).trans ?_ <;> intros) | simp)

@[simp] theorem Device.doApRead_core (d : Device) (fn off width : Nat) (es : List (Nat × Ecc)) :
    (Device.doApRead d fn off width es).core = d.core := by
  unfold Device.doApRead
  split <;> simp

@[simp] theorem Device.doApWrite_core (d : Device) (fn off width value : Nat) :
    (Device.doApWrite d fn off width value).core = d.core := by
  unfold Device.doApWrite
  split <;> simp

@[simp] theorem Device.readWord_core (d : Device) (fn off : Nat) :
    (Device.readWord d fn off).1.core = d.core := by
  unfold Device.readWord
  try dsimp only
  repeat' (first | with_reducible rfl | split | (with_reducible refine (foldl_core _ _ _ ?_).trans ?_ <;> intros) | simp)

@[simp] theorem Device.readBar_core (d : Device) (fn off width : Nat) :
    (Device.readBar d fn off width).1.core = d.core := by
  unfold Device.readBar
  try dsimp only
  repeat' (first | with_reducible rfl | split | (with_reducible refine (foldl_core _ _ _ ?_).trans ?_ <;> intros) | simp)

@[simp] theorem Device.writeTrace_core (d : Device) (fn value : Nat) :
    (Device.writeTrace d fn value).core = d.core := by
  unfold Device.writeTrace
  try dsimp only
  repeat' (first | with_reducible rfl | split | (with_reducible refine (foldl_core _ _ _ ?_).trans ?_ <;> intros) | simp)

@[simp] theorem Device.doTraceEnable_core (d : Device) (fn value : Nat) :
    (Device.doTraceEnable d fn value).core = d.core := by
  unfold Device.doTraceEnable
  split <;> simp

theorem Device.writeMbox_evolves (d : Device) (fn value : Nat) : d.evolves (d.writeMbox fn value) := by
  unfold Device.writeMbox
  try dsimp only
  repeat' (first | with_reducible refine evolves_ite ?_ ?_ | split)
  all_goals first
    | exact Device.doOwnerEnrol_evolves _ _
    | exact Device.doDecommission_evolves _ _
    | exact Device.doZeroise_evolves _ _
    | with_reducible exact evolves_of_core rfl
    | exact evolves_of_core (by simp)

theorem Device.writeLow_evolves (d : Device) (fn off value : Nat) : d.evolves (d.writeLow fn off value) := by
  unfold Device.writeLow
  try dsimp only
  repeat' (first | with_reducible refine evolves_ite ?_ ?_ | split)
  all_goals first
    | exact Device.doSecCtrl_evolves _ _ _
    | with_reducible exact Device.writeCount_evolves _ _ _
    | exact Device.writeMbox_evolves _ _ _
    | with_reducible exact evolves_of_core rfl
    | exact evolves_of_core (by simp)

@[simp] theorem Device.writeWatchCtrl_core (d : Device) (fn value : Nat) :
    (Device.writeWatchCtrl d fn value).core = d.core := by
  unfold Device.writeWatchCtrl
  try dsimp only
  repeat' (first | with_reducible rfl | split | (with_reducible refine (foldl_core _ _ _ ?_).trans ?_ <;> intros) | simp)

@[simp] theorem Device.writeTime_core (d : Device) (fn off value : Nat) :
    (Device.writeTime d fn off value).core = d.core := by
  unfold Device.writeTime
  try dsimp only
  repeat' (first | with_reducible rfl | split | (with_reducible refine (foldl_core _ _ _ ?_).trans ?_ <;> intros) | simp)

theorem Device.writePower_evolves (d : Device) (fn off value : Nat) : d.evolves (d.writePower fn off value) := by
  unfold Device.writePower
  try dsimp only
  repeat' (first | with_reducible refine evolves_ite ?_ ?_ | split)
  all_goals first
    | exact Device.doResetCtrl_evolves _ _ _
    | with_reducible exact evolves_of_core rfl
    | exact evolves_of_core (by simp)

theorem Device.writeFolds_evolves (d : Device) (fn off value : Nat) : d.evolves (d.writeFolds fn off value) := by
  unfold Device.writeFolds
  try dsimp only
  repeat' (first | with_reducible refine evolves_ite ?_ ?_ | split)
  all_goals first
    | exact Device.writeCount_evolves _ _ _
    | with_reducible exact evolves_of_core rfl
    | exact evolves_of_core (by simp)

@[simp] theorem Device.writeSite_core (d : Device) (fn n o value : Nat) :
    (Device.writeSite d fn n o value).core = d.core := by
  unfold Device.writeSite
  try dsimp only
  repeat' (first | with_reducible rfl | split | (with_reducible refine (foldl_core _ _ _ ?_).trans ?_ <;> intros) | simp)

@[simp] theorem Device.writePad_core (d : Device) (off value : Nat) :
    (Device.writePad d off value).core = d.core := by
  unfold Device.writePad
  try dsimp only
  repeat' (first | with_reducible rfl | split | (with_reducible refine (foldl_core _ _ _ ?_).trans ?_ <;> intros) | simp)

@[simp] theorem Device.writeArb_core (d : Device) (off value : Nat) :
    (Device.writeArb d off value).core = d.core := by
  unfold Device.writeArb
  try dsimp only
  repeat' (first | with_reducible rfl | split | (with_reducible refine (foldl_core _ _ _ ?_).trans ?_ <;> intros) | simp)

@[simp] theorem Device.writeMem_core (d : Device) (fn off value : Nat) :
    (Device.writeMem d fn off value).core = d.core := by
  unfold Device.writeMem
  try dsimp only
  repeat' (first | with_reducible rfl | split | (with_reducible refine (foldl_core _ _ _ ?_).trans ?_ <;> intros) | simp)

@[simp] theorem Device.setFlock_core (d : Device) (fn off : Nat) (g : Flock → Flock) :
    (Device.setFlock d fn off g).core = d.core := by
  unfold Device.setFlock
  split <;> simp

@[simp] theorem Device.writeFlock_core (d : Device) (fn off value : Nat) :
    (Device.writeFlock d fn off value).core = d.core := by
  unfold Device.writeFlock
  try dsimp only
  repeat' (first | with_reducible rfl | split | (with_reducible refine (foldl_core _ _ _ ?_).trans ?_ <;> intros) | simp)

@[simp] theorem Device.writeRing_core (d : Device) (fn n w value : Nat) :
    (Device.writeRing d fn n w value).core = d.core := by
  unfold Device.writeRing
  try dsimp only
  repeat' (first | with_reducible rfl | split | (with_reducible refine (foldl_core _ _ _ ?_).trans ?_ <;> intros) | simp)

@[simp] theorem Device.writeWindow_core (d : Device) (fn off value : Nat) :
    (Device.writeWindow d fn off value).core = d.core := by
  unfold Device.writeWindow
  split <;> simp

theorem Device.writeWord_evolves (d : Device) (fn off value : Nat) : d.evolves (d.writeWord fn off value) :=
  evolves_ite (evolves_of_core rfl)
    (evolves_ite (Device.writeLow_evolves _ _ _ _)
    (evolves_ite (evolves_of_core rfl)
    (evolves_ite (evolves_of_core (by simp))
    (evolves_ite (Device.writePower_evolves _ _ _ _)
    (evolves_ite (Device.writeFolds_evolves _ _ _ _)
    (evolves_ite (evolves_of_core (by simp))
    (evolves_ite (evolves_of_core rfl)
    (evolves_ite (evolves_of_core (by simp))
    (evolves_ite (evolves_of_core (by simp))
    (evolves_ite (evolves_of_core (by simp))
    (evolves_ite (evolves_ite (evolves_of_core (by simp)) (evolves_of_core rfl))
    (evolves_ite (evolves_of_core rfl)
    (evolves_ite (evolves_ite (evolves_of_core (by simp)) (evolves_of_core rfl))
    (evolves_ite (evolves_of_core rfl)
    (evolves_ite (evolves_of_core (by simp))
    (evolves_ite (evolves_of_core (by simp))
    (evolves_ite (evolves_of_core rfl)
    (evolves_ite (evolves_of_core (by simp))
    (evolves_of_core rfl)))))))))))))))))))

theorem Device.writeBar_evolves (d : Device) (fn off width value : Nat) : d.evolves (d.writeBar fn off width value) :=
  evolves_ite (evolves_of_core rfl) (evolves_ite (evolves_ite (evolves_of_core (by simp)) (evolves_of_core rfl)) (evolves_ite (evolves_ite (evolves_of_core rfl) (evolves_ite (evolves_of_core (by simp)) (evolves_ite (evolves_of_core (by simp)) (evolves_of_core rfl))))
    (evolves_ite (Device.writeWord_evolves _ _ _ _) (evolves_ite
      (Device.evolves_trans (Device.writeWord_evolves _ _ _ _) (Device.writeWord_evolves _ _ _ _)) (evolves_of_core rfl)))))

theorem Device.doRegWrite_evolves (d : Device) (fn off width value : Nat) : d.evolves (d.doRegWrite fn off width value) := by
  unfold Device.doRegWrite
  split
  · exact Device.writeBar_evolves _ _ _ _ _
  · exact Device.fromHost_evolves _ _ _ fun d => Device.writeBar_evolves _ _ _ _ _

/-! ## Tunnel -/

@[simp] theorem Device.answerReads_core (d : Device) :
    (Device.answerReads d).core = d.core := by
  unfold Device.answerReads
  try dsimp only
  repeat' (first | with_reducible rfl | split | (with_reducible refine (foldl_core _ _ _ ?_).trans ?_ <;> intros) | simp)

@[simp] theorem Device.noteRead_core (d : Device) (rank off width : Nat) (ready : Option (List Byte)) :
    (Device.noteRead d rank off width ready).core = d.core := by
  unfold Device.noteRead
  try dsimp only
  repeat' (first | with_reducible rfl | split | (with_reducible refine (foldl_core _ _ _ ?_).trans ?_ <;> intros) | simp)

@[simp] theorem Device.endRead_core (d : Device) (tag : Nat) (bs : List Byte) :
    (Device.endRead d tag bs).core = d.core := by
  unfold Device.endRead
  try dsimp only
  repeat' (first | with_reducible rfl | split | (with_reducible refine (foldl_core _ _ _ ?_).trans ?_ <;> intros) | simp)

@[simp] theorem Device.doTunRead_core (d : Device) (a : Tunnel) : (Device.doTunRead d a).core = d.core := by
  cases a with
  | host rank off width value =>
    refine Device.fromHost_core _ _ _ fun d => ?_
    split
    · simp
    · split <;> simp
  | packet k p =>
    refine Device.deliver_core _ _ _ _ fun d => ?_
    split <;> simp

theorem Device.doTunWrite_evolves (d : Device) (a : Tunnel) : d.evolves (d.doTunWrite a) := by
  cases a with
  | host rank off width value =>
    refine Device.fromHost_evolves _ _ _ fun d => ?_
    split
    · exact Device.writeBar_evolves _ _ _ _ _
    · split <;> exact evolves_of_core (by simp)
  | packet k p =>
    unfold Device.doTunWrite
    with_reducible refine Device.deliver_evolves _ _ _ _ ?_
    intro e
    split
    · exact Device.writeBar_evolves _ _ _ _ _
    · exact evolves_of_core rfl

@[simp] theorem Device.doTunDone_core (d : Device) (k : Nat) (p : Packet) :
    (Device.doTunDone d k p).core = d.core := by
  unfold Device.doTunDone
  try dsimp only
  repeat' (first
      | with_reducible rfl
      | (with_reducible first
          | refine (Device.onArrive_core _ _ _ ?_).trans ?_
          | refine (Device.deliver_core _ _ _ _ ?_).trans ?_
          | refine (Device.hear_core _ _ _ ?_).trans ?_
          | refine (Device.fromHost_core _ _ _ ?_).trans ?_
          | refine (Device.begin_core _ _ _ _ _ ?_).trans ?_
          | refine (Device.forMember_core _ _ _ _ ?_).trans ?_) <;> intros | split
      | (with_reducible refine (foldl_core _ _ _ ?_).trans ?_ <;> intros) | simp)

@[simp] theorem Device.doTunTimeout_core (d : Device) (tag : Nat) :
    (Device.doTunTimeout d tag).core = d.core := by
  unfold Device.doTunTimeout
  try dsimp only
  repeat' (first | with_reducible rfl | split | (with_reducible refine (foldl_core _ _ _ ?_).trans ?_ <;> intros) | simp)

@[simp] theorem Device.forMember_core (d : Device) (k : Nat) (p : Packet) (g : Device → Device) (hg : ∀ d, (g d).core = d.core) :
    (Device.forMember d k p g).core = d.core := by
  unfold Device.forMember
  try dsimp only
  repeat' (first
      | with_reducible rfl
      | (with_reducible first
          | refine (Device.onArrive_core _ _ _ ?_).trans ?_
          | refine (Device.deliver_core _ _ _ _ ?_).trans ?_
          | refine (Device.hear_core _ _ _ ?_).trans ?_
          | refine (Device.fromHost_core _ _ _ ?_).trans ?_
          | refine (Device.begin_core _ _ _ _ _ ?_).trans ?_
          | refine (Device.forMember_core _ _ _ _ ?_).trans ?_) <;> intros | split
      | (with_reducible refine (foldl_core _ _ _ ?_).trans ?_ <;> intros) | simp [hg])

@[simp] theorem Device.doInterrupt_core (d : Device) (k : Nat) (p : Packet) :
    (Device.doInterrupt d k p).core = d.core := by
  unfold Device.doInterrupt
  try dsimp only
  repeat' (first | with_reducible rfl | split | (with_reducible refine (foldl_core _ _ _ ?_).trans ?_ <;> intros) | simp)

@[simp] theorem Device.doMemberRead_core (d : Device) (k : Nat) (p : Packet) :
    (Device.doMemberRead d k p).core = d.core := by
  unfold Device.doMemberRead
  try dsimp only
  repeat' (first | with_reducible rfl | split | (with_reducible refine (foldl_core _ _ _ ?_).trans ?_ <;> intros) | simp)

@[simp] theorem Device.doMemberWrite_core (d : Device) (k : Nat) (p : Packet) :
    (Device.doMemberWrite d k p).core = d.core := by
  unfold Device.doMemberWrite
  try dsimp only
  repeat' (first | with_reducible rfl | split | (with_reducible refine (foldl_core _ _ _ ?_).trans ?_ <;> intros) | simp)

end Sys2Proof.Machine
end

