-- ==== Sys2Proof/Laws/Memory.lean ====
section
/-!
SUPPORT. Sparse stores and memories: what a read after a write gives, that every other key is left alone, and that
every operation keeps the canonical form.
-/
namespace Sys2Proof.Machine

variable {α : Type}

/-! ## Reads of sparse stores -/

@[simp] theorem sget_nil (d : α) (k : Nat) : sget d [] k = d := rfl

theorem sget_sput (d : α) (m : Sparse α) (k k' : Nat) (v : α) :
    sget d (sput m k v) k' = if k' = k then v else sget d m k' := by
  induction m with
  | nil => simp [sput, sget]
  | cons e r ih => grind [sput, sget]

theorem sget_filter (d : α) (m : Sparse α) (p : Nat → Bool) (k : Nat) :
    sget d (m.filter fun e => p e.1) k = if p k = true then sget d m k else d := by
  induction m with
  | nil => simp
  | cons e r ih => grind [sget]

theorem sget_sdel (d : α) (m : Sparse α) (k k' : Nat) :
    sget d (sdel m k) k' = if k' = k then d else sget d m k' := by
  have h := sget_filter d m (fun j => decide (j ≠ k)) k'
  simp only [sdel, h]; grind

theorem sget_sset [DecidableEq α] (d : α) (m : Sparse α) (k k' : Nat) (v : α) :
    sget d (sset d m k v) k' = if k' = k then v else sget d m k' := by
  simp only [sset]
  split
  · rw [sget_sdel]; grind
  · exact sget_sput d m k k' v

@[simp] theorem sget_sset_self [DecidableEq α] (d : α) (m : Sparse α) (k : Nat) (v : α) : sget d (sset d m k v) k = v := by
  simp [sget_sset]

theorem sget_sset_ne [DecidableEq α] (d : α) (m : Sparse α) (v : α) {k k' : Nat} (h : k' ≠ k) :
    sget d (sset d m k v) k' = sget d m k' := by
  simp [sget_sset, h]

theorem slook_sput (m : Sparse α) (k k' : Nat) (v : α) :
    slook (sput m k v) k' = if k' = k then some v else slook m k' := by
  induction m with
  | nil => simp [sput, slook]
  | cons e r ih => grind [sput, slook]

theorem slook_sdel (m : Sparse α) (k k' : Nat) :
    slook (sdel m k) k' = if k' = k then none else slook m k' := by
  induction m with
  | nil => simp [sdel, slook]
  | cons e r ih => grind [sdel, slook]

theorem sget_append (d : α) (m n : Sparse α) (k : Nat) :
    sget d (m ++ n) k = if (slook m k).isSome then sget d m k else sget d n k := by
  induction m with
  | nil => simp [slook]
  | cons e r ih => grind [sget, slook]

/-! ## The canonical form -/

theorem sokFrom_iff [DecidableEq α] (d : α) (lo : Nat) (m : Sparse α) :
    sokFrom d lo m = true ↔ (∀ e ∈ m, lo ≤ e.1 ∧ e.2 ≠ d) ∧ m.Pairwise fun a b => a.1 < b.1 := by
  induction m generalizing lo with
  | nil => simp [sokFrom]
  | cons e r ih =>
    simp only [sokFrom, Bool.and_eq_true, decide_eq_true_eq, Bool.not_eq_true', decide_eq_false_iff_not, ih,
      List.mem_cons, List.pairwise_cons]
    constructor
    · rintro ⟨⟨h1, h2⟩, h3, h4⟩
      refine ⟨?_, fun b hb => (h3 b hb).1, h4⟩
      rintro b (rfl | hb)
      · exact ⟨h1, h2⟩
      · have := h3 b hb; exact ⟨by omega, this.2⟩
    · rintro ⟨h1, h2, h3⟩
      exact ⟨h1 e (.inl rfl), fun b hb => ⟨h2 b hb, (h1 b (.inr hb)).2⟩, h3⟩

theorem sok_iff [DecidableEq α] (d : α) (m : Sparse α) :
    sok d m = true ↔ (∀ e ∈ m, e.2 ≠ d) ∧ m.Pairwise fun a b => a.1 < b.1 := by
  simp [sok, sokFrom_iff]

theorem sok_filter [DecidableEq α] (d : α) (m : Sparse α) (p : Nat × α → Bool) (h : sok d m = true) :
    sok d (m.filter p) = true := by
  rw [sok_iff] at h ⊢
  exact ⟨fun e he => h.1 e (List.mem_filter.mp he).1, h.2.filter p⟩

theorem sok_sdel [DecidableEq α] (d : α) (m : Sparse α) (k : Nat) (h : sok d m = true) : sok d (sdel m k) = true :=
  sok_filter d m _ h

theorem mem_sput (m : Sparse α) (k : Nat) (v : α) (e : Nat × α) (h : e ∈ sput m k v) : e = (k, v) ∨ e ∈ m := by
  induction m with
  | nil => simpa [sput] using h
  | cons x r ih => grind [sput]

theorem sok_sput [DecidableEq α] (d : α) (m : Sparse α) (k : Nat) (v : α) (hv : v ≠ d) (h : sok d m = true) :
    sok d (sput m k v) = true := by
  rw [sok_iff] at h ⊢
  obtain ⟨h1, h2⟩ := h
  refine ⟨fun e he => ?_, ?_⟩
  · rcases mem_sput m k v e he with rfl | he
    · exact hv
    · exact h1 e he
  · clear h1
    induction m with
    | nil => simp [sput]
    | cons x r ih =>
      rw [List.pairwise_cons] at h2
      simp only [sput]
      split
      · simp only [List.pairwise_cons, List.mem_cons]
        refine ⟨?_, h2⟩
        rintro b (rfl | hb)
        · assumption
        · have := h2.1 b hb; omega
      · split
        · simp only [List.pairwise_cons]
          exact ⟨fun b hb => by have := h2.1 b hb; omega, h2.2⟩
        · rw [List.pairwise_cons]
          refine ⟨fun b hb => ?_, ih h2.2⟩
          rcases mem_sput r k v b hb with rfl | hb
          · omega
          · exact h2.1 b hb

/-- A store keeps the canonical form. -/
theorem sok_sset [DecidableEq α] (d : α) (m : Sparse α) (k : Nat) (v : α) (h : sok d m = true) :
    sok d (sset d m k v) = true := by
  simp only [sset]
  split
  · exact sok_sdel d m k h
  · exact sok_sput d m k v ‹_› h

/-! ## Memories -/

@[simp] theorem Memory.bytes_length (m : Memory) (a n : Nat) : (m.bytes a n).length = n := by simp [Memory.bytes]

/-- A range reads as its bytes one after the other. -/
theorem Memory.bytes_eq (m : Memory) (a n : Nat) : m.bytes a n = (List.range n).map fun i => m.read (a + i) := by
  simp only [Memory.bytes, Memory.read]
  refine List.map_congr_left fun i hi => ?_
  have h := sget_filter 0#8 m (fun k => decide (a ≤ k) && decide (k < a + n)) (a + i)
  rw [h]
  simp_all

theorem Memory.read_write (m : Memory) (a c : Nat) (b : Byte) : (m.write a b).read c = if c = a then b else m.read c :=
  sget_sset _ _ _ _ _

theorem mem_cellsOf (a : Nat) (bs : List Byte) (e : Nat × Byte) (h : e ∈ cellsOf a bs) :
    a ≤ e.1 ∧ e.1 < a + bs.length ∧ e.2 ≠ 0#8 := by
  induction bs generalizing a with
  | nil => simp [cellsOf] at h
  | cons b bs ih =>
    simp only [cellsOf] at h
    split at h
    · have := ih (a + 1) h; simp only [List.length_cons]; grind
    · rcases List.mem_cons.mp h with rfl | h
      · simp_all
      · have := ih (a + 1) h; simp only [List.length_cons]; grind

theorem sget_cellsOf (a c : Nat) (bs : List Byte) :
    sget 0#8 (cellsOf a bs) c = if a ≤ c ∧ c < a + bs.length then bs.getD (c - a) 0#8 else 0#8 := by
  induction bs generalizing a with
  | nil => simp [cellsOf]
  | cons b bs ih =>
    have hs : a < c → c - a = (c - (a + 1)) + 1 := by omega
    simp only [cellsOf]
    rcases Nat.lt_trichotomy c a with h | rfl | h
    · split <;> simp [sget, ih] <;> grind
    · split <;> simp [sget, ih] <;> grind
    · rw [hs h]; split <;> simp [sget, ih] <;> grind

theorem slook_isSome (m : Sparse α) (k : Nat) : (slook m k).isSome = true ↔ ∃ e ∈ m, e.1 = k := by
  induction m with
  | nil => simp [slook]
  | cons e r ih => grind [slook]

/-- Bytes written from an address read back, and every other byte is as it was. -/
theorem Memory.read_store (m : Memory) (a c : Nat) (bs : List Byte) :
    (m.store a bs).read c = if a ≤ c ∧ c < a + bs.length then bs.getD (c - a) 0#8 else m.read c := by
  have hl := sget_filter 0#8 m (fun k => decide (k < a)) c
  have hr := sget_filter 0#8 m (fun k => decide (a + bs.length ≤ k)) c
  have h1 := slook_isSome (m.filter fun e => decide (e.1 < a)) c
  have h2 := slook_isSome (m.filter (fun e => decide (e.1 < a)) ++ cellsOf a bs) c
  have h3 := sget_cellsOf a c bs
  simp only [Memory.read, Memory.store, sget_append, hl, hr, h3]
  by_cases hc : c < a
  · have : ¬ (a ≤ c ∧ c < a + bs.length) := by omega
    simp only [hc, decide_true, if_true, this, if_false]
    by_cases hm : (slook (m.filter fun e => decide (e.1 < a)) c).isSome = true
    · have : (slook (m.filter (fun e => decide (e.1 < a)) ++ cellsOf a bs) c).isSome = true := by
        rw [h2]; rw [h1] at hm; obtain ⟨e, he, hk⟩ := hm; exact ⟨e, List.mem_append_left _ he, hk⟩
      simp [hm, this]
    · have hz : sget 0#8 m c = 0#8 := by
        have : slook m c = none := by
          by_contra hn
          apply hm; rw [h1]
          have := (slook_isSome m c).mp (by cases hh : slook m c <;> simp_all)
          obtain ⟨e, he, hk⟩ := this
          exact ⟨e, List.mem_filter.mpr ⟨he, by simp; omega⟩, hk⟩
        clear hl hr h1 h2 h3 hm
        induction m with
        | nil => rfl
        | cons e r ih => grind [slook, sget]
      have hb : ¬ (a + bs.length ≤ c) := by omega
      simp [hm, hb, hz]
  · have hm : ¬ (slook (m.filter fun e => decide (e.1 < a)) c).isSome = true := by
      rw [h1]; rintro ⟨e, he, rfl⟩; simp at he; omega
    simp only [hm, if_false, Bool.false_eq_true]
    by_cases hin : a ≤ c ∧ c < a + bs.length
    · have hb : ¬ (a + bs.length ≤ c) := by omega
      by_cases h4 : (slook (m.filter (fun e => decide (e.1 < a)) ++ cellsOf a bs) c).isSome = true
      · simp [h4, hin]
      · simp only [h4, if_false, hin, hb, Bool.false_eq_true, decide_false]
        have hz : bs.getD (c - a) 0#8 = 0#8 := by
          by_contra hne
          apply h4; rw [h2]
          by_contra hno
          have : sget 0#8 (cellsOf a bs) c = 0#8 := by
            have : ∀ l : Memory, (∀ e ∈ l, e.1 ≠ c) → sget 0#8 l c = 0#8 := by
              intro l; induction l with
              | nil => intro _; rfl
              | cons e r ih => grind [sget]
            apply this; intro e he hk; exact hno ⟨e, List.mem_append_right _ he, hk⟩
          rw [h3, if_pos hin] at this; exact hne this
        simpa using hz.symm
    · have hb : a + bs.length ≤ c := by omega
      have h4 : ¬ (slook (m.filter (fun e => decide (e.1 < a)) ++ cellsOf a bs) c).isSome = true := by
        rw [h2]; rintro ⟨e, he, hk⟩
        rcases List.mem_append.mp he with he | he
        · simp at he; omega
        · have := mem_cellsOf a bs e he; omega
      simp [h4, hin, hb]

theorem Memory.read_erase (m : Memory) (a n c : Nat) :
    (m.erase a n).read c = if c < a ∨ a + n ≤ c then m.read c else 0#8 := by
  have h := sget_filter 0#8 m (fun k => decide (k < a ∨ a + n ≤ k)) c
  simp only [Memory.read, Memory.erase, h]; simp

theorem Memory.wf_write (m : Memory) (a : Nat) (b : Byte) (h : m.wf = true) : (m.write a b).wf = true := sok_sset _ _ _ _ h

theorem Memory.wf_erase (m : Memory) (a n : Nat) (h : m.wf = true) : (m.erase a n).wf = true := sok_filter _ _ _ h

theorem pairwise_cellsOf (a : Nat) (bs : List Byte) : (cellsOf a bs).Pairwise fun x y => x.1 < y.1 := by
  induction bs generalizing a with
  | nil => simp [cellsOf]
  | cons b bs ih =>
    simp only [cellsOf]
    split
    · exact ih _
    · rw [List.pairwise_cons]
      exact ⟨fun e he => by have := mem_cellsOf _ _ e he; simp; omega, ih _⟩

theorem Memory.wf_store (m : Memory) (a : Nat) (bs : List Byte) (h : m.wf = true) : (m.store a bs).wf = true := by
  simp only [Memory.wf, sok_iff] at h ⊢
  obtain ⟨h1, h2⟩ := h
  refine ⟨?_, ?_⟩
  · intro e he
    simp only [Memory.store, List.mem_append, List.mem_filter] at he
    rcases he with (he | he) | he
    · exact h1 e he.1
    · exact (mem_cellsOf _ _ e he).2.2
    · exact h1 e he.1
  · simp only [Memory.store, List.pairwise_append, List.mem_append, List.mem_filter, decide_eq_true_eq]
    refine ⟨⟨h2.filter _, pairwise_cellsOf _ _, ?_⟩, h2.filter _, ?_⟩
    · intro x hx y hy; have := mem_cellsOf _ _ y hy; omega
    · rintro x (hx | hx) y hy
      · omega
      · have := mem_cellsOf _ _ x hx; omega

/-- Memory right after reset lists nothing: canonical. -/
theorem reset_memory_wf : Memory.wf State.reset.dev.host = true ∧ Memory.wf State.reset.dev.mem.bytes = true := ⟨rfl, rfl⟩

end Sys2Proof.Machine
end

