-- ==== Sys2Proof/Laws/Ops.lean ====
section
/-!
SUPPORT. What the shared operations over a device can do: what a part reads as after a change of a part, where local
addresses lead, what a tally reads as, and, for each larger operation, the fields it can change: `e = { d with … }`.
-/
namespace Sys2Proof.Machine

/-! ## Parts -/

theorem getD_modify {α : Type} (l : List α) (n m : Nat) (g : α → α) (x : α) :
    (l.modify n g).getD m x = if m = n ∧ n < l.length then g (l.getD n x) else l.getD m x := by
  simp only [List.getD_eq_getElem?_getD, List.getElem?_modify]
  by_cases h : n = m
  · subst h
    by_cases hl : n < l.length <;> simp [hl]
  · simp [h, Ne.symm h]

theorem Device.site_onSite (d : Device) (n m : Nat) (g : Site → Site) :
    (d.onSite n g).site m = if m = n ∧ n < d.sites.length then g (d.site n) else d.site m := getD_modify ..
theorem Device.fold_onFold (d : Device) (n m : Nat) (g : Fold → Fold) :
    (d.onFold n g).fold m = if m = n ∧ n < d.folds.length then g (d.fold n) else d.fold m := getD_modify ..
theorem Device.link_onLink (d : Device) (n m : Nat) (g : Link → Link) :
    (d.onLink n g).link m = if m = n ∧ n < d.links.length then g (d.link n) else d.link m := getD_modify ..
theorem Device.fn_onFn (d : Device) (n m : Nat) (g : FnRegs → FnRegs) :
    (d.onFn n g).fn m = if m = n ∧ n < d.fns.length then g (d.fn n) else d.fn m := getD_modify ..
theorem Device.quarter_onQuarter (d : Device) (n m : Nat) (g : Quarter → Quarter) :
    (d.onQuarter n g).quarter m =
      if m = n ∧ n < d.mem.quarters.length then g (d.quarter n) else d.quarter m := getD_modify ..
theorem Device.heft_onHeft (d : Device) (n m : Nat) (g : Heft → Heft) :
    (d.onHeft n g).heft m = if m = n ∧ n < d.hefts.length then g (d.heft n) else d.heft m := by
  simp only [Device.heft, Device.onHeft, List.getD_eq_getElem?_getD, List.getElem?_modify]
  by_cases h : n = m
  · subst h
    by_cases hl : n < d.hefts.length <;> simp [hl]
  · simp [h, Ne.symm h]
theorem Device.ring_setRing (d : Device) (n m : Nat) (r : Ring) :
    (d.setRing n r).ring m = if m = n then r else d.ring m := sget_sset ..
theorem Device.drive_onDrive (d : Device) (f n m : Nat) (g : Drive → Drive) (hf : f < d.folds.length) :
    (d.onDrive f n g).drive f m = if m = n then (d.drive f n).map g else d.drive f m := by
  unfold Device.onDrive
  split
  · rename_i v hv
    simp only [Device.drive, Device.fold_onFold, hf, and_self, if_true, slook_sput]
    simp only [Device.drive] at hv
    split <;> simp_all
  · rename_i hv; split <;> simp_all

/-! ## Places -/

theorem Device.mem_foldSites (d : Device) (f n : Nat) (h : n ∈ d.foldSites f) :
    n < d.sites.length ∧ (d.site n).fold = f := by
  simp only [Device.foldSites, List.mem_filter, List.mem_filterMap, Device.siteOf, decide_eq_true_eq] at h
  obtain ⟨⟨l, _, hl⟩, hf⟩ := h
  exact ⟨(List.findIdx?_eq_some_iff_findIdx_eq.mp hl).1, hf⟩

/-- A local address that names a paddock names one of the fold's. -/
theorem Device.place_pad (d : Device) (f x n off : Nat) (h : d.place f x = some (.pad n off)) :
    n < d.sites.length ∧ (d.site n).fold = f ∧ off = x % padSize := by
  simp only [Device.place] at h
  split at h
  · split at h <;> simp at h
  · split at h
    · simp only [Option.map_eq_some_iff, Place.pad.injEq] at h
      obtain ⟨m, hm, rfl, rfl⟩ := h
      exact ⟨(d.mem_foldSites f _ (List.mem_of_getElem? hm)).1, (d.mem_foldSites f _ (List.mem_of_getElem? hm)).2, rfl⟩
    · simp at h

/-- A local address that names LPDDR5X names a byte of the fold's share. -/
theorem Device.place_lp (d : Device) (f x a : Nat) (h : d.place f x = some (.lp a)) :
    x < d.share ∧ a = f * d.share + x := by
  simp only [Device.place] at h
  split at h
  · split at h <;> simp_all
  · split at h
    · simp only [Option.map_eq_some_iff] at h
      obtain ⟨m, _, hm⟩ := h; simp at hm
    · simp at h

/-- What every step of a fold keeps, the fold keeps. -/
theorem foldl_keeps {α β : Type} (P : β → Prop) (g : β → α → β) (h : ∀ b a, P b → P (g b a)) (l : List α) (b : β)
    (hb : P b) : P (l.foldl g b) := by
  induction l generalizing b with
  | nil => exact hb
  | cons a l ih => exact ih _ (h b a hb)

/-! ## Local memory -/

/-- e is d but for its sites, hefts, memory and counter of free values. -/
def Device.sameButMem (d e : Device) : Prop :=
  ∃ si he me fr, e = { d with sites := si, hefts := he, mem := me, free := fr }

theorem Device.sameButMem_refl (d : Device) : d.sameButMem d := ⟨_, _, _, _, rfl⟩
theorem Device.sameButMem_trans {a b c : Device} (h : a.sameButMem b) (k : b.sameButMem c) : a.sameButMem c := by
  obtain ⟨_, _, _, _, rfl⟩ := h
  obtain ⟨_, _, _, _, rfl⟩ := k
  exact ⟨_, _, _, _, rfl⟩

/-- e is d but for its hefts, memory and counter of free values: what an access to LPDDR5X changes. -/
def Device.sameButLp (d e : Device) : Prop := ∃ he me fr, e = { d with hefts := he, mem := me, free := fr }

theorem Device.sameButLp_refl (d : Device) : d.sameButLp d := ⟨_, _, _, rfl⟩
theorem Device.sameButLp_trans {a b c : Device} (h : a.sameButLp b) (k : b.sameButLp c) : a.sameButLp c := by
  obtain ⟨_, _, _, rfl⟩ := h
  obtain ⟨_, _, _, rfl⟩ := k
  exact ⟨_, _, _, rfl⟩
theorem Device.sameButMem_of_lp {d e : Device} (h : d.sameButLp e) : d.sameButMem e := by
  obtain ⟨_, _, _, rfl⟩ := h; exact ⟨_, _, _, _, rfl⟩

theorem Device.useCheck_lp (d : Device) (c : Nat) (wr : Bool) : d.sameButLp (d.useCheck c wr) := by
  unfold Device.useCheck
  extract_lets q l
  split
  · split <;> exact ⟨_, _, _, rfl⟩
  · split <;> exact ⟨_, _, _, rfl⟩

theorem Device.touchChunk_lp (d : Device) (c : Nat) (wr : Bool) : d.sameButLp (d.touchChunk c wr) := by
  unfold Device.touchChunk
  extract_lets q m d1 d2
  have h2 : d.sameButLp d2 := by simp only [d2]; split <;> exact ⟨_, _, _, rfl⟩
  have h3 : ∀ g, d.sameButLp (d2.onQuarter q g) := fun g => Device.sameButLp_trans h2 ⟨_, _, _, rfl⟩
  exact Device.sameButLp_trans (h3 _) (Device.useCheck_lp ..)

theorem Device.touchMem_lp (d : Device) (a n : Nat) (wr : Bool) : d.sameButLp (d.touchMem a n wr) := by
  unfold Device.touchMem
  split
  · exact d.sameButLp_refl
  · exact foldl_keeps (fun (e : Device) => d.sameButLp e) _ (fun e _ h => Device.sameButLp_trans h (e.touchChunk_lp ..)) _ _ d.sameButLp_refl

theorem Device.checkHalf_lp (d : Device) (a half kind : Nat) (e : Ecc) : d.sameButLp (d.checkHalf a half kind e) := by
  unfold Device.checkHalf
  extract_lets q h
  split
  · exact ⟨_, _, _, rfl⟩
  · cases e <;> exact ⟨_, _, _, rfl⟩

/-- A read of LPDDR5X changes hefts, memory and the counter of free values alone. -/
theorem Device.memRead_lp (d : Device) (a n : Nat) (errs : List (Nat × Ecc)) : d.sameButLp (d.memRead a n errs) := by
  unfold Device.memRead
  extract_lets d1
  have h1 : d.sameButLp d1 := d.touchMem_lp ..
  split
  · exact h1
  · exact foldl_keeps (fun (e : Device) => d.sameButLp e) _ (fun e _ h => Device.sameButLp_trans h (e.checkHalf_lp ..)) _ _ h1

/-- A write of LPDDR5X changes hefts, memory and the counter of free values alone. -/
theorem Device.memWrite_lp (d : Device) (k : Key) (a : Nat) (bs : List Byte) (bad : List (Nat × Nat)) :
    d.sameButLp (d.memWrite k a bs bad) := by
  unfold Device.memWrite
  extract_lets d1 d2
  have h1 : d.sameButLp d1 := d.touchMem_lp ..
  have h2 : d.sameButLp d2 := by
    simp only [d2]
    split
    · exact h1
    · refine foldl_keeps (fun (e : Device) => d.sameButLp e) _ (fun e i h => ?_) _ _ h1
      split
      · exact Device.sameButLp_trans h (e.checkHalf_lp ..)
      · exact h
  exact Device.sameButLp_trans h2 ⟨_, _, _, rfl⟩

/-- A write at a local address changes sites, hefts, memory and the counter of free values alone. -/
theorem Device.writeLocal_same (d : Device) (f x : Nat) (bs : List Byte) (bad : List (Nat × Nat)) :
    d.sameButMem (d.writeLocal f x bs bad) := by
  unfold Device.writeLocal
  split
  · exact Device.sameButMem_of_lp (d.memWrite_lp ..)
  · split
    · exact ⟨_, _, _, _, rfl⟩
    · refine foldl_keeps (fun (e : Device) => d.sameButMem e) _ ?_ _ _ d.sameButMem_refl
      intro e i h
      split
      · exact Device.sameButMem_trans h ⟨_, _, _, _, rfl⟩
      · exact h
  · exact d.sameButMem_refl

/-- A read at a local address changes sites, hefts, memory and the counter of free values alone. -/
theorem Device.transferRead_same (d : Device) (f x n : Nat) (errs : List (Nat × Ecc)) :
    d.sameButMem (d.transferRead f x n errs) := by
  unfold Device.transferRead
  refine foldl_keeps (fun (e : Device) => d.sameButMem e) _ ?_ _ _ d.sameButMem_refl
  intro e p h
  dsimp only
  split
  · exact Device.sameButMem_trans h ⟨_, _, _, _, rfl⟩
  · exact Device.sameButMem_trans h (Device.sameButMem_of_lp (e.memRead_lp ..))
  · exact h

/-- A write of one fold leaves the sites of others alone. -/
theorem Device.writeLocal_site (d : Device) (f x m : Nat) (bs : List Byte) (bad : List (Nat × Nat))
    (h : (d.site m).fold ≠ f) : (d.writeLocal f x bs bad).site m = d.site m := by
  unfold Device.writeLocal
  split
  · obtain ⟨he, me, fr, h⟩ := d.memWrite_lp (d.fold f).key _ bs bad
    rw [h]; rfl
  · rename_i n off hp
    have hn := d.place_pad f x n off hp
    have hm : m ≠ n := fun e => h (e ▸ hn.2.1)
    split
    · rw [Device.site_onSite]; simp [hm]
    · refine foldl_keeps (fun (e : Device) => e.site m = d.site m) _ ?_ _ _ rfl
      intro e i he
      split
      · rename_i n' off' hp'
        have hn' := e.place_pad f (x + i) n' off' hp'
        have : m ≠ n' := fun e' => h (by rw [← he]; exact e' ▸ hn'.2.1)
        rw [Device.site_onSite]; simp [this, he]
      · exact he
  · rfl

/-- A write into a paddock that is being cleared is discarded (R158). -/
@[simp] theorem Site.padWrite_clearing (t : Site) (a : Nat) (bs : List Byte) (bad : List (Nat × Nat))
    (h : t.clearing = true) : t.padWrite a bs bad = t := by simp [Site.padWrite, h]

/-- Bytes of a paddock after a write into it. -/
theorem Site.padWrite_read (t : Site) (a c : Nat) (bs : List Byte) (bad : List (Nat × Nat)) (h : t.clearing = false) :
    (t.padWrite a bs bad).pad.read c = if a ≤ c ∧ c < a + bs.length then bs.getD (c - a) 0#8 else t.pad.read c := by
  simp [Site.padWrite, h, Memory.read_store]

@[simp] theorem Device.readLocal_length (d : Device) (f x n : Nat) : (d.readLocal f x n).length = n := by
  unfold Device.readLocal
  split
  · simp [Mem.read]
  · split
    · simp only [Site.padBytes]
      repeat' split
      all_goals simp [Memory.bytes]
    · simp
  · simp

/-- A read under a key, byte by byte. -/
theorem Mem.read_eq (m : Mem) (k : Key) (a n : Nat) : m.read k a n = (List.range n).map fun i => m.byte k (a + i) := by
  simp only [Mem.read, Mem.byte, Memory.read]
  refine List.map_congr_left fun i hi => ?_
  have hi := List.mem_range.mp hi
  have h1 := sget_filter 0#8 m.bytes (fun c => decide (a ≤ c) && decide (c < a + n)) (a + i)
  have h2 := sget_filter Key.none m.lineKey (fun c => decide (a / 64 ≤ c) && decide (c ≤ (a + n) / 64)) ((a + i) / 64)
  have h3 : a / 64 ≤ (a + i) / 64 := by omega
  have h4 : (a + i) / 64 ≤ (a + n) / 64 := by omega
  rw [h1, h2]; simp [h3, h4, hi]

/-! ## Tallies -/

theorem Device.tallyAt_pen (d : Device) (f id n t : Nat) (h : d.tallyAt f id = some (.pen n t)) : n < d.sites.length := by
  simp only [Device.tallyAt] at h
  split at h
  · simp only [Option.map_eq_some_iff, TallyAt.pen.injEq] at h
    obtain ⟨m, hm, rfl, _⟩ := h
    exact (d.mem_foldSites f _ (List.mem_of_getElem? hm)).1
  · split at h <;> simp at h

theorem Device.tallyPut_eq (d : Device) (p : TallyAt) (v : W32) :
    ∃ si g, d.tallyPut p v = { d with sites := si, gtally := g } := by
  cases p <;> exact ⟨_, _, rfl⟩

theorem Device.tallyGet_tallyPut (d : Device) (p q : TallyAt) (v : W32)
    (h : ∀ n t, p = .pen n t → n < d.sites.length) :
    (d.tallyPut p v).tallyGet q = if q = p then v else d.tallyGet q := by
  cases p with
  | pen n t =>
    have hn := h n t rfl
    cases q with
    | pen m u =>
      simp only [Device.tallyPut, Device.tallyGet, Device.site_onSite, hn, and_true, TallyAt.pen.injEq]
      by_cases hm : m = n
      · subst hm; simp [sget_sset]
      · simp [hm]
    | global g => simp [Device.tallyPut, Device.tallyGet]
  | global g =>
    cases q with
    | pen m u => simp [Device.tallyPut, Device.tallyGet, Device.site]
    | global k => simp [Device.tallyPut, Device.tallyGet, sget_sset]

/-! ## Control flits -/

theorem Device.capture_eq (d : Device) (c : CtlFlit) : ∃ tr, d.capture c = { d with trace := tr } := by
  simp only [Device.capture]
  split <;> exact ⟨_, rfl⟩

/-- A flit issued changes the trace and the ring alone. -/
theorem Device.inject_eq (d : Device) (src : Nat × Nat) (c : CtlFlit) :
    ∃ tr ctl, d.inject src c = { d with trace := tr, fabric := { d.fabric with ctl := ctl } } := by
  obtain ⟨tr, h⟩ := d.capture_eq c
  simp only [Device.inject, h]
  exact ⟨_, _, rfl⟩

/-- A flit arrives with its effect on a device that differs in hefts, trace and the ring alone, or another goes before it and
nothing happens. -/
theorem Device.onArrive_eq (d : Device) (c : CtlFlit) (g : Device → Device) :
    d.onArrive c g = d ∨ ∃ he tr ctl, d.onArrive c g = g { d with hefts := he, trace := tr, fabric := { d.fabric with ctl := ctl } } := by
  have hw : ∀ e : Device, ∃ he, (match c with
      | .musterRelease _ _ _ n _ | .rampGrant n _ => e.wake n
      | .tallyAdd f id _ | .tallySet f id _ => match e.tallyAt f id with | some (.pen n _) => e.wake n | _ => e
      | _ => e) = { e with hefts := he } := by
    intro e
    cases c with
    | musterRelease => exact ⟨_, rfl⟩
    | rampGrant => exact ⟨_, rfl⟩
    | tallyAdd f id _ => dsimp only; split <;> exact ⟨_, rfl⟩
    | tallySet f id _ => dsimp only; split <;> exact ⟨_, rfl⟩
    | _ => exact ⟨_, rfl⟩
  unfold Device.onArrive
  extract_lets woken
  have hk : ∀ e : Device, ∃ he, woken e = { e with hefts := he } := hw
  split
  · obtain ⟨he, h⟩ := hk { d with fabric := { d.fabric with ctl := refill (d.room ctlRoom) _ _ } }
    rw [h]; exact .inr ⟨_, _, _, rfl⟩
  · split
    · exact .inl rfl
    · obtain ⟨tr, h⟩ := d.capture_eq c
      obtain ⟨he, h'⟩ := hk (d.capture c)
      rw [h', h]; exact .inr ⟨_, _, _, rfl⟩

/-! ## Packets sent -/

/-- e is d but for its link ports and outputs: what sending a packet changes. -/
def Device.sameButSent (d e : Device) : Prop := ∃ li ou, e = { d with links := li, out := ou }

theorem Device.sameButSent_refl (d : Device) : d.sameButSent d := ⟨_, _, rfl⟩
theorem Device.sameButSent_trans {a b c : Device} (h : a.sameButSent b) (k : b.sameButSent c) : a.sameButSent c := by
  obtain ⟨_, _, rfl⟩ := h
  obtain ⟨_, _, rfl⟩ := k
  exact ⟨_, _, rfl⟩

theorem Device.sendOn_same (d : Device) (k : Nat) (p : Packet) : d.sameButSent (d.sendOn k p) := by
  unfold Device.sendOn
  extract_lets l
  split
  · exact d.sameButSent_refl
  · split <;> exact ⟨_, _, rfl⟩

theorem Device.sendTo_same (d : Device) (p : Packet) : d.sameButSent (d.sendTo p) := by
  unfold Device.sendTo
  split
  · exact d.sendOn_same ..
  · exact d.sameButSent_refl

theorem Device.tell_same (d : Device) (r : Nat) (m : Vc0) : d.sameButSent (d.tell r m) := by
  unfold Device.tell
  split
  · exact ⟨_, _, rfl⟩
  · exact d.sendTo_same ..

theorem Device.tellBell_same (d : Device) (m : Vc0) : d.sameButSent (d.tellBell m) := by
  unfold Device.tellBell
  split
  · exact d.tell_same ..
  · exact d.sameButSent_refl

/-! ## Completions -/

/-- e is d but for the descriptors in progress, the rings, the host port, host memory, the link ports and the outputs. -/
def Device.sameButRings (d e : Device) : Prop :=
  ∃ de ri hp ho li ou, e = { d with descs := de, rings := ri, hport := hp, host := ho, links := li, out := ou }

theorem Device.sameButRings_refl (d : Device) : d.sameButRings d := ⟨_, _, _, _, _, _, rfl⟩
theorem Device.sameButRings_trans {a b c : Device} (h : a.sameButRings b) (k : b.sameButRings c) : a.sameButRings c := by
  obtain ⟨_, _, _, _, _, _, rfl⟩ := h
  obtain ⟨_, _, _, _, _, _, rfl⟩ := k
  exact ⟨_, _, _, _, _, _, rfl⟩
theorem Device.sameButRings_of_sent {d e : Device} (h : d.sameButSent e) : d.sameButRings e := by
  obtain ⟨_, _, rfl⟩ := h; exact ⟨_, _, _, _, _, _, rfl⟩

theorem Device.hostWrite_same (d : Device) (a : Nat) (bs : List Byte) : d.sameButRings (d.hostWrite a bs) := by
  unfold Device.hostWrite
  split
  · exact foldl_keeps (fun (e : Device) => d.sameButRings e) _
      (fun e _ h => Device.sameButRings_trans h (Device.sameButRings_of_sent (e.sendTo_same _))) _ _ d.sameButRings_refl
  · exact ⟨_, _, _, _, _, _, rfl⟩

theorem Device.msix_same (d : Device) (r : Ring) : d.sameButRings (d.msix r) := by
  unfold Device.msix
  split
  · exact Device.sameButRings_of_sent (d.sendTo_same _)
  · exact ⟨_, _, _, _, _, _, rfl⟩

theorem Device.post_same (d : Device) (x : Desc) (status detail : Nat) : d.sameButRings (d.post x status detail) := by
  unfold Device.post
  extract_lets sq c cq d1 d2
  split
  · exact ⟨_, _, _, _, _, _, rfl⟩
  · have h2 : d.sameButRings d2 := Device.sameButRings_trans (d.hostWrite_same ..) ⟨_, _, _, _, _, _, rfl⟩
    split
    · exact Device.sameButRings_trans h2 (d2.msix_same _)
    · exact h2

theorem Device.drained_same (d : Device) (sq : Nat) : d.sameButRings (d.drained sq) := by
  unfold Device.drained
  extract_lets r
  split <;> exact ⟨_, _, _, _, _, _, rfl⟩

/-- A completion changes the descriptors in progress, the rings, the host port, host memory, the link ports and the outputs
alone. -/
theorem Device.finish_same (d : Device) (sq idx status detail : Nat) : d.sameButRings (d.finish sq idx status detail) := by
  unfold Device.finish
  split
  · exact d.sameButRings_refl
  · extract_lets d1 d2 c cq d3
    refine Device.sameButRings_trans ?_ (d3.drained_same _)
    have h2 : d.sameButRings d2 := ⟨_, _, _, _, _, _, rfl⟩
    simp only [d3]
    split
    · exact Device.sameButRings_trans h2 ⟨_, _, _, _, _, _, rfl⟩
    · exact Device.sameButRings_trans h2 (d2.post_same ..)

theorem Device.sweepGo_same (n : Nat) (d : Device) (sq : Nat) : d.sameButRings (Device.sweepGo n d sq) := by
  induction n generalizing d with
  | zero => exact d.sameButRings_refl
  | succ n ih =>
    unfold Device.sweepGo
    split
    · exact Device.sameButRings_trans (d.finish_same ..) (ih _)
    · exact d.sameButRings_refl

/-- A completion with what follows it changes no more than one completion does. -/
theorem Device.complete_same (d : Device) (sq idx status detail : Nat) : d.sameButRings (d.complete sq idx status detail) :=
  Device.sameButRings_trans (d.finish_same ..) (Device.sweepGo_same ..)

theorem Device.completeStep_same (d : Device) (r : Option StepRec) (status detail : Nat) :
    d.sameButRings (d.completeStep r status detail) := by
  unfold Device.completeStep
  split
  · exact d.complete_same ..
  · exact d.sameButRings_refl

theorem Device.abortSteps_same (d : Device) (f s status : Nat) : d.sameButRings (d.abortSteps f s status) :=
  foldl_keeps (fun (e : Device) => d.sameButRings e) _ (fun _ _ h => Device.sameButRings_trans h (Device.complete_same ..)) _ _
    d.sameButRings_refl

/-! ## Drives -/

theorem Device.onDrive_eq (d : Device) (f s : Nat) (g : Drive → Drive) : ∃ fo, d.onDrive f s g = { d with folds := fo } := by
  unfold Device.onDrive
  split <;> exact ⟨_, rfl⟩

theorem Device.onSites_eq (d : Device) (ns : List Nat) (g : Site → Site) : ∃ si, d.onSites ns g = { d with sites := si } := by
  refine foldl_keeps (fun (e : Device) => ∃ si, e = { d with sites := si }) _ ?_ _ _ ⟨_, rfl⟩
  rintro e n ⟨si, rfl⟩
  exact ⟨_, rfl⟩

theorem Device.alert_eq (d : Device) (b : Nat) : ∃ po, d.alert b = { d with power := po } := by
  unfold Device.alert
  split
  · split <;> exact ⟨_, rfl⟩
  · exact ⟨_, rfl⟩

/-- e is d but for folds, sites, the requests of shears and collectives, the flock, the counter of free values, and what a
completion changes: what ending a drive changes. No memory, no global tally, no register of another unit. -/
def Device.sameButStop (d e : Device) : Prop :=
  ∃ fo si sh co fl fr de ri hp ho li ou, e =
    { d with folds := fo, sites := si, shears := sh, coll := co, flock := fl, free := fr, descs := de, rings := ri, hport := hp
             host := ho, links := li, out := ou }

theorem Device.sameButStop_refl (d : Device) : d.sameButStop d := ⟨_, _, _, _, _, _, _, _, _, _, _, _, rfl⟩
theorem Device.sameButStop_trans {a b c : Device} (h : a.sameButStop b) (k : b.sameButStop c) : a.sameButStop c := by
  obtain ⟨_, _, _, _, _, _, _, _, _, _, _, _, rfl⟩ := h
  obtain ⟨_, _, _, _, _, _, _, _, _, _, _, _, rfl⟩ := k
  exact ⟨_, _, _, _, _, _, _, _, _, _, _, _, rfl⟩
theorem Device.sameButStop_of_rings {d e : Device} (h : d.sameButRings e) : d.sameButStop e := by
  obtain ⟨_, _, _, _, _, _, rfl⟩ := h; exact ⟨_, _, _, _, _, _, _, _, _, _, _, _, rfl⟩

/-- A stop changes no paddock but by name, no memory, no global tally, no register of another unit. -/
theorem Device.stopDrive_same (d : Device) (f s source status pen addr : Nat) :
    d.sameButStop (d.stopDrive f s source status pen addr) := by
  unfold Device.stopDrive
  split
  · exact d.sameButStop_refl
  · rename_i v _
    split
    · exact d.sameButStop_refl
    · extract_lets rc d1 ran d2 d3 d4 detail d5 d6 d7 d8
      have h1 : d.sameButStop d1 := by obtain ⟨fo, h⟩ := d.onDrive_eq f s _; exact ⟨fo, _, _, _, _, _, _, _, _, _, _, _, h⟩
      have h2 : d.sameButStop d2 := Device.sameButStop_trans h1 ⟨_, _, _, _, _, _, _, _, _, _, _, _, rfl⟩
      have h3 : d.sameButStop d3 := by
        simp only [d3]
        split
        · obtain ⟨si, hs⟩ := d2.onSites_eq (d2.foldSites f) _
          exact Device.sameButStop_trans h2 ⟨_, si, _, _, _, _, _, _, _, _, _, _, hs⟩
        · exact h2
      have h4 : d.sameButStop d4 := Device.sameButStop_trans h3 ⟨_, _, _, _, _, _, _, _, _, _, _, _, rfl⟩
      have h8 : d.sameButStop d8 := by
        refine Device.sameButStop_trans h4 (Device.sameButStop_of_rings ?_)
        refine foldl_keeps (fun (e : Device) => d4.sameButRings e) _ (fun _ _ h => Device.sameButRings_trans h (Device.complete_same ..)) _ _ ?_
        exact Device.sameButRings_trans (Device.completeStep_same ..)
          (Device.sameButRings_trans (Device.completeStep_same ..) (Device.abortSteps_same ..))
      have h9 : ∀ m, d.sameButStop (d8.tellBell m) := fun m =>
        Device.sameButStop_trans h8 (Device.sameButStop_of_rings (Device.sameButRings_of_sent (d8.tellBell_same m)))
      split
      · split
        · unfold Device.declareFailed
          extract_lets e
          have he : d.sameButStop e := h9 _
          split
          · exact Device.sameButStop_trans he ⟨_, _, _, _, _, _, _, _, _, _, _, _, rfl⟩
          · exact he
        · exact h9 _
      · exact h8

theorem Device.stopAt_same (d : Device) (n status addr : Nat) : d.sameButStop (d.stopAt n status addr) := by
  unfold Device.stopAt
  extract_lets f
  split
  · exact d.stopDrive_same ..
  · exact d.sameButStop_refl

theorem Device.stopOpen_same (d : Device) (f s status : Nat) : d.sameButStop (d.stopOpen f s status) :=
  Device.sameButStop_trans (d.stopDrive_same ..) ⟨_, _, _, _, _, _, _, _, _, _, _, _, rfl⟩

/-! ## Increments -/

/-- An increment changes its tally, or ends the drive whose tally cannot be read. -/
theorem Device.tallyAdd_same (d : Device) (f id inc : Nat) :
    ∃ g, ({ d with gtally := g } : Device).sameButStop (d.tallyAdd f id inc) := by
  unfold Device.tallyAdd
  split
  · split
    · rename_i p _ _
      refine ⟨d.gtally, ?_⟩
      cases p with
      | pen n t =>
        exact Device.sameButStop_trans (d.stopAt_same n 0x09 _) ⟨_, _, _, _, _, _, _, _, _, _, _, _, rfl⟩
      | global g =>
        simp only [Device.tallyStop]
        split
        · exact d.stopOpen_same ..
        · exact d.sameButStop_refl
    · obtain ⟨si, g, h⟩ := d.tallyPut_eq _ _
      exact ⟨g, _, si, _, _, _, _, _, _, _, _, _, _, h⟩
  · exact ⟨d.gtally, d.sameButStop_refl⟩

/-- An increment of a tally that can be read is the sum modulo 2^32 (R199). -/
theorem Device.tallyAdd_good (d : Device) (f id inc : Nat) (p : TallyAt) (h : d.tallyAt f id = some p) (hb : d.tallyBad p = false) :
    d.tallyAdd f id inc = d.tallyPut p (d.tallyGet p + BitVec.ofNat 32 inc) := by
  simp [Device.tallyAdd, h, hb]

/-! ## Refusals -/

/-- A refusal changes the registers of its own function alone (R525). -/
theorem Device.fn_refuse (d : Device) (fn g status off : Nat) (ap : Bool) (h : g ≠ fn) :
    (d.refuse fn status off ap).fn g = d.fn g := by
  simp [Device.refuse, Device.fn_onFn, h]

end Sys2Proof.Machine
end

