-- ==== Sys2Proof/Machine/Keys.lean ====
section
/-!
DEFINITION. Key derivation (14, R446, pseudocode Derivations). State names a key by what it is derived from (`Key`, the epoch of a
link); these functions give its bytes. HMAC and the counter-mode KDF are FIPS 198-1 and SP 800-108 (PRESUMED, log entry 14).
-/
namespace Sys2Proof.Machine

/-- Byte i of the device secret, drawn at manufacture (R432). FREE VALUE, log entry 11. -/
opaque Config.deviceSecret (i : Nat) : Byte
/-- Byte i of the ECDH secret z of a port's key agreement (R449). FREE VALUE, log entry 11. -/
opaque Config.sharedSecret (port epoch i : Nat) : Byte
/-- Byte i of the SHA-512 over all that a port's key agreement exchanged (R449). FREE VALUE, log entry 11. -/
opaque Config.transcript (port epoch i : Nat) : Byte

/-- HMAC-SHA-512. -/
def hmac (key msg : List Byte) : List Byte :=
  let k := if 128 < key.length then sha512 key else key
  let k := k ++ List.replicate (128 - k.length) 0#8
  sha512 (k.map (· ^^^ 0x5C#8) ++ sha512 (k.map (· ^^^ 0x36#8) ++ msg))

/-- kdf(key, label, context, bits), for the at most 512 bits that the pseudocode Derivations asks for: one block of the
counter mode. -/
def kdf (key label context : List Byte) (bits : Nat) : List Byte :=
  (hmac key (beBytes 4 1 ++ label ++ [0#8] ++ context ++ beBytes 4 bits)).take (bits / 8)

/-- The bytes of "ahnv " and a word. -/
def keyLabel (w : List Nat) : List Byte := ([0x61, 0x68, 0x6E, 0x76, 0x20] ++ w).map (BitVec.ofNat 8)

/-- The key that wraps the security record (R446, R454). -/
def Device.kekBytes (d : Device) : List Byte :=
  kdf ((List.range 32).map Config.deviceSecret) (keyLabel [0x6B, 0x65, 0x6B]) (leBytes 4 d.sec.fuses.coteGen) 256

/-- The cote key of fold f under the cote root at hand; none without one (R446, R447). -/
def Device.coteKeyBytes (d : Device) (f : Nat) : Option (List Byte) :=
  d.sec.root.map fun n => kdf (randomBytes n 32) (keyLabel [0x63, 0x6F, 0x74, 0x65])
    (leBytes 1 d.foldCount ++ leBytes 1 f ++ leBytes 4 (d.fold f).epoch) 512

/-- The two keys of a link after its key agreement: from the lower rank to the higher, and back (R446, R449). -/
def Device.linkKeyBytes (d : Device) (k : Nat) : List Byte × List Byte :=
  let l := d.link k
  let mine := (d.flock.rank, k)
  let peer := (l.peerRank, l.peerPort)
  let lo := if mine.1 ≤ peer.1 then mine else peer
  let hi := if mine.1 ≤ peer.1 then peer else mine
  let out := kdf ((List.range 66).map (Config.sharedSecret k l.epoch)) (keyLabel [0x6C, 0x69, 0x6E, 0x6B])
    (leBytes 1 lo.1 ++ leBytes 1 lo.2 ++ leBytes 1 hi.1 ++ leBytes 1 hi.2 ++ leBytes 4 l.epoch ++
      (List.range 64).map (Config.transcript k l.epoch)) 512
  (out.take 32, out.drop 32)

end Sys2Proof.Machine
end

