-- ==== Sys2Proof/Tests/Slice0.lean ====
section
/-!
SUPPORT. Tests. For every statement with hypotheses, witnesses: small devices and operands that meet the hypotheses of each
of its clauses together (wit_…; the docstring names the statements). The spec's worked examples and a few single steps
(test_…). Ill-formed commands that Instr.wf refuses (test_wf_…). Values that this file gives a state are of its own making
and no reset values.
-/
namespace Sys2Proof.Tests
open Sys2Proof.Machine
set_option Elab.async false

/-- A pen in service with a logical number. -/
def tPen (l : Nat) : Site := { Site.reset with state := 0, logical := l }

/-- A drive with the whole of everything. -/
def tDrive : Drive where
  first := 0
  pbase := 0
  psize := 64
  tfirst := 0
  tcount := 3072
  gfirst := 0
  gcount := 8192
  hfirst := 0
  hcount := 4096
  pstride := 0
  tstride := 0
  snap := 0
  sbase := 0
  ssize := 8192
  hbase := 0
  hsize := 4096
  xbase := 0
  xsize := 65536
  digest := []
  pens := 2
  unlogged := true
  streams := [(0, 0), (0, 0)]
  watchBase := 0
  stopped := none
  ended := false
  opened := none
  prepared := none
  last := 0
  closed := none
  high := none
  chain := []
  past := []
  sbPos := 0
  hbPos := 0
  usage := 0
  dmas := []
  commits := []
  snapDue := false
  expDue := false
  trig := false
  abandoned := false
  paused := none
  written := []

/-- A device in full service: pens 0 and 1 on sites 0 and 1, site 2 a spare, one fold that runs the drive of slot 0. -/
def tDev : Device := { Device.reset with
  idrev := 0x57B40111#32
  bring := { Device.reset.bring with stage := 4, kat := true, portUp := true }
  sec := { Device.reset.sec with state := 1, drbg := true, kek := true, root := some 0 }
  sites := tPen 0 :: tPen 1 :: { Site.reset with state := 1 } :: List.replicate 39 .reset
  folds := { Fold.reset with state := 2, key := .drawn 0, drives := [(0, tDrive)], running := some 0, occ := some 0 } ::
    List.replicate 7 .reset
  mem := { Mem.reset with state := 2 } }

/-- The device with site 0's sequencer set. -/
def tSeq (q : Seqr) : Device := tDev.onSite 0 fun t => { t with seqr := q }
/-- The device whose pen 0 is about to decode some words. -/
def tFetch (ws : List W128) (stack : List Nat) : Device :=
  tSeq { Seqr.empty with ended := false, pc := 0x100, fetched := ws, limit := 0x10000, stack := stack }
/-- The device with a command at the head of pen 0's forward queue. -/
def tHead (b : Body) : Device := tSeq { Seqr.empty with fwd := [⟨0x100, 1, false, 0, 0, false, b⟩] }
/-- Whether the head of pen 0's forward queue may issue with a done tally the drive may name, and p holds of it. -/
def heads (d : Device) (p : Issue → Bool) : Bool :=
  match d.ready 0 .fwd with
  | some i => match d.doneOf i with
    | some _ => p i
    | none => false
  | none => false
/-! ## Pen command streams -/

/-- The pen's two streams open their steps together; no, one or seven returns are on the stack; NOP is one word of one. Witness for O11. -/
theorem wit_flow :
    (tFetch [0x0#128] []).nextWord 0 = some (tDrive, .nop 1, 1) ∧ ((tFetch [0x0#128] []).site 0).seqr.fetched.length = 1 ∧
    (tFetch [0x2#128 + 0x4000#128 <<< 32] []).nextWord 0 = some (tDrive, .jump 0x4000, 1) ∧
    ((tFetch [] []).streamLimit 0 tDrive 0x4000).isSome = true ∧ (tFetch [] []).sites.length = 42 ∧
    (tFetch [0x3#128 + 0x4000#128 <<< 32] [1, 2, 3, 4, 5, 6, 7]).nextWord 0 = some (tDrive, .call 0x4000, 1) ∧
    (tFetch [0x4#128] [0x4000]).nextWord 0 = some (tDrive, .ret, 1) ∧
    (tFetch [0x1#128] []).nextWord 0 = some (tDrive, .stop, 1) ∧
    ((tFetch [0x1#128] []).site 0).seqr.stepF = ((tFetch [0x1#128] []).site 0).seqr.stepB := by decide +kernel
/-- Streams lie on 16-byte boundaries, in the share or the drive's extent of the pen's own paddock (R159). Witness for O11. -/
theorem wit_flow_stops :
    (tFetch [0x2#128 + 0x4008#128 <<< 32] []).nextWord 0 = some (tDrive, .jump 0x4008, 1) ∧
    (tFetch [] []).streamLimit 0 tDrive 0x4008 = none ∧
    (tFetch [] []).streamLimit 0 tDrive (tDev.share - 16) = some tDev.share ∧ (tFetch [] []).streamLimit 0 tDrive tDev.share = none ∧
    (tFetch [0x3#128 + 0x4000#128 <<< 32] [1, 2, 3, 4, 5, 6, 7, 8]).nextWord 0 = some (tDrive, .call 0x4000, 1) ∧
    (tFetch [0x4#128] []).nextWord 0 = some (tDrive, .ret, 1) := by decide +kernel
/-- The first block, and the fifth beyond the next word to decode. Witness for O12. -/
theorem wit_streamFetch : State.reset.dev.goes 0 = none ∧
    [[], List.replicate 64 0#128].all (fun l =>
      let d := tFetch l []
      let q := (d.site 0).seqr
      let a := q.pc + 16 * q.fetched.length
      let len := min (256 - a % 256) (q.limit - a)
      (d.goes 0).isSome && !q.ended && !(q.stepF && q.stepB) && a < q.limit && a / 256 ≤ q.pc / 256 + 4 &&
        (d.transferRead 0 a len [(a, .corrected)]).poisonWords 0 a len = []) = true := by decide +kernel

/-- Witness for O12. -/
theorem wit_mbsel : heads (tHead (.mbsel 15)) (fun i => i.c.body = .mbsel 15) = true := by decide +kernel
/-- The last tally of a pen, the last global one, and one of a pen the fold does not have. Witness for O12. -/
theorem wit_tallyAdd : heads (tHead (.tallyAdd 3071 1)) (fun i => (tDev.tallyOperand i.f i.v i.c.rel i.slot 3071).isSome) = true ∧
    heads (tHead (.tallyAdd 0x1FFFF 1)) (fun i => (tDev.tallyOperand i.f i.v i.c.rel i.slot 0x1FFFF).isSome) = true ∧
    heads (tHead (.tallyAdd 6144 1)) (fun i => (tDev.tallyOperand i.f i.v i.c.rel i.slot 6144).isNone) = true := by decide +kernel
/-- Witness for O12. -/
theorem wit_tallySet : heads (tHead (.tallySet 122880 9)) (fun i => (tDev.tallyOperand i.f i.v i.c.rel i.slot 122880).isSome) = true ∧
    heads (tHead (.tallySet 6144 9)) (fun i => (tDev.tallyOperand i.f i.v i.c.rel i.slot 6144).isNone) = true := by decide +kernel
/-- Witness for O12. -/
theorem wit_tallyWait : heads (tHead (.tallyWait 3071 0 none)) (fun i =>
      tDev.tallyOperand i.f i.v i.c.rel i.slot 3071 = some 3071 && 3071 / 3072 = tDev.penOf 0 &&
      !((tDev.tallyAt i.f 3071).map tDev.tallyBad).getD false && tDev.tallyReached i.f 3071 0) = true ∧
    heads (tHead (.tallyWait 3072 0 none)) (fun i =>
      tDev.tallyOperand i.f i.v i.c.rel i.slot 3072 = some 3072 && 3072 < globalBase && 3072 / 3072 ≠ tDev.penOf 0) = true := by decide +kernel
/-- Witness for O12. -/
theorem wit_stepCmd : heads (tHead .step) (fun i => i.c.body = .step) = true := by decide +kernel
/-- Witness for O12. -/
theorem wit_muster : heads (tHead (.muster 63 1 none)) (fun i => 63 < 64 / tDev.foldCount &&
      !((tHead (.muster 63 1 none)).site 0).arrived.contains (musterKey i.s 63) && ((tHead (.muster 63 1 none)).site 0).mayArrive) = true ∧
    heads (tHead (.muster 63 2 none)) (fun i =>
      !((tHead (.muster 63 2 none)).site 0).arrived.contains (musterKey i.s 63)) = true := by decide +kernel
/-- Witness for O12. -/
theorem wit_watchWait : heads (tHead (.watchWait ⟨1024, true⟩)) (fun i => i.c.body = .watchWait ⟨1024, true⟩) = true := by decide +kernel
/-- Witness for O12. -/
theorem wit_racePush : heads (tHead (.racePush 7 4095)) (fun i => tDev.handleStatus 0 i.v 4095 false = 0 &&
    ((tHead (.racePush 7 4095)).site 0).race 7 = []) = true := by decide +kernel
/-- The device with a handle on race 7 of pen 0 and a command at the head of its forward queue. -/
def tRace (b : Body) : Device := (tHead b).onSite 0 fun t => { t with races := t.races.set 7 [5#32] }
/-- Witness for O12. -/
theorem wit_racePop : heads (tRace (.racePop 7)) (fun i => i.c.body = .racePop 7 && ((tRace (.racePop 7)).site 0).race 7 ≠ []) = true := by
  decide +kernel
/-- Witness for O12. -/
theorem wit_handleSet : heads (tHead (.handleSet 4095 1)) (fun i => handleInExtent i.v 4095) = true := by decide +kernel
/-- Witness for O13. -/
theorem wit_clear : heads (tHead (.clear 0 512 1)) (fun i => i.c.body = .clear 0 512 1 && tilesStatus 0 512 1 = 0) = true ∧
    heads (tHead (.release 511 1 1)) (fun i => i.c.body = .release 511 1 1 && tilesStatus 511 1 1 = 0) = true ∧
    (Seqr.empty.hazard .fwd 0 (clearTiles 0 512 1)) = false := by decide +kernel
/-- Witness for O13. -/
theorem wit_move : heads (tHead (.move ⟨2, 64, 0x1000, 0x200000000000, 64, 64⟩)) (fun i =>
    tDev.moveStatus i.f i.v ⟨2, 64, relLocal i.v i.c.rel i.slot 0x1000, relLocal i.v i.c.rel i.slot 0x200000000000, 64, 64⟩ = 0) = true := by
  decide +kernel
/-- A FEED of 32 MXFP8 tiles from the share. -/
def tFeed : Feed := ⟨0, false, .widdershins, 0, false, false, false, 32, 1, 1, 0x2000, 2048, 2048, 2048⟩
/-- Witness for O13. -/
theorem wit_feed : heads (tHead (.feed tFeed)) (fun i => tDev.feedStatus 0 i.f i.s i.v tFeed = 0) = true := by decide +kernel
/-- A device whose pen 0 has an entry for handles 5 and 4095, each of the start of its paddock. -/
def tHandles (d : Device) : Device := d.onSite 0 fun t => { t with handle := [(5, 1#64), (4095, 1#64)] }
/-- A lot of a chain, and lot 0, whose handle 4095 points into the drive's extent of the pen's paddock. Witness for O13. -/
theorem wit_lot : heads (tHead (.lot ⟨3, 1, 0, false, 0, 1, 1, true⟩)) (fun i => tDev.handleStatus 0 i.v 0 false = 0) = true ∧
    heads (tHandles (tHead (.lot ⟨3, 0, 4095, false, 0, 1, 1, true⟩))) (fun i => (tHandles tDev).handleStatus 0 i.v 4095 true = 0 &&
      inExtent i.v ((tHandles tDev).handleAddr 0 4095) (1 * 2176) &&
      !(tDev.fold i.f).streams.contains (i.s, Dir.sunwise, 3)) = true := by decide +kernel
/-- Witness for O13. -/
theorem wit_land : heads (tHead (.land ⟨3, 4032, 64, 0⟩)) (fun i =>
    handleInExtent i.v 4032 && handleInExtent i.v (4032 + 64 - 1)) = true := by decide +kernel
/-- A PRODUCT of FP8 from the paddock, one tile step. -/
def tProduct : Product := ⟨0, 0, false, false, false, 0, false, 1, .sunwise, 0, false, 0, 0, 1, 0, 0xFFFFFFFF, 1, 1, 1, 0, 0, 0, 0, 0, 0, 0, 0, 0⟩
/-- From the drove, from the paddock with and without a tile step. Witness for O13. -/
theorem wit_product : [{ tProduct with src := 0 }, tProduct, { tProduct with mask := 0 }].all (fun p =>
    heads (tHead (.product p)) (fun i => productStatus i.v p = 0)) = true ∧
    ({ tProduct with mask := 0 } : Product).lives = [] := by
  decide +kernel
/-- A rule 0 SHEAR of one block. -/
def tShear : Shear := ⟨false, 0, false, 1, 1, 2048, 2048, 0x100000, 0x200000, 0, 0, List.replicate 8 0#32⟩
/-- Witness for O13. -/
theorem wit_shear : heads (tHead (.shear tShear)) (fun i =>
    let d := (tHead (.shear tShear)).enter 0 .fwd (i.active 0 .fwd 0 tDev .waiting)
    tDev.shearStatus i.v tShear = 0 && ((d.site 0).seqr.slotAt .fwd .sync 0).isSome && d.shears.room tShear) = true := by decide +kernel
/-- A device active in a formed flock with plan 0. -/
def tFlock (d : Device) : Device := { d with
  flock := { d.flock with cfg := 64, state := 2, isBell := true, members := 1, leafCount := 1, leaves := [(0, 0, 1)] }
  coll := { d.coll with plans := [(0, ⟨3, 0, false, false, none, 1, 8192, 0x300000, 0, 0⟩)] } }
/-- Witness for O13. -/
theorem wit_collect : heads (tFlock (tHead (.collect ⟨3, 0, 0x400000, 0⟩))) (fun i =>
    let d := (tFlock (tHead (.collect ⟨3, 0, 0x400000, 0⟩))).enter 0 .fwd (i.active 0 .fwd 0 tDev .waiting)
    (tFlock tDev).collectStatus i.f i.v i.c.rel i.slot ⟨3, 0, 0x400000, 0⟩ = 0 &&
      ((d.site 0).seqr.slotAt .fwd .sync 0).isSome && d.coll.queue.length < 16) = true := by
  decide +kernel
/-- The device whose pen 0 has a command in a slot. -/
def tSlot (e : Engine) (b : Body) (p : Phase) : Device := tSeq { Seqr.empty with
  act := [⟨.fwd, e, 0, 0, ⟨0x100, 1, false, 0, 0, false, b⟩, 0, p, 0, 0, none, none, false, 0, [], 0, [], .empty⟩], nextId := 1 }
/-- A VOP that adds accumulator tiles 0 and 1 into tile 2. -/
def tVop : Vop := ⟨0, 0, 0, 0, 0, false, false, 0, 0, 0, false, false, 0, false, 1, 0, 1, 0, 2, 0, 0#32, 0#32, 0, 0, 0, 0⟩
/-- The same with a second source at the address of the handle at a race's head, which it pops. -/
def tVopRace : Vop := { tVop with akind := 3, pop := true }
/-- The device of a VOP, with a handle on race 0. -/
def tVopDev (o : Vop) : Device := (tHandles (tSlot .vector (.vop o) .waiting)).onSite 0 fun t => { t with races := t.races.set 0 [5#32] }
/-- Witness for O14. -/
theorem wit_vop : [(tVop, false), (tVopRace, true)].all (fun x =>
    let d := tVopDev x.1
    let o := x.1
    let heads := o.sources.any (·.1 = 3)
    let h := (((d.site 0).race o.race).headD 0#32).toNat
    let ha := if heads then d.handleAddr 0 h else 0
    (d.goes 0).isSome && ((d.site 0).seqr.slotAt .fwd .vector 0).isSome && ((d.site 0).seqr.slotAt .bwd .vector 0).isNone &&
      (d.site 0).stops.isEmpty && 0 < o.count && o.count ≤ 255 && d.vopReady 0 .fwd 0 o && heads = x.2 &&
      (!heads || d.handleStatus 0 tDrive h true = 0) &&
      ((List.range o.count).flatMap (o.reads ha)).all (fun r => inExtent tDrive r.1 r.2) &&
      (d.site 0).poison.isEmpty && (d.site 0).badRows.isEmpty) = true := by decide +kernel
/-- A PRODUCT that runs at a pen at full level. -/
def tRun : Device := (tSlot .array (.product tProduct) .running).onSite 0 fun t => { t with level := 4 }
/-- The same of a drove stream whose tile waits in pen 0's node, and of a race that holds one lot. -/
def tRunDrove : Device := (tSlot .array (.product { tProduct with src := 0 }) .running).onSite 0 fun t => { t with
  level := 4, node := { t.node with sun := { t.node.sun with
    held := [⟨[⟨0, 0, 0, 1, 0, false, 0, 0, 0, [], [], [], 63, false⟩], false⟩] } } }
def tRunLot : Device := (tHandles (tSlot .array (.product { tProduct with src := 2 }) .running)).onSite 0 fun t => { t with
  level := 4, races := t.races.set 0 [5#32] }
/-- What TILE_STEP's clause asks of a device whose pen 0 runs a PRODUCT, with so many tiles and lots. -/
def steps (d : Device) (tiles lots : Nat) : Bool :=
  match d.entering 0 with
  | some (v, a) => match a.cmd.body with
    | .product p =>
      let u := d.site 0
      let got := (List.range (p.lotsAt a.i)).map (d.lotAt 0 v a p)
      let rings := if p.src = 0 then (u.node.unused p.dir p.sr).take (if p.cplx = 0 then 1 else 2) else []
      Fmt.ofCode p.afmt = some .e4m3 && Fmt.ofCode p.bfmt = some .e4m3 && p.nextT a.t = some 0 && u.poison.isEmpty &&
        u.badRows.isEmpty && !(p.atr && p.ascl) && u.live.isEmpty && rings.flatten.length = tiles &&
        rings.flatten.all (fun r => !p.wrongTag r && r.poison.isEmpty) && (p.src ≠ 2 || got.length = lots) &&
        (p.src ≠ 2 || got.all (fun l => l.1 = 0 && p.addresses v .e4m3 .e4m3 32 (l.2.1 + p.abase) (l.2.1 + p.bbase)))
    | _ => false
  | none => false
/-- Witness for O14. -/
theorem wit_tileStep : steps tRun 0 0 = true ∧ steps tRunDrove 1 0 = true ∧ steps tRunLot 0 1 = true := by decide +kernel
/-- Witness for O14. -/
theorem wit_commandCompletion :
    (((tSlot .mover .step .finished).site 0).seqr.slotAt .fwd .mover 0).map (·.phase) = some .finished := by decide +kernel
/-! ## The pen -/

/-- The device with pen 0 changed. -/
def tSite (g : Site → Site) : Device := tDev.onSite 0 g
/-- Witness for O15. -/
theorem wit_ramp : [some Ramp.up, some .down, some .turn].all (fun r => ((tSite fun t => { t with ramp := r }).site 0).ramp = r) = true ∧
    0 < ((tSite fun t => { t with level := 4 }).site 0).level ∧ (tSite fun t => { t with level := 4 }).busy 0 = false ∧
    ((tSite fun t => { t with level := 4 }).site 0).ramp = none := by decide +kernel
/-- Control flits sent out on the ring from the hub's station. -/
def sends (d : Device) (l : List CtlFlit) : Device := l.foldl (fun d c => d.inject (stopOf 0) c) d
/-- Whether a control flit has come to the end of its lane. -/
def has (d : Device) (c : CtlFlit) : Bool := (arriveGo (fun y => decide (y = c)) [] d.fabric.ctl).isSome
/-- The request is on the ring, and is injected with its arrival. Witness for O15. -/
theorem wit_rampRequest : has (sends tDev [.rampReq 0 true]) (.rampReq 0 true) = true ∧
    tDev.fabric.ctl.any (·.flit = .rampReq 0 true) = false := by decide +kernel
/-- Witness for O15. -/
theorem wit_penStopRequest : tDev.inFold 0 = true ∧ (tDev.site 0).level = 0 ∧ (tSite fun t => { t with level := 4 }).inFold 0 = true := by
  decide +kernel
/-- The device with a ramp request and k earlier grants at cycle 0; pen 0 runs nothing and is active for a ramp-down. -/
def tGrant (up : Bool) (k : Nat) : Device := { tSite fun t => { t with level := if up then 0 else 4 } with
  fabric := { tDev.fabric with rampReq := [(0, up)], rampLog := List.replicate k 0 }
  folds := tDev.folds.map fun (o : Fold) => { o with running := none } }
/-- The window holds four grants at cycle 63 and none at cycle 64. Witness for O15. -/
theorem wit_rampGrant : 4 ≤ ((tGrant true 4).fabric.rampLog.filter (63 < · + 64)).length ∧
    [true, false].all (fun up => let d := tGrant up 4
      (d.fabric.rampLog.filter (64 < · + 64)).length < 4 && d.fabric.rampReq.head? = some (0, up) && d.fabric.stagger = [] &&
      d.fabric.holdTo ≤ 64 && !d.fabric.ctl.any (·.flit = .rampGrant 0 up) && (d.site 0).stops = [] &&
      (d.fold (d.site 0).fold).running.isNone && !d.busy 0) = true := by decide +kernel
/-- Pen 0 has failed eight tile steps in a row; no spare is left. -/
def tWorn : Device := { tDev with sites := { tPen 0 with inRow := 8 } :: tPen 1 :: List.replicate 40 .reset }
/-- Witness for O16. -/
theorem wit_penRetire : tWorn.inFold 0 = true ∧ (tWorn.site 0).dueToRetire = true ∧ tWorn.spareSites = [] := by decide +kernel
/-- Pen 0's site has retired and waits for a spare. -/
def tRetired : Device := tSite fun t => { t with state := 2, live := [3], seqr := { t.seqr with pc := 0x100 } }
/-- Witness for O16. -/
theorem wit_spareSubstitution : (tRetired.awaiting 0).contains 0 = true ∧ (tRetired.site 0).fold = 0 ∧
    (tRetired.awaiting 0).any (fun k => decide ((tRetired.site k).logical < (tRetired.site 0).logical)) = false ∧
    (tRetired.fold 0).incoming = none ∧ tRetired.bestSpare 0 = some 2 ∧ tRetired.sites.length = 42 := by decide +kernel
/-- The fold changes over from the drive of slot 0 to that of slot 1; pen 0 stands, pen 1 has `saved` or not. -/
def tSwap (other : Bool) : Device :=
  let d := { tDev with folds := tDev.folds.modify 0 fun o => { o with drives := [(0, tDrive), (1, tDrive)], incoming := some 1 } }
  (d.onSite 0 fun t => { t with stops := [.preempt] }).onSite 1 fun t =>
    { t with stops := [.preempt], saved := if other then [(0, ⟨.empty, [], Node.empty, [], []⟩)] else [] }
/-- Witness for O16. -/
theorem wit_preemption : [true, false].all (fun b => let d := tSwap b
    (d.site 0).seated && (d.fold 0).occ = some 0 && (d.fold 0).incoming = some 1 && d.drive 0 0 = some tDrive &&
      d.drive 0 1 = some tDrive && (d.site 0).stops.contains .preempt && (d.site 0).level = 0 && (d.site 0).ramp.isNone &&
      (slook (d.site 0).saved 0).isNone && (d.foldSites 0).all (fun m => m = 0 || (slook (d.site m).saved 0).isSome) = b) = true := by
  decide +kernel

/-! ## Drove and rings -/

/-- A ring tile of drive slot 0's stream 0 with a sequence number. -/
def tTile (seq : Nat) : RingTile := ⟨0, 0, 0, 0, 0, false, seq, 0, 0, [], [], [], 63, false⟩
/-- Pen 0 running with a tile on the sunwise hop. -/
def tHop (seq : Nat) (asked : Bool) : Device := tDev.onSite 0 fun t => { t with
  node := { t.node with sun := { t.node.sun with hop := [tTile seq], asked := asked } } }
/-- Witness for O17. -/
theorem wit_drove : (tHop 0 false).goes 0 = some (0, tDrive) ∧ (((tHop 0 false).site 0).node.dir .sunwise).hop = [tTile 0] ∧
    ((((tHop 0 false).site 0).node.dir .sunwise).posOf 0).isNone = true ∧ (tTile 0).seq = 0 ∧ (tTile 1).seq ≠ 0 ∧
    (((tHop 0 false).site 0).node.dir .sunwise).resends < 3 ∧ (((tHop 0 false).site 0).node.dir .sunwise).asked = false ∧
    (((tHop 0 true).site 0).node.dir .sunwise).asked = true ∧ (((tHop 1 false).site 0).node.dir .sunwise).hop = [tTile 1] := by
  decide +kernel
/-- A flit into the last line of pen 0's paddock. -/
def tFlit (fold : Nat) : BulkFlit :=
  ⟨0, 0, 0, 0x3FFFFC0, List.replicate 8 1#64, List.replicate 8 true, List.replicate 8 false, List.replicate 8 false, fold, 0, 1, true, false⟩
/-- The flit alone, and as part 5 of a transfer with one or two parts to come. -/
def tFlight (part left : Nat) : Device := { tDev with fabric := { tDev.fabric with
  bulk := injectAll (tDev.room bulkRoom) [⟨.write (tFlit 0), stopOf 1, stopOf 0, 0, false, 0, none, part⟩]
  xfers := [(5, ⟨0, none, 0, 1, left, false⟩)] } }
/-- Witness for O18. -/
theorem wit_bulkWriteFlit : ((arriveGo (fun y => decide (y = .write (tFlit 0))) [] (tFlight 5 1).fabric.bulk).map (·.1.part)) = some 5 ∧
    tDev.fabric.bulk.any (·.flit = .write (tFlit 1)) = false ∧
    [1, 2].all (fun k => (slook (tFlight 5 k).fabric.xfers 5).map (·.left) = some k) = true := by decide +kernel
/-- A read order of a megabyte of pen 1's paddock into pen 0's, or LPDDR5X. -/
def tOrder (dst : Nat) : ReadOrder := ⟨0, padBase + padSize + 0x3F00000, dst, 0x100000, 0, 0, 1⟩
/-- Witness for O18. -/
theorem wit_remoteReadOrder : [padBase + 0x3F00000, 0x1000].all (fun a => tDev.goodOrder (tOrder a) &&
      !tDev.fabric.bulk.any (·.flit = .order (tOrder a))) = true ∧
    tDev.place 0 (tOrder 0).src = some (.pad 1 0x3F00000) ∧ tDev.place 0 (padBase + 0x3F00000) = some (.pad 0 0x3F00000) ∧
    (match tDev.place 0 0x1000 with | some (.lp _) => true | _ => false) = true := by decide +kernel
/-- A feed flit of pen 0's FEED of issue number 0 that has come to the end of its lane. -/
def tFed : FeedFlit := ⟨0, 0, .sunwise, 0, 0x2000, 256⟩
def tFeeding : Device := let d := tSlot .node (.feed tFeed) .running
  { d with fabric := { d.fabric with feed := injectAll feedRoom [⟨tFed, (0, 0), (0, 0), 0, false, 0, none, 0⟩] } }
/-- Witness for O18. -/
theorem wit_feedFlit : (arriveGo (fun x => decide (x = tFed)) [] tDev.fabric.feed).isNone = true ∧
    (arriveGo (fun x => decide (x = tFed)) [] tFeeding.fabric.feed).map (·.1.part / 2 ^ 40) = some 0 ∧
    (tFeeding.site 0).seqr.act.map (fun a => (a.id, a.cmd.body)) = [(0, .feed tFeed)] ∧ (Fmt.ofCode tFeed.fmt).isSome = true := by
  decide +kernel
/-- The last tally of pen 0 and the last global one; each flit has come to the end of its lane. Witness for O18. -/
theorem wit_controlFlits : tDev.tallyAt 0 3071 = some (.pen 0 3071) ∧ tDev.tallyAt 0 131071 = some (.global 8191) ∧
    tDev.tallyBad (.pen 0 3071) = false ∧ (tSite fun t => { t with badRows := [2 ^ 20 + 95] }).tallyBad (.pen 0 3071) = true ∧
    [CtlFlit.tallyAdd 0 3071 1, .tallySet 0 131071 1, .setupAddr true true 0, .setupData true false 0, .eventFrag 0 0].all
      (fun c => has (sends tDev [c]) c) = true := by decide +kernel
/-- The hub has heard pen 0, or no pen, of group 63. -/
def tMuster (l : List Nat) : Device := tDev.onFold 0 fun o => { o with musters := [(musterKey 3 63, l)] }
/-- Witness for O19. -/
theorem wit_musterArrive : has (sends (tMuster []) [.musterArrive 0 3 63 1]) (.musterArrive 0 3 63 1) = true ∧
    63 < 64 / tDev.foldCount ∧ 1 < (tDev.foldSites 0).length ∧
    [[], [0]].map (fun l => (List.range (tDev.foldSites 0).length).all
      ((nins (sget [] ((tMuster l).fold 0).musters (musterKey 3 63)) 1).contains ·)) = [false, true] := by decide +kernel
/-- Pen 0 with the release of muster group 63 on the ring, staggered to begin its ramp at cycle 26 or not. -/
def tRelease (due : List (Nat × Nat)) : Device :=
  let d := sends (tSite fun t => { t with arrived := [63] }) [.musterRelease 0 0 63 0 0]
  { d with fabric := { d.fabric with stagger := due } }
/-- Witness for O19. -/
theorem wit_musterRelease : [[], [(0, 26)]].all (fun l => has (tRelease l) (.musterRelease 0 0 63 0 0) &&
    (tRelease l).fabric.ctl.any (·.flit = .musterRelease 0 0 63 0 0) && (tRelease l).goes 0 = some (0, tDrive) &&
    (tRelease l).fabric.stagger.find? (·.1 = 0) = l.head?) = true := by decide +kernel
/-- Witness for O20, O21. -/
theorem wit_arbiters : isBank 0x100 = true ∧ isBank (0x100 + 42 * 0x80 - 1) = true ∧ isBank 17 = false ∧
    (∃ q ∈ [((3 : Nat), (1 : Nat)), (7, 16)], q.1 < 16) := ⟨rfl, rfl, rfl, (3, 1), by simp, by decide⟩
/-- A burst of 32 beats at arbiter 17 is held by the host. -/
def tHeld : Device := { tDev with fabric := { tDev.fabric with
  arbs := tDev.fabric.arbs.modify 17 fun x => { x with holder := some (tDev.ownerIndex (.host true), 32) } } }
/-- Witness for O20. -/
theorem wit_cut : (tHeld.fabric.arbs.getD 17 (.reset 17)).holder = some (tHeld.ownerIndex (.host true), 32) := by decide +kernel

/-! ## Memory and paddocks -/

/-- The device whose LPDDR5X holds poison in some halves. -/
def tPoison (l : List Nat) : Device := { tDev with mem := { tDev.mem with poison := l } }
/-- Witness for O22. -/
theorem wit_memory : tDev.serves 0 = true ∧ tDev.serves (tDev.usable - 1) = true ∧ tDev.serves tDev.usable = false ∧
    tDev.mem.poison = [] ∧ (tPoison [0]).serves 0 = true ∧ (tPoison [0]).mem.poison.contains 0 = true ∧
    (tPoison [0]).mem.poison.contains 1 = false ∧ 0 < tDev.foldCount ∧ 0 + 64 ≤ tDev.share := by decide +kernel
/-- Witness for O22. -/
theorem wit_patrol : bit tDev.mem.scrub 31 = true ∧ tDev.mem.state = 2 ∧ (tDev.quarter 3).selfRef = false ∧ tDev.mem.poison = [] := by
  decide +kernel
/-- Quarter 3 has reported heat at tick 0, is in self refresh or not; idle self refresh is on and no drive is resident; 65,536
ticks have passed. -/
def tQuiet (sr : Bool) : Device := { tDev with
  folds := List.replicate 8 .reset
  watch := { tDev.watch with age := 65536 }
  mem := { tDev.mem with idleSr := true, quarters := tDev.mem.quarters.modify 3 fun x => { x with lastHot := some 0, selfRef := sr } } }
/-- Witness for O22. -/
theorem wit_upkeep : (tDev.quarter 3).lastHot = none ∧ ((tQuiet false).quarter 3).lastHot = some 0 ∧
    (tQuiet false).anyDrive = false ∧ ((tQuiet false).quarter 3).selfRef = false ∧
    ((tQuiet false).quarter 3).used + 65536 ≤ (tQuiet false).watch.age ∧
    ((tQuiet true).quarter 3).selfRef = true ∧ (tQuiet true).mem.idleSr = true := by decide +kernel
/-- Witness for O23. -/
theorem wit_paddock : bit tDev.padScrub 31 = true ∧ (tDev.site 41).poison = [] ∧
    ((tSite fun t => { t with clearing := true }).site 0).clearing = true := by decide +kernel
/-- Row 1023 of accumulator bank 7 of site 41 with one error counted, k spares used, a copy under way or not. -/
def tRow (k : Nat) (copying : Bool) : Device := tDev.onSite 41 fun t => { t with
  rowErrs := [((RowStore.acc 41 7).key 1023, 1)], accSpared := [(7, k)]
  copying := if copying then [(RowStore.acc 41 7).key 1023] else [] }
/-- Witness for O23. -/
theorem wit_rowSpare : tDev.hardLimit ≠ 0 ∧ (tRow 19 false).hardLimit ≤ (tRow 19 false).rowCount (.acc 41 7) 1023 + 1 ∧
    (tRow 19 false).copyingRow (.acc 41 7) 1023 = false ∧ (tRow 19 false).sparesUsed (.acc 41 7) < 20 ∧
    20 ≤ (tRow 20 false).sparesUsed (.acc 41 7) ∧ (tRow 20 false).copyingRow (.acc 41 7) 1023 = false ∧
    (tRow 19 true).copyingRow (.acc 41 7) 1023 = true ∧ 41 < tDev.sites.length := by decide +kernel

/-! ## Shears and collectives -/

/-- A request of one block, elementwise or of a matrix rule, for memory shears 1. -/
def tReq (rule : Nat) : ShearReq := ⟨0, 0, 0, 0, .fwd, 0x100, 0, 0, { tShear with rule := rule }, none, 0, 0, 0, []⟩
/-- Witness for O24. -/
theorem wit_memoryShears : (({ tDev.shears with mem := [[], [tReq 0], [], []] } : Shears).mem.getD 1 []) = [tReq 0] ∧
    (Device.shearBlocks (tReq 0) 1 ((tReq 0).cmd.count / 2048) tDev 0).2 = true ∧ (tDev.shearMatrix (tReq 2)).2 = true ∧
    (tReq 0).cmd.rule = 0 ∧ (tReq 2).cmd.rule = 2 := by decide +kernel
/-- Class 1 requests of so many elements for plan 0, and a run of the plan with block 1 handed over. -/
def tLink (counts : List Nat) : Device := { tFlock tDev with
  shears := ⟨List.replicate 4 [], counts.map fun c => { tReq 0 with cmd := { tShear with link := true, count := c } }⟩
  coll := { (tFlock tDev).coll with
    plans := [(0, ⟨1, 8, true, false, none, 0, 16384, 0x300000, 0, 0⟩)]
    slots := [(0, ⟨⟨0, 0, 0, .fwd, 0x100, 0, 0, 0, 1, 0x400000, 16384⟩, [], 1, [], [(1, List.replicate 8192 0#8)], [], []⟩)] } }
/-- Witness for O24. -/
theorem wit_linkShears : ((tLink []).runOf 0).map (·.1) = some 0 ∧ ((tLink []).planOf 0).isSome = true ∧
    max 1 ((tLink []).shardSize ⟨1, 8, true, false, none, 0, 16384, 0x300000, 0, 0⟩ / 8192) = 2 ∧ (tLink []).leavesHosted.getD 0 64 = 0 ∧
    (((tLink []).runOf 0).bind fun x => x.2.blocks.find? (·.1 = 1)).isSome = true ∧
    [[], [2048], [4096]].map (fun l => ((tLink l).shears.link.find? fun q => q.cmd.plan = 0 && q.leaf = 0).map (·.cmd.count / 2048)) =
      [none, some 1, some 2] ∧
    (((tLink [4096]).transferRead 0 (tShear.state + blockSize) blockSize []).poisonLocal 0 (tShear.state + blockSize) blockSize) = false := by
  decide +kernel
/-- The flock of this device alone, with plan 0 of an operation and a root. -/
def tPlanned (op root : Nat) (d : Device) : Device :=
  { tFlock d with coll := { (tFlock d).coll with plans := [(0, ⟨op, 8, false, false, none, root, 64, 0x300000, 0, 0⟩)] } }
/-- An accepted COLLECT of that plan. -/
def tStart (op root : Nat) : Device := let d := tPlanned op root tDev
  { d with coll := { d.coll with queue := [⟨0, 0, 0, .fwd, 0x100, 0, 0, 0, op, 0x400000, 64⟩] } }
/-- Witness for O25. -/
theorem wit_collectiveStart : [(0, 0), (1, 0), (2, 0), (3, 0), (3, 1)].all (fun x =>
    let d := tStart x.1 x.2
    d.coll.queue.length = 1 && [0, 1, 2, 3].find? (fun i => (slook d.coll.slots i).isNone) = some 0 &&
      (d.planOf 0).map (·.op) = some x.1 &&
      ((d.transferRead 0 0x400000 64 []).poisonWords 0 0x400000 64).isEmpty && d.leavesHosted.contains x.2 = decide (x.2 = 0)) = true := by
  decide +kernel
/-- A run of plan 0 in slot 0 on a device with port 0 up and keyed; group 5 comes in on port 0 and goes out on port 1. -/
def tRunning (deliver full : Bool) (lags : List Lag) : Device :=
  let d := tPlanned 2 0 tDev
  { d with
    links := d.links.map fun l => { l with state := 2, keyed := true, credits := if full then poolCredits.map (fun _ => 0) else l.credits }
    coll := { d.coll with
      slots := [(0, ⟨⟨0, 0, 0, .fwd, 0x100, 0, 0, 0, 2, 0x400000, 64⟩, [], 1, [], [], [], []⟩)]
      groups := [(5, ⟨0, [1], deliver, 0, 3⟩)], lags := lags } }
/-- A packet of plan 0 and group 5 with some data. -/
def tPacket (dst kind : Nat) (data : List Byte) : Packet :=
  { tDev.packetTo dst 3 kind with group := some 5, data := data }
/-- Group 5 held back since tick 0 at the first packet of plan 0. -/
def tLag (det asked : Bool) : Lag := ⟨5, 0, 0, 0, tPacket 0 9 [], det, 0, asked⟩
/-- A reduction's, a gather's, a repair's and a multicast's packet for this device. Witness for O25. -/
theorem wit_packets : ((tRunning true false []).runOf 0).isSome = true ∧ ((tRunning true false []).planOf 0).isSome = true ∧
    ((tRunning true false []).link 0).receives = true ∧ (tPacket 0 6 [1#8]).tagOk = true ∧ bit (tPacket 0 6 [1#8]).status 7 = false ∧
    (tPacket 0 6 [1#8]).dst = (tRunning true false []).flock.rank ∧
    (tRunning true false []).hostOf ((tPacket 0 6 [1#8]).offset /
      (tRunning true false []).shardSize ⟨2, 8, false, false, none, 0, 64, 0x300000, 0, 0⟩) = (tRunning true false []).flock.rank ∧
    (tPacket 0 10 [1#8]).data ≠ [] ∧ (tPacket 0 10 [1#8]).group = some 5 ∧ (tPacket 0 10 []).data = [] ∧
    (tRunning true false []).lagOf 5 = none ∧ (tPacket 0 10 []).tally ≤ sget 0 (tRunning true false []).coll.ended 0 := by decide +kernel
/-- Without credits; with credits, to a member that delivers, to one that does not and to a detached one. Witness for O25. -/
theorem wit_multicast : ((slook (tRunning true false []).coll.groups 5).map fun x => x.outs (some 0)) = some [1] ∧
    [true, false].all (fun full => let d := tRunning true full []
      (d.link 1).maySend { tPacket 1 9 [1#8] with cls := d.classOut (some 0) 0 1 } = !full) = true ∧
    ((slook (tRunning false false []).coll.groups 5).map (·.deliver)) = some false ∧
    ((slook (tRunning true false []).coll.groups 5).map (·.deliver)) = some true ∧
    ((tRunning true false [tLag true false]).lagOf 5).map (·.det) = some true ∧
    ((tRunning true false [tLag false false]).lagOf 5).map (·.det) = some false := by decide +kernel
/-- Witness for O25. -/
theorem wit_laggard : (tRunning true false [tLag true false]).lagOf 5 = some (tLag true false) ∧ (tLag true false).det = true ∧
    (tLag true false).asked = false ∧ ((tRunning true false [tLag true false]).runOf 0).isSome = true ∧
    ((tRunning true false [tLag true false]).planOf 0).isSome = true ∧
    (slook (tRunning true false [tLag true false]).coll.groups 5).isSome = true ∧
    (tRunning true false [tLag true false]).watch.age < 0 + 1000000 ∧
    0 + 1000000 ≤ ({ tDev with watch := { tDev.watch with age := 1000000 } } : Device).watch.age := by decide +kernel
/-! ## Rings and descriptors -/

/-- SQ 3 of fold 0 of 64 entries on CQ 3, in a state, with its positions. -/
def tRing (st pos host : Nat) : Ring := ⟨0x1000, 0, 0, 6, 3, st, 0, pos, host, false, 0, []⟩
/-- The device with SQ 3 and its CQ. -/
def tRings (sq cq : Ring) : Device := (tDev.setRing 3 sq).setRing 515 cq
/-- 64 bytes with some fields: offset, bytes, value. -/
def tBytes (n : Nat) (fs : List (Nat × Nat × Nat)) : List Byte := (List.range n).map fun i =>
  match fs.find? fun e => e.1 ≤ i ∧ i < e.1 + e.2.1 with
  | some e => BitVec.ofNat 8 (e.2.2 / 256 ^ (i - e.1))
  | none => 0#8
/-- A descriptor of SQ 3's entry 0. -/
def tDesc (started : Bool) (fs : List (Nat × Nat × Nat)) : Desc := ⟨3, 0, tBytes 64 fs, 0, started, 0⟩
/-- A device with its rings enabled and one descriptor in progress. -/
def tWith (d : Device) (x : Desc) : Device :=
  { (d.setRing 3 (tRing 1 1 1)).setRing 515 { tRing 1 0 0 with reserved := 1 } with descs := [x] }
/-- Whether that descriptor may start and passes the checks of R411. -/
def takes (d : Device) (x : Desc) (op : Nat) : Bool :=
  (tWith d x).desc 3 0 = some x && x.op = op && (tWith d x).startable x && (tWith d x).badField x = none &&
  (tWith d x).foremost x = 0

/-- A disabled ring and its CQ; the enabled ring without and with a descriptor in progress. Witness for O26. -/
theorem wit_ringEnable : (let v := 6 * 2 ^ 22 + 3 * 2 ^ 13;
      let d := tRings (tRing 0 0 0) (tRing 1 0 0);
      d.shut 0 = false ∧ d.seesRing 0 3 = true ∧ (d.ring 3).state = 0 ∧ d.enableStatus 3 (bits v 30 27) 3 = 0 ∧
        (d.ring 515).state ≠ 3 ∧ bits v 30 27 = 0 ∧ bits v 26 22 = 6 ∧ bits v 21 13 = 3) ∧
    [tRings (tRing 1 0 0) (tRing 1 0 0), tWith tDev (tDesc false [])].map (fun d =>
      ((d.ring 3).state, (d.ring 3).owner, (d.ring 3).size, (d.ring 3).link, d.descs.any (·.sq = 3))) =
      [(1, 0, 6, 3, false), (1, 0, 6, 3, true)] := by decide +kernel
/-- An SQ's position may be 64 entries ahead of the head and no more; a fold that is being cleared; a CQ's position. Witness for O26. -/
theorem wit_doorbells : (tRing 1 0 0).accepts true (1 * 2 ^ 16 + 0) = true ∧ (tRing 1 0 0).accepts true (1 * 2 ^ 16 + 1) = false ∧
    (let d := tRings (tRing 1 0 0) (tRing 1 5 0);
      d.shut 0 = false ∧ d.seesRing 0 3 = true ∧ d.seesRing 0 515 = true ∧ (d.ring 3).state = 1 ∧ (d.ring 515).state = 1 ∧
        (d.fold (d.ring 3).owner).state = 2 ∧
        ((d.onFold 0 fun o => { o with state := 1 }).fold (d.ring 3).owner).state = 1) ∧
    (tRing 1 5 0).accepts false 5 = true ∧ (tRing 1 5 0).accepts false (2 ^ 31 + 5) = true ∧ (tRing 1 5 0).accepts false 6 = false ∧
    (tRing 1 5 0).posOf (2 ^ 31 + 5) = (tRing 1 5 0).pos ∧ bit 5 31 = false := by decide +kernel
/-- A device with a read of function 1 outstanding under tag 9, for a job. -/
def tRead (d : Device) (job : Job) (addr len : Nat) : Device :=
  { d with hport := { d.hport with tags := [(9, 1, some ⟨1, job, 0, addr, len⟩)] } }
/-- Witness for O27. -/
theorem wit_descriptorFetch : (let d := tRings (tRing 1 0 1) (tRing 1 0 0);
      (d.ring 3).state = 1 ∧ (d.ring 3).pos ≠ (d.ring 3).host ∧ (d.ring 515).state = 1 ∧ (d.ring 515).room ≠ 0 ∧
        d.hport.fetching 3 = false ∧ d.hport.waiting = [] ∧ d.hport.may (ownerFn (d.ring 3).owner) = true ∧ 64 ≤ d.hport.maxRead) ∧
    slook (tRead tDev (.fetch 3) 0x1000 64).hport.tags 9 = some (1, some ⟨1, .fetch 3, 0, 0x1000, 64⟩) ∧ (zeros 64).length = 64 := by
  decide +kernel
/-- Witness for O27. -/
theorem wit_completion : (tWith tDev (tDesc false [(1, 1, 2)])).desc 3 0 = some (tDesc false [(1, 1, 2)]) ∧ (tDesc false [(1, 1, 2)]).quiet = true ∧
    (tDesc false []).quiet = false ∧ ((tWith tDev (tDesc false [])).ring 3).state = 1 ∧ ((tWith tDev (tDesc false [])).ring 515).state = 1 ∧
    (tWith tDev (tDesc false [])).tunnelled = false ∧ ((tWith tDev (tDesc false [])).ring 515).arm = false := by decide +kernel
/-- A DMA of 64 bytes at local address 0x1000, from or to the host. -/
def tDma (toHost : Bool) : Desc := tDesc false [(0, 1, 1), (8, 8, 0x8000), (16, 8, 0x1000), (24, 4, 64), (28, 4, if toHost then 2 ^ 25 else 0)]
/-- Whether a DMA may start, has no wait and goes the way that is said. -/
def moves (d : Device) (x : Desc) (toHost : Bool) : Bool :=
  let m := (tWith d x).dmaFor 3 x.bytes
  takes d x 1 && (tWith d x).dmaStatus 3 m = 0 && !m.wt && m.toHost = toHost
/-- Witness for O28. -/
theorem wit_dma : moves tDev (tDma false) false = true ∧ moves tDev (tDma true) true = true ∧
    ((tWith tDev (tDma true)).transferRead 0 0x1000 64 []).poisonIn 0 0x1000 64 = [] ∧
    (let d := tRead (tWith tDev (tDma false)) (.ring 3 0) 0x8000 64;
      slook d.hport.tags 9 = some (1, some ⟨1, .ring 3 0, 0, 0x8000, 64⟩) ∧ d.desc 3 0 = some (tDma false) ∧
        (({ d with hport := { d.hport with tags := d.hport.tags.filter fun x => x.1 ≠ 9 } } : Device).landPieces 0 (zeros 64) 0x1000
          (windowsOf 0x1000 64) 0).2.2 = true) := by decide +kernel
/-- A DMA from an unaligned host address. -/
def tOdd : Desc := tDesc false [(0, 1, 1), (8, 8, 0x8004), (24, 4, 64)]
/-- Witness for O28. -/
theorem wit_dmaRefused : takes tDev tOdd 1 = true ∧ (tWith tDev tOdd).dmaStatus 3 ((tWith tDev tOdd).dmaFor 3 tOdd.bytes) = 3 := by
  decide +kernel
/-- Witness for O29. -/
theorem wit_tallyDescriptors : takes tDev (tDesc false [(0, 1, 2), (8, 4, 3071)]) 2 = true ∧
    (tWith tDev (tDesc false [(0, 1, 2), (8, 4, 3071)])).tallyStatus 3 ((tDesc false [(0, 1, 2), (8, 4, 3071)]).u 8 4 % 2 ^ 17) = 0 ∧
    takes tDev (tDesc false [(0, 1, 3)]) 3 = true ∧ tDev.tallyReached 0 0 0 = true ∧
    takes tDev (tDesc false [(0, 1, 3), (12, 4, 1)]) 3 = true ∧ tDev.tallyReached 0 0 1 = false ∧ tDev.tallyAt 0 0 = some (.pen 0 0) ∧
    (tDesc true [(0, 1, 3), (12, 4, 1), (16, 4, 5)]).op = 3 ∧ (tDesc true [(0, 1, 3), (12, 4, 1), (16, 4, 5)]).u 16 4 = 5 ∧
    ({ tDev with watch := { tDev.watch with count := 5 } } : Device).now = 0 + 5 := by decide +kernel
/-- The launch block of a logged drive of two pens. -/
def tBlock : List Byte := tBytes 1024 [(0x12, 2, 64), (0x16, 2, 3072), (0x1A, 2, 8192), (0x1E, 2, 4096), (0x28, 8, 0x100000), (0x30, 8, 0x400000),
  (0x38, 8, 0x100000), (0x48, 8, 16384), (0x58, 8, 65536), (0xE0, 4, 2), (0xE4, 4, 0)]
/-- A fold without a drive. -/
def tBare : Device := { tDev with folds := { Fold.reset with state := 2, key := .drawn 0 } :: List.replicate 7 .reset }
/-- The step block of leaf 0 with an empty batch list. -/
def tReads : StepReads := ⟨.data (zeros 128), .data [], [], [], []⟩
/-- Whether a preparation succeeds. -/
def okPrep {α : Type} (p : Prep α) : Bool := match p with | .ok _ => true | .error _ => false
/-- Witness for O29. -/
theorem wit_launch : (tBare.fold 0).state ≠ 1 ∧ tBare.mayRead (ownerFn ((tWith tBare (tDesc false [])).ring 3).owner) = true ∧ takes tBare (tDesc false [(0, 1, 0x10)]) 0x10 = true ∧ (tDesc false [(0, 1, 0x10)]).u 8 8 % 64 = 0 ∧
    (tWith tBare (tDesc false [(0, 1, 0x10)])).drive 0 0 = none ∧ tBlock.length = 1024 ∧
    ((tWith tBare (tDesc false [(0, 1, 0x10)])).launchFaults 0 (driveOf tBlock [0]) (u tBlock 0xE4 4)).find? (·.2) = none ∧
    (tWith tBare (tDesc false [(0, 1, 0x10)])).overlap 0 (driveOf tBlock [0]) = none ∧ tBare.leavesHosted = [0] ∧
    okPrep ((tWith tBare (tDesc false [(0, 1, 0x10)])).prepStep 0 (driveOf tBlock [0]) 0 0 false none tReads) = true ∧
    (match (tWith tBare (tDesc false [(0, 1, 0x10)])).prepStep 0 (driveOf tBlock [0]) 0 0 false none tReads with
      | .ok p => decide ((tWith tBare (tDesc false [(0, 1, 0x10)])).digestBad 0 (driveOf tBlock [0]) p.1 = none)
      | .error _ => false) = true := by decide +kernel
/-- A step of leaf 0. -/
def tStep : StepRec := ⟨1, [⟨0, 0, 0, 0, [], [], none⟩], none, false, false, false, [], none⟩
/-- The device whose drive is v, both pens waiting at their STEPs. -/
def tSteps (v : Drive) : Device :=
  let at' : Seqr := { Seqr.empty with act := [.fwd, .bwd].map fun q =>
    ⟨q, .sync, 0, 0, ⟨0x100, 1, false, 0, 0, false, .step⟩, 0, .waiting, 0, 0, none, none, false, 0, [], 0, [], .empty⟩ }
  { tDev with
    sites := { tPen 0 with seqr := at' } :: { tPen 1 with seqr := at' } :: List.replicate 40 .reset
    folds := tDev.folds.modify 0 fun o => { o with drives := [(0, v)] } }
/-- Witness for O30. -/
theorem wit_steps : tDev.mayRead (ownerFn ((tWith tDev (tDesc true [])).ring 3).owner) = true ∧ tDev.flock.state ≠ 3 ∧ takes tDev (tDesc false [(0, 1, 0x11), (16, 8, 1)]) 0x11 = true ∧
    (tWith tDev (tDesc false [(0, 1, 0x11), (16, 8, 1)])).stepsStarted 0 0 tDrive = [] ∧ (tDrive.last + 1) % 2 ^ 48 = 1 ∧
    (tDesc false [(0, 1, 0x11), (16, 8, 1)]).u 16 8 = 1 ∧
    ((tWith tDev (tDesc true [(0, 1, 0x11), (16, 8, 1)])).stepsStarted 0 0 tDrive).head? = some (tDesc true [(0, 1, 0x11), (16, 8, 1)]) ∧
    okPrep ((tWith tDev (tDesc true [(0, 1, 0x11), (16, 8, 1)])).prepStep 0 tDrive 1 0 false (some (3, 0)) tReads) = true ∧
    (tWith tDev (tDesc true [(0, 1, 0x11), (16, 8, 1)])).digestBad 0 tDrive tStep = none ∧
    ((tSteps { tDrive with prepared := some tStep }).drive 0 0).map (fun v => (v.prepared, v.opened, v.stopped, v.abandoned, v.unlogged)) =
      some (some tStep, none, none, false, true) ∧
    (tSteps { tDrive with opened := some tStep }).mayClose 0 0 = true ∧
    (tSteps { tDrive with opened := some tStep, unlogged := false }).mayClose 0 0 = true ∧
    tDev.seedSent tDrive 1 = true ∧ tDev.recordBad 0 tDrive tStep = none := by decide +kernel
/-- A batch DMA of 64 bytes from the host, whose read is outstanding; the drive of slot 0 runs. -/
def tBatch : DmaD := ⟨0x8000, 0x1000, 64, 0, 0, false, false, 0, 0⟩
def tBatching : Device :=
  tRead { tDev with folds := tDev.folds.modify 0 fun o => { o with drives := [(0, { tDrive with dmas := [(7, tBatch)] })] } }
    (.batch 0 0 7) 0x8000 64
/-- Witness for O30. -/
theorem wit_batch : slook tBatching.hport.tags 9 = some (1, some ⟨1, .batch 0 0 7, 0, 0x8000, 64⟩) ∧
    (tBatching.drive 0 0).bind (fun v => slook v.dmas 7) = some tBatch ∧ (tBatching.drive 0 0).map (·.stopped) = some none ∧
    (({ tBatching with hport := { tBatching.hport with tags := [] } } : Device).landPieces 0 (zeros 64) 0x1000 (windowsOf 0x1000 64) 0).2.2 = true ∧
    (zeros 64).length = 64 := by decide +kernel
/-- Witness for O31. -/
theorem wit_run : (({ tSwap true with folds := (tSwap true).folds.modify 0 fun o => { o with incoming := none } } : Device).fold 0).incoming = none ∧
    takes { tSwap true with folds := (tSwap true).folds.modify 0 fun o => { o with incoming := none } } (tDesc false [(0, 1, 0x12), (2, 1, 1)]) 0x12 = true ∧
    takes tDev (tDesc false [(0, 1, 0x12)]) 0x12 = true ∧ (tDev.fold 0).running = some 0 ∧
    (tDesc false [(0, 1, 0x12), (2, 1, 1)]).slot = 1 ∧
    takes tDev (tDesc false [(0, 1, 0x13)]) 0x13 = true ∧ takes tDev (tDesc false [(0, 1, 0x13), (8, 8, 64)]) 0x13 = true ∧
    (tDev.drive 0 0).isSome = true ∧ ((tWith tDev (tDesc false [(0, 1, 0x13), (8, 8, 64)])).endDrive 0 0 |>.drive 0 0).isSome = true := by
  decide +kernel
/-- A formed flock's bellwether with management rings: owner 8. -/
def tManage (x : Desc) : Device :=
  let d := tFlock tDev
  { (d.setRing 3 { tRing 1 1 1 with owner := 8 }).setRing 515 { tRing 1 0 0 with owner := 8, reserved := 1 } with descs := [x] }
/-- Whether its descriptor may start and passes the checks of R411. -/
def manages (x : Desc) (op : Nat) : Bool :=
  (tManage x).desc 3 0 = some x && x.op = op && (tManage x).startable x && (tManage x).badField x = none &&
  (tManage x).foremost x = 0
/-- A PLAN of a broadcast of 8 KiB. -/
def tPlan : Desc := tDesc false [(0, 1, 0x20), (8, 1, 255), (9, 1, 3), (16, 8, 8192)]
/-- Witness for O31. -/
theorem wit_plan : manages tPlan 0x20 = true ∧ (tManage tPlan).foldCount = 1 ∧ (tManage tPlan).active = true ∧
    (tManage tPlan).flock.state = 2 ∧ (tManage tPlan).planBusy (tPlan.u 8 1) = false ∧ (tManage tPlan).planFault tPlan = none := by decide +kernel
/-- Witness for O31. -/
theorem wit_groups : (tManage tPlan).leads = true ∧ (tManage tPlan).coll.named = [] ∧ manages (tDesc false [(0, 1, 0x21), (16, 8, 1)]) 0x21 = true ∧
    (List.range 256).find? (fun g => (slook (tManage tPlan).coll.live g).isNone) = some 0 ∧
    ((tManage tPlan).groupEntry 0 1 0).isSome = true ∧ manages (tDesc false [(0, 1, 0x22), (8, 2, 255)]) 0x22 = true ∧
    (tManage tPlan).coll.plans.any (fun e => e.2.group = some 255) = false ∧ (slook [(255, [0])] 255).isSome = true := by decide +kernel

/-! ## Setup registers -/

/-- Witness for O32. -/
theorem wit_foldcfg : tBare.shut 0 = false ∧ tDev.shut 0 = false ∧ tBare.countStatus 8 = 0 ∧ 8 % 16 = 8 ∧ 3 ∉ [1, 2, 4, 8] ∧ tDev.anyDrive = true ∧
    tBare.sites.length = 42 ∧ tBare.folds.length = 8 := by decide +kernel
/-- Witness for O33. -/
theorem wit_folds : (tBare.fold 0).drives = [] ∧ (tBare.fold 0).state = 2 ∧ tBare.flock.state ≠ 3 ∧ tBare.full = true ∧
    (tDev.fold 0).drives ≠ [] ∧ (({ tBare with folds := tBare.folds.modify 0 fun o => { o with state := 1 } } : Device).fold 0).state = 1 ∧
    tBare.cleared 0 = true ∧ tBare.sec.drbg = true := by decide +kernel
/-- Witness for O33. -/
theorem wit_siteCtrl : tDev.inFold 2 = false ∧ (tDev.site 2).state = 1 ∧ tDev.inFold 0 = true ∧ State.reset.dev.full = false := by decide +kernel
/-- Witness for O35. -/
theorem wit_aperture : tDev.outside 0 = false ∧ tDev.outside 1 = false ∧ tDev.apOpen 0 = true ∧ tDev.apStatus 0 0 8 = 0 ∧ (tDev.transferRead 0 (tDev.apAddr 0 0) 8 []).poisonIn 0 (tDev.apAddr 0 0) 8 = [] ∧
    tDev.clearingAt 0 (tDev.apAddr 0 0) = false ∧ tDev.clearingAt 0 (tDev.apAddr 0 0 + 8 - 1) = false ∧ 4 % 8 ≠ 0 ∧
    tDev.apOpen 1 = true ∧ ({ tDev with fns := tDev.fns.modify 0 fun r => { r with apLo := 0xFFF00000, apHi := 0x3FFF } } : Device).owns 0
      (({ tDev with fns := tDev.fns.modify 0 fun r => { r with apLo := 0xFFF00000, apHi := 0x3FFF } } : Device).apAddr 0 0) 8 = false := by decide +kernel
/-- Witness for O34. -/
theorem wit_trace : tDev.recovering = false ∧ tDev.logging = false ∧ ({ tDev with
    folds := tDev.folds.map fun (o : Fold) => { o with drives := o.drives.map fun e => (e.1, { e.2 with unlogged := false }) } } : Device).logging = true ∧
    bit 1 0 = true ∧ bit 0 0 = false := by decide +kernel
/-- A device whose recovery function runs: only the first 8 KiB of BAR0 responds (R524). -/
def tRecov : Device := { tDev with sec := { tDev.sec with state := 3 } }
/-- Witness for O34. -/
theorem wit_registers : tRecov.takesWrite 0 0x20000 = false ∧ tDev.shut 0 = false ∧ tRecov.shut 0 = true ∧
    [({ tDev.sec with state := 2 } : Sec), { tDev.sec with state := 4 }, { tDev.sec with approved := true }].all (fun x =>
      ({ tDev with sec := x } : Device).shut 0) = true ∧ tDev.takesWrite 0 (0x10000 + 45 * 16) = true ∧
    tDev.takesWrite 0 0x20000 = true ∧ tDev.takesWrite 0 0xA0000 = true ∧ tDev.takesWrite 0 0xA0010 = true ∧ tDev.takesWrite 0 0xC2000 = true ∧
    tDev.takesWrite 0 (0xC0000 + 41 * 16) = true ∧ tDev.takesWrite 0 0xD0008 = true := by decide +kernel
/-- Witness for O7. -/
theorem wit_vfAperture : tDev.sized := by simp [Device.sized, tDev, tPen, Device.reset]
/-- Witness for O6. -/
theorem wit_writes : tDev.place 0 padBase = some (.pad 0 0) ∧ 0 + padSize ≤ padSize ∧ (tDev.site 0).clearing = false ∧
    ((tSite fun t => { t with clearing := true }).site 0).clearing = true ∧
    (tSite fun t => { t with clearing := true }).place 0 padBase = some (.pad 0 0) ∧ 63 % 64 + [1#8].length ≤ 64 := by decide +kernel

/-! ## Resets, full service, the flock -/

/-- A device whose bring-up is at the end of S3. -/
def tS3 : Device := { tBare with bring := { tBare.bring with stage := 3, sram := true, links := true } }
/-- Witness for O36. -/
theorem wit_resets : (0x5A : Nat) % 256 ≠ 0xA5 ∧ 0 < tDev.foldCount ∧ tDev.full = true ∧ tS3.mayEnter = true := by decide +kernel
/-- The device with ports up, and keyed or not. -/
def tUp (keyed : Bool) (d : Device) : Device := { d with links := d.links.map fun l => { l with state := 2, keyed := keyed } }
/-- A message out of a packet on a port with and without keys, and a packet for this device. Witness for O39, O40, O41. -/
theorem wit_hears : ((tUp true tDev).link 0).takes = true ∧ ((tUp true tDev).link 0).keyed = true ∧ ((tUp false tDev).link 0).takes = true ∧
    ((tUp false tDev).link 0).keyed = false ∧ ((tUp true tDev).link 0).receives = true := by decide +kernel
/-- A device that forms a flock of shape 4 by 1 by 1 with some leaves, since tick 0. -/
def tForming (leaves : Nat) : Device := { tDev with
  watch := { tDev.watch with state := 1, count := 200000000, age := 200000000 }
  flock := { tDev.flock with cfg := leaves * 64 + 2, state := 1, isBell := true } }
/-- A device that passes R331, with a number of folds. -/
def tMember (r folds : Nat) : MemberInfo :=
  ⟨r, 0x57B40111, 4, true, false, folds, ⟨true, true, tDev.ownerField, tDev.approvedFlag, tDev.sec.measure.getD 1 []⟩, true⟩
/-- What the steps of formation find, in their order: legal fields, this device discovered, its watch, its report, this device
and all keys among the admitted, routes, an active rank. -/
def forms (d : Device) (ms : List MemberInfo) : List Bool :=
  let l := bits d.flock.cfg 12 6
  let me := d.flock.rank
  let ok := (d.sortMembers ms).1
  let said := { d with flock := { d.flock with members := (ok.map fun (m : MemberInfo) => 2 ^ m.rank).sum } }
  let own := ms.find? (·.rank = me)
  [16 ≤ l && l ≤ 64 && bits d.flock.cfg 5 4 ≠ 3 && bits d.flock.cfg 3 2 ≠ 3 && bits d.flock.cfg 1 0 ≠ 3, own.isSome,
    own.any (fun o => o.watchLocked || (o.watchFree && d.aloneIn ms)), own.any (fun o => d.reportOk o.report), ok.any (·.rank = me),
    ok.all (·.keysOk), ok.all (fun m => (said.routeOf me m.rank).valid),
    ((List.range 64).filter fun r => ok.any (fun m => m.rank = r && m.folds = 1) &&
      !bit (d.flock.standbyHi * 2 ^ 32 + d.flock.standbyLo) r) ≠ []]
/-- Each way that a formation ends, and the first and last leaf counts that are legal. Witness for O38. -/
theorem wit_flockForms : (tForming 16).shut 0 = false ∧ (tForming 16).full = true ∧
    (tForming 16).bellRank = (tForming 16).flock.rank ∧ (tForming 16).flock.state = 1 ∧
    [15, 16, 64, 65].map (fun l => (forms (tForming l) [tMember 0 1, tMember 1 1]).head?) = [some false, some true, some true, some false] ∧
    (forms (tForming 16) [tMember 1 1]).take 2 = [true, false] ∧
    (forms (tForming 16) [{ tMember 0 1 with watchLocked := false }, tMember 1 1]).take 3 = [true, true, false] ∧
    (forms (tForming 16) [{ tMember 0 1 with report := { (tMember 0 1).report with verified := false } }]).take 4 = [true, true, true, false] ∧
    (forms (tForming 16) [{ tMember 0 1 with stage := 3 }]).take 5 = [true, true, true, true, false] ∧
    (forms (tForming 16) [tMember 0 1, { tMember 1 1 with keysOk := false }]).take 6 = [true, true, true, true, true, false] ∧
    (forms ({ tForming 16 with flock := { (tForming 16).flock with badLinks := [(0, 0), (0, 1), (1, 0), (1, 1)] } } : Device)
      [tMember 0 1, tMember 1 1]).take 7 = [true, true, true, true, true, true, false] ∧
    forms (tForming 16) [tMember 0 2] = [true, true, true, true, true, true, true, false] ∧
    (forms (tForming 16) [tMember 0 1, tMember 1 1]).all (·) = true ∧ (tForming 16).flock.isBell = true ∧
    (tForming 16).flock.since + 200000000 ≤ (tForming 16).watch.age := by decide +kernel
/-- Witness for O38. -/
theorem wit_leafRuns : ([0, 1, 3] : List Nat) ≠ [] ∧ leafRuns 16 [0, 1, 3] = [(0, 0, 6), (1, 6, 5), (3, 11, 5)] := by decide +kernel
/-- The bellwether of a formed flock of ranks 0 and 1, without drives. -/
def tLead : Device := { tFlock tBare with flock := { (tFlock tBare).flock with
  cfg := 16 * 64 + 2, members := 3, leafCount := 8, leaves := [(0, 0, 8), (1, 8, 8)], folds := [(0, 1), (1, 1)] } }
/-- Rank 1 of that flock. -/
def tFollow : Device := { tLead with flock := { tLead.flock with rank := 1, isBell := false, firstLeaf := 8 } }
/-- A member whose bellwether has failed. -/
def tOrphan : Device := { tFollow with flock := { tFollow.flock with state := 3, failed := [0] } }
/-- Witness for O39. -/
theorem wit_upkeep2 : (tFlock tDev).shut 0 = false ∧ (tFlock tDev).flock.isBell = true ∧ (tFlock tDev).flock.state = 2 ∧
    (tFlock tDev).anyDrive = true ∧ tLead.shut 0 = false ∧ tLead.anyDrive = false ∧ bit tLead.flock.members 1 = true ∧
    tOrphan.shut 0 = false ∧ tOrphan.orphaned = true ∧ tOrphan.anyDrive = false ∧
    tLead.leads = true ∧ bit tLead.flock.members 2 = false ∧ tLead.admissible (tMember 2 1) = true ∧ (tMember 2 1).rank = 2 ∧
    tLead.admissible { tMember 2 1 with stage := 3 } = false ∧
    tFollow.flock.state = 2 ∧ tFollow.flock.isBell = false := by decide +kernel
/-- Witness for O39. -/
theorem wit_management : tLead.full = true ∧ tLead.flock.isBell = true ∧ tLead.flock.state = 2 ∧ tLead.orphaned = false ∧
    tDev.full = true ∧ tDev.flock.state ≠ 2 ∧ tDev.flock.state ≠ 3 ∧ tDev.orphaned = false ∧ (1 : Nat) ≠ tLead.flock.rank := by decide +kernel

/-! ## Fosters, commits, recovery -/

/-- An active member whose drive of slot 0 is v, with a foster and foster steps. -/
def tFoster (v : Drive) : Device := { tFlock tDev with
  flock := { (tFlock tDev).flock with foster := some 1, ward := some 1 }
  folds := tDev.folds.modify 0 fun o => { o with drives := [(0, v)] }
  recov := { tDev.recov with fosterRegion := 2 ^ 16 + 1, ward := some ⟨1, 0, 65536, none, [], [], [], [], none, true⟩ } }
/-- A packet of the foster's for this device. -/
def tPage (node : Nat) : Packet := { tDev.packetTo 0 3 9 with src := 1, node := node, data := zeros 64 }
/-- Page 1 of the extent written in step 64. -/
def tWrote : Drive := { tDrive with written := [(64, 1)] }
/-- The same with an end of the ward's that waits for its COMMIT. -/
def tEnded : Device := { tFoster tDrive with
  recov := { (tFoster tDrive).recov with ward := (tFoster tDrive).recov.ward.map fun w => { w with endStep := some (64, 0, []) } } }
/-- Witness for O40. -/
theorem wit_foster : [(tFoster tDrive, false), (tEnded, true)].all (fun x => let d := tUp true x.1
      (d.link 0).receives && d.flock.state = 2 && d.endWaits = x.2 && d.recov.waitPages.isEmpty &&
        d.recov.ward.map (fun w => (w.rank, w.endStep.isSome)) = some (1, x.2)) = true ∧
    [0, 2].all (fun k => (tPage k).dst = tDev.flock.rank && (tPage k).node = k && !bit (tPage k).status 7 && (tPage k).tagOk &&
      (tPage k).src = 1) = true ∧
    (tFoster tDrive).flock.ward = some 1 ∧ (tFoster tDrive).recov.noCopy.contains 1 = false := by decide +kernel
/-- The drive with step 64 closed, whose foster end is owed. -/
def tWroteEnd : Drive := { tWrote with closed := some 64 }
/-- Witness for O40. -/
theorem wit_fosterSend : (tFoster tWrote).endOwed tWrote = none ∧ (tFoster tDrive).flock.foster = some 1 ∧
    ((tFoster tWrote).flockDrive.map (·.1)) = some 0 ∧ (tFoster tWrote).active = true ∧ tWrote.stopped = none ∧
    (tFoster tWrote).fosterStep 64 = true ∧ (tFoster tWrote).poisonLocal 0 (tWrote.xbase + 1 * 32768) 32768 = false ∧
    ({ tFoster tWrote with mem := { tDev.mem with poison := [2 * 512] } } : Device).poisonLocal 0 (tWrote.xbase + 1 * 32768) 32768 = true ∧
    tWrote.opened = none ∧ ((tFoster tWroteEnd).endOwed tWroteEnd).isSome = true := by
  decide +kernel
/-- Witness for O40. -/
theorem wit_done : tLead.leads = true ∧ bit tLead.flock.members 1 = true ∧ tLead.awaitsDone 5 = [0, 1] ∧
    (∃ r, r ∈ tLead.awaitsDone 5 ∧ ∀ x, x ∈ [(1, 5, false)] → ¬ (x.1 = r ∧ x.2.1 = 5)) ∧
    (∀ r, r ∈ tLead.awaitsDone 5 → ∃ x, x ∈ [(0, 5, false), (1, 5, false)] ∧ x.1 = r ∧ x.2.1 = 5) := by decide +kernel
/-- An active member with a foster step every second step, its standby flag set or not. -/
def tSecond (standby : Bool) : Device := { tFlock tDev with
  flock := { (tFlock tDev).flock with standby := standby }
  recov := { tDev.recov with cfg := 2 } }
/-- Witness for O40. -/
theorem wit_commit : (tSecond false).flock.state = 2 ∧ (tSecond true).flock.state = 2 ∧ (tSecond false).active = true ∧
    (tSecond true).active = false ∧ (tSecond true).fosterStep 63 = false ∧
    (tSecond false).fosterStep 63 = false ∧ (tSecond false).fosterStep 64 = true := by decide +kernel
/-- The bellwether recovering from the loss of rank 1. -/
def tLost (st : Nat) : Device := { tLead with
  flock := { tLead.flock with state := 3 }
  recov := { tLead.recov with state := st, loading := [7], hdr := some (0x100000, 65536 * 8, [0, 1, 2, 3, 4, 5, 6, 7]) } }
/-- A packet of page 7 of a load, or one that says poison. -/
def tLoad (bad : Bool) : Packet := { tDev.packetTo 0 3 14 with offset := 7 * 32768, data := zeros 64, status := if bad then 1 else 0 }
/-- Witness for O41. -/
theorem wit_recovery : tLead.flock.isBell = true ∧ tLead.flock.state = 2 ∧ tLead.flock.failed.contains 1 = false ∧ tLead.recov.state ≠ 5 ∧
    1 ≠ tLead.bellRank ∧ bit tLead.flock.members 1 = true ∧ 1 ≠ tLead.flock.rank ∧ tLead.beats 1 = false ∧ tFollow.flock.isBell = false ∧
    (tLost 1).flock.isBell = true ∧ (tLost 1).flock.state = 3 ∧ (tLost 1).recov.state = 1 ∧ (tLost 1).flock.failed.contains 1 = false ∧
    (tLost 1).recov.handover ≠ some 1 ∧ (tLost 2).recov.state = 2 ∧ ((tUp true (tLost 2)).link 0).receives = true ∧
    [true, false].all (fun b => (tLoad b).dst = (tLost 2).flock.rank && !bit (tLoad b).status 7 && (tLoad b).tagOk &&
      bit (tLoad b).status 0 = b && (tLoad b).offset / 32768 = 7) = true ∧
    7 ≠ headerPage ∧ (tLost 2).recov.hdr = some (0x100000, 65536 * 8, [0, 1, 2, 3, 4, 5, 6, 7]) ∧ (tLost 2).recov.loading.contains 7 = true ∧
    ((tLost 2).pageAddr 0x100000 (65536 * 8) [0, 1, 2, 3, 4, 5, 6, 7] 7).isSome = true ∧
    (tLost 2).recov.awaited = [] := by decide +kernel
/-- A device that has a seal due, a drain under way and a journal entry waiting. -/
def tCote : Device := { tDev with
  folds := tDev.folds.modify 0 fun o => { o with drives := [(0, { tDrive with unlogged := false, closed := some 1 })] }
  recov := { tDev.recov with sealDue := [(0, 0)] }
  cote := { tDev.cote with
    drain := [(0, (1, 0, 0x100000, ⟨.none, 1, 0, 0, 1, 0, 8192, [], [], []⟩))], waiting := [(0, zeros 64)] } }
/-- The bellwether that has taken over the leaves of rank 1. -/
def tTook : Device := { tLead with flock := { tLead.flock with leaves := [(0, 0, 8), (0, 8, 8)], failed := [1] } }
/-- Witness for O42. -/
theorem wit_seals : tCote.shut 0 = false ∧ tTook.shut 0 = false ∧ tCote.loadsCote = false ∧ tCote.active = false ∧ tCote.flock.state ≠ 3 ∧ tTook.leads = true ∧ 2 ≤ (tTook.flock.leaves.filter (·.1 = 0)).length ∧
    tLead.flock.isBell = true ∧ tCote.recov.sealDue = (0, 0) :: [] ∧
    (tCote.drive 0 0).map (fun v => (v.unlogged, v.closed.isSome)) = some (false, true) ∧
    ((slook tCote.cote.drain 0).map fun e => (e.1, e.2.1, e.2.2.1, e.2.2.2.size)) = some (1, 0, 0x100000, 8192) ∧
    1 < (8192 + 4095) / 4096 - 0 ∧ tCote.poisonLocal 0 (0x100000 + 0 * 4096) (min (1 * 4096) (8192 - 0 * 4096)) = false ∧
    (tCote.cote.waiting.find? (·.1 = 0)).isSome = true := by decide +kernel
/-! ## Links -/

/-- A port in service. -/
def tPort : Link := { Link.reset with state := 2, keyed := true, lanes := 0xFF, peerRank := 1, peerPort := 1 }
/-- Rank 0 of a formed flock of two with port 0 in some state. -/
def tNet (l : Link) : Device := { tLead with
  links := tLead.links.set 0 l
  flock := { tLead.flock with foster := some 1, routes := [(1, ⟨true, 0, 1⟩)] } }
/-- A packet that came on a port. -/
def tData (dst : Nat) (tag discard : Bool) : Packet :=
  { tDev.packetTo dst 3 8 with src := 1, data := zeros 64, tagOk := tag, status := if discard then 128 else 0 }
/-- At most 15 errors and more, in and out of order, with a replay asked for or not, the last but one and the last frame before
an acknowledgement is due; an idle frame; a frame held for replay; the eighth request for one frame. Witness for O43. -/
theorem wit_frames : ((tNet tPort).link 0).up = true ∧ 15 < (⟨1, 0, 0, 16⟩ : Frame).errs ∧ (⟨1, 0, 0, 15⟩ : Frame).errs ≤ 15 ∧
    (⟨1, 0, 0, 15⟩ : Frame).kind = 1 ∧ (⟨1, 0, 0, 15⟩ : Frame).seq = ((tNet tPort).link 0).expect ∧
    (⟨2, 1023, 0, 0⟩ : Frame).kind = 2 ∧ (⟨2, 1023, 0, 0⟩ : Frame).seq ≠ ((tNet tPort).link 0).expect ∧ (⟨0, 0, 0, 0⟩ : Frame).kind ≠ 1 ∧
    ((tNet { tPort with asked := true }).link 0).asked = true ∧
    [30, 31].map (fun k => decide (32 ≤ ((tNet { tPort with taken := k }).link 0).taken + 1)) = [false, true] ∧
    (((tNet { tPort with sent := [(4, .packet (tData 1 true false) 0)] }).link 0).sent.map (·.1)) = [4] ∧
    8 ≤ ((tNet { tPort with reqRow := 8 }).link 0).reqRow := by decide +kernel
/-- A control slot of rank 1. -/
def tSlotOf (failed tag : Bool) : CtlSlot := ⟨none, none, [], true, false, failed, false, false, 1, 1, 0, tag⟩
/-- Witness for O43. -/
theorem wit_slots : ((tNet tPort).link 0).up = true ∧ ((tNet tPort).link 0).keyed = true ∧ (tSlotOf false false).tagOk = false ∧
    (tSlotOf false true).tagOk = true ∧ (tSlotOf false true).failed = false ∧ (tSlotOf false true).zeroised = false ∧
    (tSlotOf true true).failed = true ∧ ((tNet tPort).link 0).peerFlags &&& 0x14 = 0 ∧ ((tNet tPort).link 0).sent.length < 512 ∧
    512 ≤ ((tNet { tPort with sent := List.replicate 512 (0, .packet (tData 1 true false) 0) }).link 0).sent.length := by decide +kernel
/-- The device seen at tick 2,000,000 with port 0 in some state since tick 0. -/
def tLate (st : Nat) : Device := { tNet { tPort with state := st } with watch := { tDev.watch with count := 2000000, age := 2000000 } }
/-- All lanes, the low group, the high one and none. Witness for O45. -/
theorem wit_training : ((tLate 2).link 0).up = true ∧ ((tLate 2).link 0).heard + 2000000 ≤ (tLate 2).watch.age ∧ ((tLate 1).link 0).state = 1 ∧
    ((tLate 1).link 0).since + 1000000 ≤ (tLate 1).watch.age ∧ bit 3 0 = true ∧ bit 3 1 = true ∧ tDev.shut 0 = false ∧
    ((tNet { tPort with state := 0, keyed := false }).link 0).enable = true ∧ ((tNet { tPort with state := 0, keyed := false }).link 0).state = 0 ∧
    3 ≤ (tNet tPort).bring.stage ∧ 0xFF % 256 = 0xFF ∧ 0x0F % 16 = 15 ∧ 0x0F % 256 ≠ 0xFF ∧ 0xF0 % 16 ≠ 15 ∧ 0xF0 % 256 / 16 = 15 ∧
    0x7E % 16 ≠ 15 ∧ 0x7E % 256 / 16 ≠ 15 := by decide +kernel
/-- Witness for O45. -/
theorem wit_keys : ((tNet tPort).link 0).up = true ∧ ((tNet tPort).link 0).miswired = false ∧ (tNet tPort).flock.state = 2 ∧
    ({ tNet tPort with flock := { tLead.flock with state := 1 } } : Device).flock.state = 1 ∧ tLead.flock.isBell = true ∧
    ((tNet tPort).link 0).receives = true ∧ ((tNet { tPort with keyed := false }).link 0).takes = true ∧
    ((tNet { tPort with keyed := false }).link 0).keyed = false ∧
    (tData 1 true false).dst ≠ (tNet tPort).flock.rank ∧ (tData 1 true false).tagOk = true ∧
    (tData 1 false false).tagOk = false ∧ bit (tData 1 false false).status 7 = false ∧ bit (tData 1 true true).status 7 = true := by decide +kernel

/-! ## Hefts, REFCLK, watch -/

/-- Heft 0 with its ceiling at step 2. -/
def tHeft : Device := tDev.onHeft 0 fun x => { x with ceiling := 2 }
/-- Witness for O46. -/
theorem wit_hefts : (tHeft.heft 0).holdover = false ∧ (tHeft.heft 0).step ≠ (tHeft.heft 0).target ∧ tDev.ref.state ≠ 2 ∧
    crosses 0 1 = true ∧ (tDev.heft 0).slewing = false ∧ (tDev.heft 0).holdover = false ∧ (tDev.heft 1).slewing = false ∧
    (tDev.heft 1).holdover = false ∧ (tDev.heft 0).step = (tDev.heft 1).step ∧ tDev.crossingEmpty 0 1 = true ∧
    ((tDev.onHeft 0 fun x => { x with slewing := true }).heft 0).slewing = true ∧
    (tDev.heft 41).gateEn = true ∧ (tDev.site 41).level = 0 ∧ (tDev.site 41).ramp = none ∧ tDev.quiet 41 = true := by decide +kernel
/-- Witness for O46. -/
theorem wit_unitReset : ((tDev.onSite 41 fun t => { t with state := 2, logical := 63 }).site 41).state = 2 ∧
    40 ≤ ((tDev.onSite 41 fun t => { t with state := 2, logical := 63 }).site 41).logical ∧
    ({ tDev with mem := { tDev.mem with state := 1 } } : Device).mem.state = 1 ∧ (tDev.link 5).up = false := by decide +kernel
/-- The device with REFCLK in a state since tick 0, seen at a tick. -/
def tRef (st now : Nat) : Device := { tDev with ref := { tDev.ref with state := st }, watch := { tDev.watch with age := now } }
/-- Witness for O47. -/
theorem wit_refclk : (tRef 0 0).ref.state = 0 ∧ (tRef 2 0).ref.state = 2 ∧ (tRef 2 0).ref.failed = false ∧
    (∀ x, x ∈ ((tRef 2 0).onHeft 0 fun x => { x with slewing := false }).hefts → x.slewing = false) ∧
    (tRef 1 10000000).ref.state = 1 ∧ (tRef 1 10000000).watch.age ≤ (tRef 1 10000000).ref.lostAt + 10000000 ∧
    (tRef 1 10000000).ref.lostAt + 10000000 ≤ (tRef 1 10000000).watch.age ∧ (∃ h, h ∈ tHeft.hefts ∧ h.step ≠ h.target) ∧
    (tRef 1 9999999).watch.age < (tRef 1 9999999).ref.lostAt + 10000000 ∧ (tRef 3 0).ref.state = 3 := by decide +kernel
/-- The device with its watch in a state at a count. -/
def tWatch (st count : Nat) : Device := { tDev with watch := { tDev.watch with state := st, count := count, skewLimit := 0 } }
/-- A frame of 65,536 at 64 low ticks and at 63: in step, at most 1,024 off and further off, to both sides; the second frame that
locks an unlocked watch, and the first. Witness for O47. -/
theorem wit_watch : 64 ≤ 64 ∧ (tWatch 1 0).watch.fresh = none ∧ 65536 % 65536 = 0 ∧ (65536 : Nat) < 2 ^ 64 ∧
    65536 + (tWatch 1 65536).watch.delay = (tWatch 1 65536).watch.count ∧
    65536 + (tWatch 1 64512).watch.delay ≠ (tWatch 1 64512).watch.count ∧
    65536 + (tWatch 1 64512).watch.delay ≤ (tWatch 1 64512).watch.count + 1024 ∧
    (tWatch 2 66560).watch.count ≤ 65536 + (tWatch 2 66560).watch.delay + 1024 ∧
    (tWatch 1 64511).watch.count + 1024 < 65536 + (tWatch 1 64511).watch.delay ∧
    65536 + (tWatch 2 66561).watch.delay + 1024 < (tWatch 2 66561).watch.count ∧ (tWatch 0 0).watch.state = 0 ∧
    (tWatch 0 0).watch.last = none ∧ ({ (tWatch 0 65636).watch with last := some (65536 - 65536, 100) } : Watch).last = some (0, 100) ∧
    (tWatch 0 65636).watch.count = 100 + 65536 ∧ (tWatch 1 0).watch.state ≠ 4 ∧ ¬ 64 ≤ 63 ∧ (tWatch 4 0).watch.state = 4 ∧
    (tWatch 3 0).watch.skewLimit < (tWatch 3 0).watch.skew ∧ (tWatch 3 0).watch.skewed = false := by decide +kernel
/-- Pen 0 waits in a WATCH_WAIT for a count of 0 or 2^30 without a comparator, asked for at tick 0; the count stands at some tick. -/
def tWaits (v now : Nat) : Device := { (tSlot .sync (.watchWait ⟨0, false⟩) .waiting).onSite 0 fun t => { t with
  seqr := { t.seqr with act := t.seqr.act.map fun (a : Active) => { a with want := some v } } } with watch := { tDev.watch with count := now } }
/-- Witness for O48. -/
theorem wit_watchRegisters : tBare.shut 0 = false ∧ tBare.anyDrive = false ∧ (∀ c, c ∈ tBare.watch.cmps → c = none) ∧
    tBare.watch.free = false ∧ tDev.anyDrive = true ∧ tDev.recovering = false ∧ tDev.outside 0 = false ∧ tDev.outside 1 = false ∧
    (({ tDev.watch with cmps := tDev.watch.cmps.set 15 (some ⟨7, 0, 0, []⟩) } : Watch).cmps.getD 15 none) = some ⟨7, 0, 0, []⟩ ∧
    7 ≤ (tWatch 1 7).now ∧ (tWatch 1 6).now < 7 := by decide +kernel
/-- Witness for O48. -/
theorem wit_watchRetry : [(0, 1023), (0, 1024), (2 ^ 30, 1024)].all (fun x => let d := tWaits x.1 x.2
      (d.goes 0).isSome && (((d.site 0).seqr.slotAt .fwd .sync 0).map fun a =>
        (a.cmd.body, a.want, a.joined, a.phase, a.asked)) = some (.watchWait ⟨0, false⟩, some x.1, false, .waiting, 0) && d.now = x.2) = true ∧
    ((tWaits (2 ^ 30) 1024).watch.join (2 ^ 30) 2 0 (.wait 0 false 0)).isSome = true := by decide +kernel

/-! ## The crook -/

/-- An image of one byte with a good header; only its signature is open. -/
def tImage : Image := ⟨[0x41, 0x48, 0x4E, 0x56, 1, 0, 0, 0] ++ zeros 16 ++ [1] ++ zeros 7 ++ sha512 [7#8] ++ zeros 416, [7#8]⟩
/-- The module in S1 with the crook not yet started; its fuses, TAMPER_N, low for 200 ticks or high, and SPI NOR. -/
def tCold (dead low : Bool) (nor : Option Image) : Device := { State.reset.dev with
  pins := { State.reset.dev.pins with tamper := !low }
  sec := { State.reset.dev.sec with
    nor := nor, tamperLow := if low then some 200 else none, fuses := { State.reset.dev.sec.fuses with decommissioned := dead } } }
/-- Witness for O49. -/
theorem wit_boot : [(true, false), (false, true), (false, false)].all (fun x => let d := tCold x.1 x.2 none
      d.bring.stage ≠ 0 && d.sec.state = 0 && d.sec.image.isNone && d.sec.fuses.decommissioned = x.1 && d.tampered = x.2 &&
        d.sec.nor.isNone) = true ∧
    (tCold false false (some ⟨zeros 512, []⟩)).sec.imageReason ⟨zeros 512, []⟩ = some 1 := by decide +kernel
/-- The image passes every check of R433 where the ROM key's signature does. Witness for O49, O50. -/
theorem wit_image (h : Config.verify 6 ((List.range 64).map (Config.romKeyDigest 0)) ((tImage.header.drop 0).take 0x60) ((tImage.header.drop 0x60).take 132) = true) :
    (tCold false false (some tImage)).sec.imageReason tImage = none := by
  have e : headField tImage.header 0x14 4 = 0 := by decide +kernel
  unfold Sec.imageReason
  dsimp only
  rw [e]
  rw [if_neg (by decide +kernel), if_neg (by decide +kernel), if_neg (by decide +kernel), if_neg (by decide +kernel),
    if_neg (by decide +kernel), if_neg (by rw [h]; decide)]
  decide +kernel
/-- The device before full service with an owner and a nonce. -/
def tOwned : Device := { tS3 with sec := { tDev.sec with nonce := some 4, fuses := { tDev.sec.fuses with owner := true } } }
/-- Witness for O49, O51, O52. -/
theorem wit_mailbox : (tDev.fn 8).mbBusy = false ∧ tDev.permits 8 0x01 = true ∧ tDev.permits 8 0x02 = true ∧ tDev.permits 0 0x03 = true ∧
    tDev.permits 0 0x04 = true ∧ tDev.sec.drbg = true ∧ tDev.permits 0 0x30 = true ∧ tDev.permits 8 0x04 = false ∧
    ({ tDev with sec := { tDev.sec with state := 2 } } : Device).permits 0 0x01 = false ∧ tDev.permits 0 0x10 = true ∧
    tDev.sec.fuses.owner = false ∧ tOwned.sec.fuses.owner = true ∧ tOwned.permits 0 0x11 = true ∧ tOwned.permits 0 0x12 = true ∧
    tOwned.full = false ∧ tOwned.sec.approved = false ∧ tDev.permits 0 0x20 = true ∧ tRecov.permits 0 0x21 = true ∧
    tRecov.tampered = false ∧ ({ tRecov with
      sec := { tRecov.sec with tamperLow := some 200 } } : Device).tampered = true ∧ tRecov.permits 0 0x22 = true ∧ tDev.sec.imageReason ⟨zeros 512, []⟩ = some 1 := by decide +kernel
/-- An officer's signature that the owner key verifies, and one that it does not. Witness for O51. -/
theorem wit_officer (op : Nat) (b : Bool)
    (h : Config.verify 9 tOwned.sec.fuses.ownerHash (sha512 (BitVec.ofNat 8 op :: randomBytes 4 64)) (tOwned.request 0 0 132) = b) :
    tOwned.officer 0 op = b := h
/-- A connection as far as algorithms, with a session that is ready or not. -/
def tSpdm (ready : Bool) : Device := { tDev with sec := { tDev.sec with spdmUp := 3, sessions := [⟨1, ready, ready⟩] } }
/-- Witness for O53. -/
theorem wit_spdm : tDev.spdmServes = true ∧ tDev.sec.spdmUp < 1 ∧ 3 ≤ (tSpdm true).sec.spdmUp ∧
    (tSpdm false).sec.sessions.find? (fun x => x.id = 1 ∧ !x.ready) = some ⟨1, false, false⟩ ∧
    (tSpdm false).sec.sessions.any (·.id = 1) = true ∧ ((tSpdm true).sec.sessions.any fun x => x.id = 1 && x.ready && x.user) = true ∧
    ((tSpdm false).sec.sessions.any fun x => x.id = 1 && x.ready && x.user) = false ∧ 8 ≠ 0 := by decide +kernel
/-- Witness for O54. -/
theorem wit_selfTests : 3 ≤ tS3.bring.stage ∧ tS3.bring.sram = true ∧ ({ tS3 with sec := { tS3.sec with state := 0 } } : Device).sec.state = 0 ∧
    tDev.sec.state ≠ 2 ∧ tDev.bring.kat = true ∧ tDev.sec.state = 1 := by decide +kernel
/-- Witness for O54. -/
theorem wit_tamper : tDev.sec.tamperLow = none ∧ ({ tDev.sec with tamperLow := some 200 } : Sec).tamperLow = some 200 ∧
    ({ tDev.sec with tamperLow := some 199 } : Sec).tamperLow = some 199 ∧ 200 ≤ 200 ∧ 199 < 200 ∧ tDev.sec.tamperDone = false := by decide +kernel
/-- Witness for O54. -/
theorem wit_tap : 1 ≤ tDev.bring.stage ∧ tDev.tap ≠ .die ∧ tDev.tapBound = true ∧
    ({ tDev with sec := { tDev.sec with recordRead := true } } : Device).tapBound = false ∧ 2 ≤ tDev.bring.stage := by decide +kernel

/-! ## Power, resets, bring-up -/

/-- Witness for O55. -/
theorem wit_moduleReset : tDev.outside 0 = false ∧ tDev.bring.stage ≠ 0 ∧ 2 ≤ tDev.bring.stage ∧ tDev.recovering = false := by decide +kernel
/-- The module in S1 with an image, its rails up or not. -/
def tCore (rails : Bool) : Device := { State.reset.dev with
  pins := { State.reset.dev.pins with inputOk := true, thermtrip := false }
  power := { State.reset.dev.power with operation := true, rails := rails, vcoreA := 750, vcoreB := 821 }
  sec := { State.reset.dev.sec with image := some [] } }
/-- Witness for O56. -/
theorem wit_power : (tCore false).bring.stage = 1 ∧ (tCore false).sec.image.isSome = true ∧ (tCore false).pins.inputOk = true ∧
    (tCore false).power.operation = true ∧ (tCore false).pins.thermtrip = false ∧ (tCore true).power.rails = true ∧
    (tCore true).recovering = false ∧ (tCore true).ref.state = 0 ∧ (37999 : Nat) < 38000 ∧ (62000 : Nat) < 62001 ∧ (tCore false).power.rails = false ∧
    (40000 : Nat) ≤ 40000 ∧ (620 : Nat) ≤ 820 ∧ (tCore true).power.vcoreA ≤ 820 ∧ 749 < (tCore true).power.vcoreA ∧
    820 < (tCore true).power.vcoreB ∧
    (List.range 42).all (fun h => h < 21 || !((tCore true).heft h).slewing) = true ∧
    (((tCore true).onHeft 20 fun x => { x with slewing := true }).heft 20).slewing = true ∧ 2 ≤ tDev.bring.stage := by decide +kernel
/-- Whatever the steps need, 0.82 V is enough and 0 V is not. Witness for O56. -/
theorem wit_vcore : (tCore true).vcoreNeed 1 ≤ 820 ∧ 0 < (tCore true).vcoreNeed 0 := by
  generalize tCore true = d
  have top : ∀ n, vcoreFor n ≤ 820 ∧ 0 < vcoreFor n := fun n => by unfold vcoreFor; omega
  have hi : ∀ (l : List Nat) v, v ≤ 820 → l.foldl (fun v h => max v (vcoreFor (d.heft h).step)) v ≤ 820 := by
    intro l
    induction l with
    | nil => exact fun v h => h
    | cons x l ih => exact fun v h => ih _ (Nat.max_le.2 ⟨h, (top _).1⟩)
  have lo : ∀ (l : List Nat) v, 0 < v ∨ l ≠ [] → 0 < l.foldl (fun v h => max v (vcoreFor (d.heft h).step)) v := by
    intro l
    induction l with
    | nil => exact fun v h => h.elim id fun h => absurd rfl h
    | cons x l ih => exact fun v _ => ih _ (.inl (Nat.lt_of_lt_of_le (top _).2 (Nat.le_max_right ..)))
  exact ⟨hi _ 0 (by omega), lo _ 0 (.inr (by simp))⟩
/-- The module in S2 with its sites tested up to n, all passed. -/
def tS2 (n : Nat) : Device := { tDev with
  bring := { tDev.bring with stage := 2, tested := List.range n, passed := List.range n }
  sec := { tDev.sec with state := 0 }
  sites := List.replicate n { Site.reset with state := 1 } ++ List.replicate (42 - n) .reset }
/-- The module in S3, its memory to be trained. -/
def tTrain : Device := { tS3 with mem := { tS3.mem with state := 1 } }
/-- Witness for O56. -/
theorem wit_bringUp : (tS2 6).bring.stage = 2 ∧ (tS2 6).sec.state = 0 ∧ (tS2 6).untested = 6 :: (List.range 42).drop 7 ∧
    (List.range 42).drop 7 ≠ [] ∧ (tS2 6).bring.passed.length < 7 ∧ (tS2 7).untested = 7 :: (List.range 42).drop 8 ∧
    (tS2 7).bring.passed.length < 8 ∧ (tS2 7).sites.length = 42 ∧ tTrain.bring.stage = 3 ∧ tTrain.mem.state = 1 ∧ tTrain.sec.state ≠ 2 ∧
    tTrain.mem.forceLow = false ∧ 31 < 32 := by decide +kernel
/-- The device at age 1,000,000 with its measurements where they have stood since a tick, the governor's last steps then. -/
def tPower (since : Option Nat) (guard : Bool) : Device := { tDev with
  watch := { tDev.watch with age := 1000000 }
  power := { tDev.power with
    limit := 1600, last := 2000, fast := 1601, slow := 1601, guard := guard
    slowOver := since, slowLow := since, fastOver := since, fastLow := since, downAt := 0, upAt := 0, guardAt := 0 } }
/-- Since tick 0, and since a tick too late; in guard and not. Witness for O57. -/
theorem wit_governor : 2 ≤ tDev.bring.stage ∧ (tPower (some 0) false).power.slowOver = some 0 ∧ 0 + 100000 ≤ (tPower (some 0) false).watch.age ∧
    (tPower (some 0) false).power.slowLow = some 0 ∧ 0 + 1000000 ≤ (tPower (some 0) false).watch.age ∧
    (tPower (some 0) false).power.upAt + 1000000 ≤ (tPower (some 0) false).watch.age ∧ (tPower (some 0) false).power.guard = false ∧
    (tPower none false).power.slowOver = none ∧ (tPower none false).power.fastOver = none ∧ (tPower none false).power.last ≤ 2000 ∧
    (tPower (some 0) true).power.guard = true ∧ (tPower (some 0) true).power.guardAt + 100000 ≤ (tPower (some 0) true).watch.age ∧
    min 1600 (max 800 (tPower (some 0) true).power.limit) < (tPower (some 0) true).power.fast ∧
    (tPower (some 0) true).power.fastLow = some 0 := by decide +kernel
/-- Heft 48, hot or cool since tick 0 of its age, a tick before a step is due and when it is. Witness for O57. -/
theorem wit_temperature : 48 < 49 ∧ 48 < tDev.hefts.length ∧ 2 ≤ tDev.bring.stage ∧
    (let x := (tDev.onHeft 48 fun x => { x with hotAt := some 0, coolAt := some 0 }).heft 48;
      (if 95 ≤ 95 then some (x.hotAt.getD 99999) else none) = some 0 ∧ (if 89 < 90 then some (x.coolAt.getD 1000000) else none) = some 0) ∧
    99999 < 0 + 100000 ∧ 0 + 100000 ≤ 100000 ∧ 0 + 1000000 ≤ 1000000 ∧ ¬ 95 ≤ 94 ∧ ¬ 90 < 90 ∧ 105 ≤ 105 := by decide +kernel
/-- Witness for O58. -/
theorem wit_pmbus : ({ tDev.pins with pwrEn := true } : Pins).pwrEn = true ∧ State.reset.dev.pins.pwrEn = false ∧
    State.reset.dev.power.rails = false ∧ 0x40 % 256 ≠ 0x80 ∧ 0x40 % 256 ≠ 0 := by decide +kernel
/-- Witness for O58. -/
theorem wit_smbus : State.reset.dev.bring.stage ≠ 0 ∧ bit ({ tDev.power with alert := 2 ^ 4 } : Power).alert 4 = true ∧ tDev.power.alert = 0 ∧
    ({ tDev.power with alert := 2 ^ 4 } : Power).alert ≠ 0 := by decide +kernel
/-- The bellwether with ports up and a read of rank 3 and two reads of rank 1 outstanding since tick 0, seen at a tick. -/
def tTunnel (now : Nat) : Device := { tUp true tLead with
  watch := { tLead.watch with age := now }
  flock := { tLead.flock with tunnels := [⟨3, 3, 0, 4, 0, none⟩, ⟨4, 1, 0, 4, 0, none⟩, ⟨5, 1, 8, 8, 0, none⟩], nextTag := 6 } }
/-- A packet for a rank, from the other. -/
def tFrom (dst : Nat) (tag : Nat) : Packet := { tDev.packetTo dst 2 2 with src := 1 - dst, tally := tag }
/-- Witness for O59. -/
theorem wit_tunnel : tLead.outside 0 = false ∧ tLead.bellwether = true ∧ 1 ≠ tLead.flock.rank ∧ tLead.present 1 = true ∧
    [(tUp true tLead, 0), (tUp true tFollow, 1)].all (fun x =>
      (x.1.link 0).receives && (tFrom x.2 4).dst = x.1.flock.rank && !bit (tFrom x.2 4).status 7 && (tFrom x.2 4).tagOk) = true ∧
    (tUp true tFollow).tunnelServes = true ∧ (tUp true tLead).bellwether = true ∧ (tUp true tLead).present (tFrom 0 4).src = true ∧
    (tTunnel 0).flock.tunnels = [⟨3, 3, 0, 4, 0, none⟩] ++ ⟨4, 1, 0, 4, 0, none⟩ :: [⟨5, 1, 8, 8, 0, none⟩] := by decide +kernel
/-- A rank outside the flock and a member that has failed are both absent to a bellwether of another rank, every rank where no flock is
formed; a younger read of a rank, an older one, a tick before it is late and when it is. Witness for O60. -/
theorem wit_tunnelAbsent : tDev.outside 0 = false ∧ tDev.bellwether = false ∧ 5 ≠ tLead.flock.rank ∧ bit tLead.flock.members 5 = false ∧
    ({ tLead with flock := { tLead.flock with failed := [1] } } : Device).flock.failed.contains 1 = true ∧ tLead.flock.tunnels = [] ∧
    ((tTunnel 0).flock.tunnels.map fun y => (y.tag, y.rank, y.ready)) = [(3, 3, none), (4, 1, none), (5, 1, none)] ∧
    bit (tTunnel 0).flock.members 3 = false ∧ 0 + 100000 ≤ (tTunnel 100000).watch.age ∧ (tTunnel 99999).watch.age < 0 + 100000 ∧
    (tTunnel 0).bellwether = true ∧ ((tTunnel 0).link 0).receives = true ∧ (∀ x, x ∈ (tTunnel 0).flock.tunnels → x.tag ≠ (tFrom 0 6).tally) := by
  decide +kernel

/-! ## Whole-machine statements -/

/-- The device in service has its parts and its counters lie within their fuses. Witness for O3, O4. -/
theorem wit_sized : tDev.sized ∧ tDev.sec.fuses.coteGen ≤ 32 ∧ tDev.sec.fuses.tamperCount ≤ 32 := by
  simp [Device.sized, tDev, tPen, Device.reset]
/-- A step on an empty queue and one on a queue with a command answer a next state; an owner may be enrolled. Witness for O3, O4, O52. -/
theorem wit_step : (∃ t, step ⟨tDev, []⟩ = .next t) ∧ (∃ t, step ⟨tOwned, [.heftWake 0]⟩ = .next t) ∧ tOwned.sec.fuses.owner = true :=
  ⟨⟨_, rfl⟩, ⟨_, rfl⟩, rfl⟩
/-- Witness for O6. -/
theorem wit_memLine : ([1#8] : List Byte) ≠ [] ∧ 127 % 64 + [1#8].length ≤ 64 := by decide +kernel
/-- Witness for O10. -/
theorem wit_tallies : tDev.tallyAt 0 131071 = some (.global 8191) ∧ tDev.tallyBad (.global 8191) = false ∧
    ({ tDev with gateRows := { tDev.gateRows with badRows := [255] } } : Device).tallyBad (.global 8191) = true ∧
    has (sends tDev [.tallyAdd 0 131071 1]) (.tallyAdd 0 131071 1) = true ∧ has (sends tDev [.tallySet 0 131071 1]) (.tallySet 0 131071 1) = true := by
  decide +kernel
/-- Witness for O1. -/
theorem wit_idle : ∀ f, f < 8 → (tBare.fold f).drives = [] := by decide +kernel
/-- The last address of each capacity of a row width, and the last line of a check line. Witness for O8. -/
theorem wit_places : 15 * 2 ^ 35 - 1 < 15 * 2 ^ 35 ∧ 15 * 2 ^ 34 - 1 < 15 * 2 ^ 34 ∧ 14 < 15 := by decide
/-- An access over a block's end, a whole gate flit and the last stations. Witness for O9. -/
theorem wit_flits : 0 < 2 ∧ gateBlocks 255 2 = [(255, 1), (256, 1)] ∧ 0 < 256 ∧ 512 % 256 + 256 ≤ 256 ∧ 39 < 40 := by decide +kernel
/-- Witness for O2, O44. -/
theorem wit_queue : 0 < [Instr.nop 0].length ∧ 543 < 544 := by decide

/-- The device of a next state. -/
def tAfter (i : Instr) (d : Device) : Device :=
  match step ⟨d, [i]⟩ with
  | .next t => t.dev
  | _ => Device.reset

/-! ## Worked examples of the spec -/

/-- 00, Worked example: decoding an IDREV value. -/
theorem test_idrev_of_the_example : Device.reset.idrev = 0x57B40111#32 := by decide +kernel
/-- 02, Worked example: cancellation inside the window. -/
theorem test_cancellation_inside_the_window : cellDot (([(0x3F80, 0x3F80), (0xBF80, 0x3F80), (0x3580, 0x3560), (0x3580, 0x3440)] ++
    List.replicate 28 (0, 0x3F80)).map fun (p : Nat × Nat) => (decodeElem .bf16 false p.1, decodeElem .bf16 false p.2)) = 0x2B400000#32 := by decide +kernel
/-- 02, Worked example: one FP16 product in both modes. -/
theorem test_fp16_product_in_both_modes :
    passes .fp16 .fp16 true false [(decodeElem .fp16 false 0x3C01, decodeElem .fp16 false 0x3C01)] ⟨0#32, 0#32⟩ = ⟨0x3F804008#32, 0#32⟩ ∧
    passes .fp16 .fp16 false false [(decodeElem .fp16 false 0x3C01, decodeElem .fp16 false 0x3C01)] ⟨0#32, 0#32⟩ = ⟨0x3F804000#32, 0#32⟩ := by
  decide +kernel
/-- 02, Worked example: a scaled E4M3 block and a stochastic BF16 element; 1,000, -3, 0.3 and 0.001. -/
theorem test_scaled_block : convBlock .e4m3 (([0x447A0000#32, 0xC0400000#32, 0x3E99999A#32, 0x3A83126F#32] ++ List.replicate 28 0#32).map
    fun w => (f32 w, RMode.nearest)) = (0x81, [0x78, 0xB4, 0x1A, 0x00] ++ List.replicate 28 0) := by decide +kernel
theorem test_stochastic_element : convElem .bf16 (.stoch 0xA3F0) (f32 0x3F806000#32) = ⟨0x3F81, false⟩ ∧
    (convElem .bf16 (.stoch 40959) (f32 0x3F806000#32)).code = 0x3F80 ∧ (convElem .bf16 (.stoch 40960) (f32 0x3F806000#32)).code = 0x3F81 := by
  decide +kernel
/-- 06, Worked example: encoding P01's forward product. -/
theorem test_product_words : fetchOne 0x1000 [0xFFFF_FFFF_0000_0600_0000_0300_20C2_8240#128, 0x0000_8400_0420_0800_0006_0100_0400_0008#128,
      0x0000_0000_0000_8000_0000_0000_0000_0000#128] =
    .queued .fwd ⟨0x1000, 3, false, 3112, 1, false, .product { tProduct with
      src := 0, ascl := true, bscl := true, st := 3, n := 8, kc := 4, ct := 1, cn := 3, abase := 0x20000, astep := 528, ak := 132, asoff := 1024 }⟩ := by
  decide +kernel
/-- 07, Worked example: one element under rule #1. -/
theorem test_shear_element : ({ tShear with rule := 1, imms := [0x3C000000#32, 0x3F600000#32, 0x3F7FFC00#32, 0x3F800000#32, 0x35800000#32,
      0x3F700000#32, 0x41800000#32, 0x00000106#32] } : Shear).element 0x3F000000#32 0x3F800000#32 0#32 0#32 =
    (0x3F7FBC00#32, 0x3D800000#32, 0x3C800000#32) ∧ convElem .bf16 .nearest (f32 0x3F7FBC00#32) = ⟨0x3F80, false⟩ := by decide +kernel
/-- 08, Worked example: two draws at a stile. -/
theorem test_two_draws : (((⟨[], 0x1E74388B#32 >>> 1 ||| 0x80000000#32, 0, none⟩ : Arbiter).gen, lfsr 0x8F3A1C45#32,
      winner ((0x8F3A * 144) / 65536) 0 [(0, 32), (1, 96), (10, 16)], winner ((0x1E74 * 144) / 65536) 0 [(0, 32), (1, 96), (10, 16)]) =
    (0x8F3A1C45#32, 0x1E74388B#32, some 1, some 0)) := by decide +kernel
theorem test_draw_after_the_example : let a := (⟨[], 0x8F3A1C45#32, 1, none⟩ : Arbiter).draw [32, 96, 0, 0, 0, 0, 0, 0, 0, 0, 16] [(0, 8), (1, 32), (10, 1)]
    (a.gen, a.holder, a.last) = (0x1E74388B#32, some (0, 8), 1) := by decide +kernel
/-- 10, Worked example: where a fold's line lands. -/
theorem test_line_of_a_fold : quarterOf (2 * 64424509440 + 0x10100) = 0 ∧ channelOf (2 * 64424509440 + 0x10100) = 1 := by decide +kernel
/-- 11, Worked example: the same sum on four devices and on sixteen; leaves in an order of arrival that is not theirs. -/
theorem test_same_sum : let leaf := fun (i : Nat) (w : W32) => (⟨i, 1, 0, bytesOfWords [w]⟩ : Partial)
    let ps := ((List.range 11).map fun i => leaf (5 + i) 0#32) ++
      [leaf 4 0xBF800000#32, leaf 3 0x34000000#32, leaf 2 0x33800000#32, leaf 1 0x33800000#32, leaf 0 0x3F800000#32]
    ps.foldl (fun l p => joinGo 16 8 l p) [] = [⟨0, 16, 0, bytesOfWords [0x34800000#32]⟩] := by decide +kernel
/-- 09, Worked example: two modules at different distances. -/
theorem test_frame_check : frameCheck 0x000000A1B2C30000 = 0xD0 := by decide +kernel
theorem test_marker_at_module_a :
    let t := tAfter (.watchFrame 0xA1B2C30000 0xD0 64) { tDev with watch := { tDev.watch with state := 1, delay := 3, count := 0xA1B2C30003 } }
    t.watch.state = 1 ∧ t.watch.count = 0xA1B2C30003 ∧ t.watch.slips = 0 := by decide +kernel
/-- 01, Worked example: eight folds on a WB36 after a retirement in bypass mode. -/
theorem test_arcs_of_35_pens : (List.range 35).map (arcOf 35 8) =
    List.replicate 5 0 ++ List.replicate 5 1 ++ List.replicate 5 2 ++ List.replicate 4 3 ++ List.replicate 4 4 ++ List.replicate 4 5 ++
      List.replicate 4 6 ++ List.replicate 4 7 := by decide +kernel
/-- 13, Worked example: a fold's ring wrapping: the two RING_CFG values. -/
theorem test_ring_cfg_values : ringOffset 130 2 = 0x110828 ∧ ringOffset 642 2 = 0x112828 ∧
    [(31, 31), (30, 27), (26, 22), (21, 13)].map (fun x => bits 0x91904000 x.1 x.2) = [1, 2, 6, 130] ∧
    [(31, 31), (30, 27), (26, 22), (21, 13)].map (fun x => bits 0x9180A000 x.1 x.2) = [1, 2, 6, 5] := by decide +kernel

/-! ## Single steps -/

theorem test_reset_idle : step State.reset = .next { State.reset with dev := Device.reset.tick } := rfl
/-- A queue is carried out from its front. -/
theorem test_first_in_first_out : step ⟨tDev, [.heftWake 0, .nop 1]⟩ = exec (.heftWake 0) ⟨tDev, [.nop 1]⟩ := rfl
/-- An increment of 1 to #FFFFFFFF wraps (R199). -/
theorem test_tally_wraps : (tAfter (.controlTallyAdd 0 5 1) (sends (tSite fun t => { t with tally := [(5, 0xFFFFFFFF#32)] }) [.tallyAdd 0 5 1])).tallyGet (.pen 0 5) = 0#32 := by decide +kernel
/-- The last flit of a transfer lands its words and not its poisoned ones, and its tally takes 1 (R240, R241). -/
theorem test_bulk_flit : let t := (tAfter (.bulkWriteFlit { tFlit 0 with mask := [true, false] ++ List.replicate 6 true }) tDev).site 0
    t.pad.read 0x3FFFFC0 = 1#8 ∧ t.pad.read 0x3FFFFC8 = 0#8 ∧ t.pad.read 0x3FFFFD0 = 1#8 := by decide +kernel
/-- THERMTRIP at 105 and not at 104 (R489). -/
theorem test_thermtrip : (tAfter (.thermtrip 3 105) tDev).pins.thermtrip = true ∧ (tAfter (.thermtrip 3 104) tDev).pins.thermtrip = false := by
  decide +kernel
/-- FOLDCFG.count takes 2 on a device without drives and ignores 3 (R20). -/
theorem test_fold_count : (tAfter (.foldcfgCount 0 2) tBare).foldCount = 2 ∧ (tAfter (.foldcfgCount 0 3) tBare).foldCount = 1 := by decide +kernel
/-- SET_APPROVED without an owner ends with NOT_PERMITTED and changes no mode (R468, R471). -/
theorem test_no_owner : (tAfter (.setApproved 0) tS3).sec.approved = false := by decide +kernel

/-! ## Ill-formed commands are refused -/

theorem test_wf_site : (.nop 42 : Instr).wf = false ∧ (.nop 41 : Instr).wf = true := by decide +kernel
theorem test_wf_unit : (.commandCompletion 0 .fwd .mover 8 : Instr).wf = false ∧ (.commandCompletion 0 .fwd .mover 7 : Instr).wf = true := by decide +kernel
theorem test_wf_bulk_flit : (.bulkWriteFlit { tFlit 0 with off := 4 } : Instr).wf = false ∧ (.bulkWriteFlit (tFlit 0) : Instr).wf = true := by decide +kernel
theorem test_wf_bulk_words : (.bulkWriteFlit { tFlit 0 with words := [] } : Instr).wf = false := by decide +kernel
theorem test_wf_read_order : (.remoteReadOrder { tOrder 0x1000 with site := 42 } [] : Instr).wf = false ∧ (.remoteReadOrder (tOrder 0x1000) [] : Instr).wf = true := by decide +kernel
theorem test_wf_feed_flit : (.feedFlit { tFed with addr := 0x2001 } : Instr).wf = false ∧ (.feedFlit tFed : Instr).wf = true := by decide +kernel
theorem test_wf_tally_flit : (.controlTallyAdd 0 (2 ^ 17) 1 : Instr).wf = false ∧ (.controlTallyAdd 0 (2 ^ 17 - 1) 1 : Instr).wf = true := by decide +kernel
theorem test_wf_tally_value : (.controlTallySet 0 1 (2 ^ 32) : Instr).wf = false ∧ (.controlTallySet 7 1 (2 ^ 32 - 1) : Instr).wf = true := by decide +kernel
theorem test_wf_muster_flit : (.musterArrive 0 4 0 0 0 : Instr).wf = false ∧ (.musterArrive 0 3 63 39 0 : Instr).wf = true := by decide +kernel
theorem test_wf_muster_release : (.musterRelease 0 0 64 0 0 0 : Instr).wf = false ∧ (.musterRelease 0 0 63 0 0 0 : Instr).wf = true := by decide +kernel
theorem test_wf_setup_address : (.setupAddress true true (2 ^ 25) : Instr).wf = false ∧ (.setupAddress true true (2 ^ 25 - 1) : Instr).wf = true := by decide +kernel
theorem test_wf_setup_data : (.setupData true true (2 ^ 32) : Instr).wf = false := by decide +kernel
theorem test_wf_event_fragment : (.eventFragment 42 0 true : Instr).wf = false ∧ (.eventFragment 41 0 false : Instr).wf = true := by decide +kernel
theorem test_wf_arbiter : (.arbiterDraw 18 [] : Instr).wf = false ∧ (.arbiterDraw 17 [(12, 32)] : Instr).wf = true := by decide +kernel
theorem test_wf_requester : (.arbiterDraw 17 [(13, 1)] : Instr).wf = false := by decide +kernel
theorem test_wf_cut : (.cut 0 1024 (.host true) : Instr).wf = false ∧ (.cut 0 1023 (.host true) : Instr).wf = true := by decide +kernel
theorem test_wf_address : (.memoryRead (2 ^ 39) .ok .ok : Instr).wf = false ∧ (.memoryRead 0 .ok .ok : Instr).wf = true := by decide +kernel
theorem test_wf_fold : (.memoryWrite 8 0 [] : Instr).wf = false ∧ (.memoryWrite 7 0 [] : Instr).wf = true := by decide +kernel
theorem test_wf_channel : (.channelPowerDown 32 : Instr).wf = false ∧ (.channelPowerDown 31 : Instr).wf = true := by decide +kernel
theorem test_wf_quarter : (.rfm 4 (false, false) : Instr).wf = false ∧ (.rfm 3 (true, false) : Instr).wf = true := by decide +kernel
theorem test_wf_scrub_bank : (.paddockScrub 0 64 true [] : Instr).wf = false ∧ (.paddockScrub 0 63 true [] : Instr).wf = true := by decide +kernel
theorem test_wf_row_store : (.rowSpare (.acc 0 8) 0 .ok : Instr).wf = false ∧ (.rowSpare (.acc 0 7) 0 .ok : Instr).wf = true := by decide +kernel
theorem test_wf_shears : (.memoryShearsUpdate 4 : Instr).wf = false ∧ (.memoryShearsUpdate 3 : Instr).wf = true := by decide +kernel
theorem test_wf_port : (.linkFailed 6 : Instr).wf = false ∧ (.linkFailed 5 : Instr).wf = true := by decide +kernel
theorem test_wf_ring : (.wait 512 0 : Instr).wf = false ∧ (.wait 511 0 : Instr).wf = true := by decide +kernel
theorem test_wf_slot : (.stepOpen 0 4 : Instr).wf = false ∧ (.stepOpen 7 3 : Instr).wf = true := by decide +kernel
theorem test_wf_function : (.attest 9 : Instr).wf = false ∧ (.attest 8 : Instr).wf = true := by decide +kernel
theorem test_wf_width : (.sqDoorbell 0 0 3 0 : Instr).wf = false ∧ (.sqDoorbell 0 0 4 0 : Instr).wf = true := by decide +kernel
theorem test_wf_doorbell_value : (.cqDoorbell 0 0 4 (2 ^ 32) : Instr).wf = false := by decide +kernel
theorem test_wf_ring_pair : (.ringEnable 0 1024 0 : Instr).wf = false ∧ (.ringEnable 0 1023 0 : Instr).wf = true := by decide +kernel
theorem test_wf_register_value : (.traceEnable 0 (2 ^ 32) : Instr).wf = false ∧ (.traceEnable 0 1 : Instr).wf = true := by decide +kernel
theorem test_wf_handover : (.foldHandover 0 8 : Instr).wf = false ∧ (.foldHandover 0 7 : Instr).wf = true := by decide +kernel
theorem test_wf_rank : (.recovHandover 0 64 : Instr).wf = false ∧ (.recovHandover 0 63 : Instr).wf = true := by decide +kernel
theorem test_wf_aperture : (.apertureRead 0 (2 ^ 20) 4 [] : Instr).wf = false ∧ (.apertureRead 0 (2 ^ 20 - 8) 8 [] : Instr).wf = true := by decide +kernel
theorem test_wf_register : (.registerWrite 0 (2 ^ 25) 4 0 : Instr).wf = false ∧ (.registerWrite 0 0 4 0 : Instr).wf = true := by decide +kernel
theorem test_wf_image : (.fwUpdate 0 (some ⟨[], []⟩) : Instr).wf = false ∧ (.fwUpdate 0 (some tImage) : Instr).wf = true := by decide +kernel
theorem test_wf_challenge : (.challenge [] : Instr).wf = false ∧ (.challenge (zeros 32) : Instr).wf = true := by decide +kernel
theorem test_wf_operation : (.operation (some 256) : Instr).wf = false ∧ (.operation (some 255) : Instr).wf = true := by decide +kernel
theorem test_wf_reading : (.readPin (2 ^ 16) : Instr).wf = false ∧ (.readPin (2 ^ 16 - 1) : Instr).wf = true := by decide +kernel
theorem test_wf_alert_bits : (.smbAlertClear (2 ^ 16) : Instr).wf = false ∧ (.smbAlertClear 31 : Instr).wf = true := by decide +kernel
theorem test_wf_frame : (.frameReceive 0 ⟨1, 1024, 0, 0⟩ : Instr).wf = false ∧ (.frameReceive 5 ⟨1, 1023, 0, 0⟩ : Instr).wf = true := by decide +kernel
theorem test_wf_replay : (.replayRequest 0 1024 : Instr).wf = false ∧ (.replayRequest 0 1023 : Instr).wf = true := by decide +kernel
theorem test_wf_control_slot : (.linkControlSlot 0 { tSlotOf false true with credits := [(13, 1)] } : Instr).wf = false ∧ (.linkControlSlot 0 { tSlotOf false true with credits := [(12, 1)] } : Instr).wf = true := by decide +kernel
theorem test_wf_lanes : (.linkTraining 0 ⟨256, 0, 0⟩ : Instr).wf = false ∧ (.linkTraining 0 ⟨255, 0, 0⟩ : Instr).wf = true := by decide +kernel
theorem test_wf_packet : (.packetForward 0 { tData 0 true false with dst := 64 } : Instr).wf = false ∧ (.packetForward 0 (tData 63 true false) : Instr).wf = true := by decide +kernel
theorem test_wf_interrupt : (.interrupt 6 (tData 0 true false) : Instr).wf = false ∧ (.interrupt 5 (tData 0 true false) : Instr).wf = true := by decide +kernel
theorem test_wf_host_dma : (.hostDmaRead 0 { tData 0 true false with kind := 32 } : Instr).wf = false ∧ (.hostDmaWrite 0 { tData 0 true false with data := zeros 4096 } : Instr).wf = true := by decide +kernel
theorem test_wf_group : (.laggardFail 256 : Instr).wf = false ∧ (.laggardFail 255 : Instr).wf = true := by decide +kernel
theorem test_wf_load_page : (.recoveryLoadPacket 0 { tData 0 true false with data := zeros 4097 } : Instr).wf = false := by decide +kernel
theorem test_wf_comparator : (.comparatorFire 16 : Instr).wf = false ∧ (.comparatorFire 15 : Instr).wf = true := by decide +kernel
theorem test_wf_watch_frame : (.watchFrame (2 ^ 64) 0 0 : Instr).wf = false ∧ (.watchFrame 0 255 0 : Instr).wf = true := by decide +kernel
theorem test_wf_heft : (.heftWake 49 : Instr).wf = false ∧ (.heftWake 48 : Instr).wf = true := by decide +kernel
theorem test_wf_unit_reset : (.unitReset (.link 6) : Instr).wf = false ∧ (.unitReset (.link 5) : Instr).wf = true := by decide +kernel
theorem test_wf_half : (.vcoreChange 2 0 : Instr).wf = false ∧ (.vcoreChange 1 0 : Instr).wf = true := by decide +kernel
theorem test_wf_training : (.memoryTraining (some 32) none : Instr).wf = false ∧ (.memoryTraining (some 31) none : Instr).wf = true := by decide +kernel
theorem test_wf_slot_id : (.moduleReset 64 : Instr).wf = false ∧ (.moduleReset 63 : Instr).wf = true := by decide +kernel
theorem test_wf_move_errors : (.move 0 .fwd [(4, .ok)] : Instr).wf = false ∧ (.move 0 .fwd [(8, .corrected)] : Instr).wf = true := by decide +kernel
theorem test_wf_feed_errors : (.feed 0 .fwd [(4, .ok)] : Instr).wf = false ∧ (.lot 0 .fwd [(2 ^ 46, .ok)] : Instr).wf = false := by decide +kernel
theorem test_wf_fetch_errors : (.streamFetch 0 [(2 ^ 46, .ok)] : Instr).wf = false ∧ (.streamFetch 41 [(2 ^ 46 - 8, .ok)] : Instr).wf = true := by decide +kernel
theorem test_wf_dma_errors : (.dma 0 0 [(1, .ok)] : Instr).wf = false ∧ (.dma 511 0 [(0, .ok)] : Instr).wf = true := by decide +kernel
theorem test_wf_collective_errors : (.collectiveStart [(1, .ok)] : Instr).wf = false ∧ (.collectiveStart [(0, .ok)] : Instr).wf = true := by decide +kernel
theorem test_wf_order_errors : (.remoteReadOrder (tOrder 0x1000) [(1, .ok)] : Instr).wf = false ∧ (.apertureRead 0 0 8 [(1, .ok)] : Instr).wf = false := by decide +kernel
theorem test_wf_tunnel : (.tunnelRead (.host 64 0 4 0) : Instr).wf = false ∧ (.tunnelRead (.host 63 (2 ^ 25 - 4) 4 0) : Instr).wf = true ∧
    (.tunnelWrite (.packet 6 (tData 0 true false)) : Instr).wf = false := by decide +kernel
theorem test_wf_tag : (.hostReadCompletion 4096 .abort : Instr).wf = false ∧ (.hostReadCompletion 4095 .abort : Instr).wf = true ∧
    (.tunnelTimeout (2 ^ 17) : Instr).wf = false := by decide +kernel
theorem test_wf_via : (.heartbeat (.port 6 true) 0 : Instr).wf = false ∧ (.heartbeat .own 63 : Instr).wf = true := by decide +kernel
theorem test_wf_report : (.flockForm 0 [{ tMember 0 1 with report := { (tMember 0 1).report with ownerHash := [] } }] : Instr).wf = false ∧
    (.flockForm 0 [tMember 0 1] : Instr).wf = true := by decide +kernel
theorem test_wf_dissolve : (.flockDissolve 0 [64] : Instr).wf = false ∧ (.flockDissolve 0 [63] : Instr).wf = true := by decide +kernel
theorem test_wf_book_row : (.stepClose 0 0 (some (2048, .ok)) : Instr).wf = false ∧ (.stepClose 0 0 (some (2047, .ok)) : Instr).wf = true := by decide +kernel
/-- No word spells a command: the table gives no row bits. -/
theorem test_no_words (n w : Nat) : decodeTableWord n w = none := rfl

end Sys2Proof.Tests
end

section
/-!
The gates that an access passes before a command acts on it, and packets taken in: what is left of `fromHost`, `fromRegs`,
`deliver` and `forMember` once their conditions are known.
-/
namespace Sys2Proof.Machine

/-! ## Host requests and register writes (R459, R524) -/

/-- A host request inside the function's IDE stream is served. -/
theorem Device.fromHost_inside {d : Device} {fn : Nat} (h : d.outside fn = false) (g : Device → Device) :
    d.fromHost fn g = g d := by simp [Device.fromHost, h]

/-- A register write through a function that is not shut is carried out. -/
theorem Device.fromRegs_open {d : Device} {fn : Nat} (h : d.shut fn = false) (g : Device → Device) :
    d.fromRegs fn g = g d := by simp [Device.fromRegs, h]

/-- A register write through a shut function changes nothing. -/
theorem Device.fromRegs_shut {d : Device} {fn : Nat} (h : d.shut fn = true) (g : Device → Device) :
    d.fromRegs fn g = d := by simp [Device.fromRegs, h]

/-! ## Packets taken in (R318, R322, R323, R350) -/

section takesIn
variable {d e : Device} {k : Nat} {p : Packet}

theorem Device.deliver_takesIn (h : d.takesIn k p e) (g : Device → Device) : d.deliver k p g = g e := by
  obtain ⟨hreceives, hdst, hmark, htag, rfl⟩ := h
  simp [Device.deliver, hreceives, hdst, hmark, htag]

/-- Credits owed aside, the device is as it was: in particular its flock. -/
theorem Device.takesIn_flock (h : d.takesIn k p e) : e.flock = d.flock := by
  obtain ⟨_, _, _, _, rfl⟩ := h
  rfl

theorem Device.takesIn_bellwether (h : d.takesIn k p e) : e.bellwether = d.bellwether := by
  simp only [Device.bellwether, Device.takesIn_flock h]

theorem Device.takesIn_present (h : d.takesIn k p e) (rank : Nat) : e.present rank = d.present rank := by
  simp only [Device.present, Device.takesIn_flock h]

theorem Device.takesIn_tunnelServes (h : d.takesIn k p e) : e.tunnelServes = d.tunnelServes := by
  simp only [Device.tunnelServes, Device.tunnelled, Device.bellRank, Device.takesIn_flock h]

/-- On the bellwether the request of a member that is present is carried out. -/
theorem Device.forMember_takesIn (h : d.takesIn k p e) (hbell : d.bellwether = true) (hsrc : d.present p.src = true)
    (g : Device → Device) : d.forMember k p g = g e := by
  simp [Device.forMember, Device.deliver_takesIn h, Device.takesIn_bellwether h, Device.takesIn_present h, hbell, hsrc]

end takesIn

end Sys2Proof.Machine
end

section
/-!
Writes of BAR0 by an aligned word: the way to each block of registers, and what the plain fields take (R7, R522).
-/
namespace Sys2Proof.Machine

/-! ## The way to a block of registers -/

/-- A word written through PF0 outside the aperture and the doorbells reaches the registers. -/
theorem Device.doRegWrite_word {d : Device} {off : Nat} (hin : d.outside 0 = false) (halign : off % 4 = 0)
    (hoff : off < 0x200000 ∨ (0x300000 ≤ off ∧ off < 0x1000000)) (v : Nat) :
    d.doRegWrite 0 off 4 v = d.writeWord 0 off v := by
  have hbar : d.writeBar 0 off 4 v = d.writeWord 0 off v := by
    have hap : ¬ (0x200000 ≤ off ∧ off < 0x300000) := by omega
    have hbell : ¬ (0x1000000 ≤ off ∧ off < 0x1200000) := by omega
    simp [Device.writeBar, hap, hbell, halign]
  simp only [Device.doRegWrite, Device.fromHost_inside hin, hbar, ite_self]

/-- A write that no register takes changes nothing. -/
theorem Device.writeWord_untaken {d : Device} {fn off : Nat} (h : d.takesWrite fn off = false) (v : Nat) :
    d.writeWord fn off v = d := by simp [Device.writeWord, h]

section taken
variable {d : Device} {fn off v : Nat} (htakes : d.takesWrite fn off = true) (hv : v < 2 ^ 32)
include htakes hv

theorem Device.writeWord_time (hlo : 0x10000 ≤ off) (hhi : off < 0x20000) :
    d.writeWord fn off v = d.writeTime fn off v := by
  simp (disch := omega) [Device.writeWord, htakes, Nat.mod_eq_of_lt, if_neg, if_pos]

theorem Device.writeWord_power (hlo : 0x20000 ≤ off) (hhi : off < 0x30000) :
    d.writeWord fn off v = d.writePower fn off v := by
  simp (disch := omega) [Device.writeWord, htakes, Nat.mod_eq_of_lt, if_neg, if_pos]

theorem Device.writeWord_pad (hlo : 0x80000 ≤ off) (hhi : off < 0xC0000) :
    d.writeWord fn off v = d.writePad off v := by
  simp (disch := omega) [Device.writeWord, htakes, Nat.mod_eq_of_lt, if_neg, if_pos]

theorem Device.writeWord_arb (hlo : 0xC0000 ≤ off) (hhi : off < 0xD0000) :
    d.writeWord fn off v = d.writeArb off v := by
  simp (disch := omega) [Device.writeWord, htakes, Nat.mod_eq_of_lt, if_neg, if_pos]

theorem Device.writeWord_mem (hlo : 0xD0000 ≤ off) (hhi : off < 0xE0000) :
    d.writeWord fn off v = d.writeMem fn off v := by
  simp (disch := omega) [Device.writeWord, htakes, Nat.mod_eq_of_lt, if_neg, if_pos]

end taken

/-! ## Registers of plain fields -/

theorem at'_eq_ite (b : Bool) (i : Nat) : at' b i = if b then 2 ^ i else 0 := by cases b <;> simp [at']

/-- HEFT_CTRL of a gated heft: a heft whose gating is switched off runs again (R271). -/
theorem Device.writeTime_heftCtrl (d : Device) (fn v : Nat) {h : Nat} (hh : h < 46) :
    d.writeTime fn (0x10000 + h * 16) v = d.onHeft h fun x => { x with
      ceiling := bits v 2 0, gateEn := bit v 3, stopped := x.stopped && bit v 3 } := by
  have hoff : 0x10000 + h * 16 < 0x10000 + 49 * 16 ∧ (0x10000 + h * 16) % 16 = 0 := by omega
  have hindex : (0x10000 + h * 16 - 0x10000) / 16 = h := by omega
  simp only [Device.writeTime, if_pos hoff, hindex, decide_eq_true hh, Bool.true_and]

theorem Device.writePad_padScrub (d : Device) (v : Nat) :
    d.writePad 0xA0000 v = { d with padScrub := (if bit v 31 then 2 ^ 31 else 0) + bits v 23 0 } := by
  rw [← at'_eq_ite]
  rfl

/-- ARB_SITE_RD of site n takes the whole word. -/
theorem Device.writeArb_siteRd (d : Device) (v : Nat) {n : Nat} (hn : n < 42) :
    d.writeArb (0xC0000 + n * 16) v = d.onSite n fun t => { t with arbRd := v } := by
  have hoff : 0xC0000 + n * 16 - 0xC0000 < 42 * 16 := by omega
  have hindex : (0xC0000 + n * 16 - 0xC0000) / 16 = n := by omega
  have hword : (0xC0000 + n * 16 - 0xC0000) % 16 = 0 := by omega
  simp only [Device.writeArb, if_pos hoff, hindex, hword, if_true]

theorem Device.writeMem_memScrub (d : Device) (fn v : Nat) :
    d.writeMem fn 0xD0008 v =
      { d with mem := { d.mem with scrub := (if bit v 31 then 2 ^ 31 else 0) + bits v 23 0 } } := by
  rw [← at'_eq_ite]
  rfl

/-! ## O34 -/

/-- TRACE_ENABLE through PF0 writes TRACE_CTRL (R496). -/
theorem exec_traceEnable_open (s : State) (value : Nat) (hopen : s.dev.shut 0 = false) :
    exec (.traceEnable 0 value) s = .next ⟨s.dev.writeTrace 0 value, s.pending⟩ := by
  rw [exec_traceEnable, Device.fromRegs_open hopen]
  rfl

/-- REGISTER_WRITE of a word through PF0 outside the aperture and the doorbells. -/
theorem exec_registerWrite_word {s : State} {off : Nat} (hin : s.dev.outside 0 = false) (halign : off % 4 = 0)
    (hoff : off < 0x200000 ∨ (0x300000 ≤ off ∧ off < 0x1000000)) (v : Nat) :
    exec (.registerWrite 0 off 4 v) s = .next ⟨s.dev.writeWord 0 off v, s.pending⟩ := by
  rw [exec_registerWrite, Device.doRegWrite_word hin halign hoff]

/-- Settles O34, register by register: the way to the register's block, then what the block's register takes. -/
theorem traceAndPlainRegisterWrites : Obligations.TraceAndPlainRegisterWrites := by
  unfold Obligations.TraceAndPlainRegisterWrites
  refine ⟨fun s value hopen => ?trace, fun s v hin hv => ⟨?untaken, ?heftCtrl, ?pwrLimit, ?padScrub, ?spareCtrl, ?arbHold,
    ?arbSiteRd, ?memScrub⟩, fun s fn n v w hshut => ?shut⟩
  case trace =>
    rw [exec_traceEnable_open s value hopen]
    refine ⟨fun hstart hfree => ?_, fun hstart hlogs => ?_, fun hstop => ?_⟩
    · simp [Device.writeTrace, hstart, hfree]
    · simp [Device.writeTrace, hstart, hlogs]
    · simp [Device.writeTrace, hstop, Device.haltTrace]
  case untaken =>
    intro off huntaken halign hoff
    rw [exec_registerWrite_word hin halign hoff, Device.writeWord_untaken huntaken]
  case heftCtrl =>
    intro h hh htakes
    rw [exec_registerWrite_word hin (by omega) (by omega), Device.writeWord_time htakes hv (by omega) (by omega),
      Device.writeTime_heftCtrl _ _ _ hh]
  case pwrLimit =>
    intro htakes
    rw [exec_registerWrite_word hin (by omega) (by omega), Device.writeWord_power htakes hv (by omega) (by omega)]
    rfl
  case padScrub =>
    intro htakes
    rw [exec_registerWrite_word hin (by omega) (by omega), Device.writeWord_pad htakes hv (by omega) (by omega),
      Device.writePad_padScrub]
  case spareCtrl =>
    intro htakes
    rw [exec_registerWrite_word hin (by omega) (by omega), Device.writeWord_pad htakes hv (by omega) (by omega)]
    rfl
  case arbHold =>
    intro htakes
    rw [exec_registerWrite_word hin (by omega) (by omega), Device.writeWord_arb htakes hv (by omega) (by omega)]
    rfl
  case arbSiteRd =>
    intro n hn htakes
    rw [exec_registerWrite_word hin (by omega) (by omega), Device.writeWord_arb htakes hv (by omega) (by omega),
      Device.writeArb_siteRd _ _ hn]
  case memScrub =>
    intro htakes
    rw [exec_registerWrite_word hin (by omega) (by omega), Device.writeWord_mem htakes hv (by omega) (by omega),
      Device.writeMem_memScrub]
  case shut =>
    simp only [exec_traceEnable, exec_foldcfgCount, exec_foldHandover, exec_siteCtrlRetire, exec_siteCtrlClearCounts,
      exec_ringEnable, exec_ringDisable, exec_sqDoorbell, exec_cqDoorbell, exec_watchReload, exec_flockForm,
      exec_flockDissolve, exec_recovReadmit, exec_recovHandover, exec_exportDone, exec_recovSignArm, exec_recovSnapatArm,
      exec_linkCtrlRetrain, Device.fromRegs_shut hshut, implies_true, and_self]

end Sys2Proof.Machine
end

section
/-!
Tunnelled reads outstanding on the bellwether, and what their completion answers (R347 to R350).
-/
namespace Sys2Proof.Machine

/-! ## Reads that are answered (R348) -/

/-- While nothing is ready, nothing is answered. -/
theorem answered_of_waiting {l : List TunRead} (hl : ∀ y ∈ l, y.ready = none) (held : List Nat) :
    answered l held = ([], l) := by
  induction l generalizing held with
  | nil => rfl
  | cons y l ih =>
    have hy : y.ready = none := hl y (by simp)
    simp only [answered, hy, ih (fun z hz => hl z (by simp [hz]))]

/-- A ready read behind reads of other ranks alone is answered, and the reads that wait stay. -/
theorem answered_of_ready {pre post : List TunRead} {x : TunRead} {bs : List Byte} (hx : x.ready = some bs)
    (hpre : ∀ y ∈ pre, y.rank ≠ x.rank ∧ y.ready = none) (hpost : ∀ y ∈ post, y.ready = none)
    {held : List Nat} (hheld : x.rank ∉ held) : answered (pre ++ x :: post) held = ([bs], pre ++ post) := by
  induction pre generalizing held with
  | nil =>
    have hfree : held.contains x.rank = false := by simpa using hheld
    simp only [List.nil_append, answered, hx, hfree, answered_of_waiting hpost]
  | cons y pre ih =>
    obtain ⟨hrank, hready⟩ := hpre y (by simp)
    have hheld' : x.rank ∉ y.rank :: held := by simp [hheld, hrank.symm]
    simp only [List.cons_append, answered, hready, ih (fun z hz => hpre z (by simp [hz])) hheld']

/-- What a read is answered with reaches the host where the earlier reads outstanding are of other ranks and the others
wait. -/
theorem Device.endRead_first {d : Device} {tag : Nat} {pre post : List TunRead} {x : TunRead}
    (htunnels : d.flock.tunnels = pre ++ x :: post) (htag : x.tag = tag) (hready : x.ready = none)
    (hpre : ∀ y ∈ pre, y.tag ≠ tag ∧ y.rank ≠ x.rank ∧ y.ready = none)
    (hpost : ∀ y ∈ post, y.tag ≠ tag ∧ y.ready = none) (bs : List Byte) :
    d.endRead tag bs =
      ({ d with flock := { d.flock with tunnels := pre ++ post } } : Device).emit (.reply (.host 0) bs) := by
  have hmap : (d.flock.tunnels.map fun (y : TunRead) =>
      if y.tag = tag ∧ y.ready.isNone then { y with ready := some bs } else y) =
      pre ++ { x with ready := some bs } :: post := by
    have hothers : ∀ l : List TunRead, (∀ y ∈ l, y.tag ≠ tag) → (l.map fun (y : TunRead) =>
        if y.tag = tag ∧ y.ready.isNone then { y with ready := some bs } else y) = l := fun l hl =>
      (List.map_congr_left fun y hy => if_neg fun ⟨htag, _⟩ => hl y hy htag).trans (List.map_id l)
    rw [htunnels, List.map_append, List.map_cons, hothers pre fun y hy => (hpre y hy).1,
      hothers post fun y hy => (hpost y hy).1, if_pos ⟨htag, by simp [hready]⟩]
  have hanswered : answered (pre ++ { x with ready := some bs } :: post) [] = ([bs], pre ++ post) :=
    answered_of_ready (x := { x with ready := some bs }) rfl (fun y hy => (hpre y hy).2) (fun y hy => (hpost y hy).2) (by simp)
  simp only [Device.endRead, hmap, Device.answerReads, hanswered, List.foldl_cons, List.foldl_nil]

/-! ## The host's accesses to a window of BAR2 (R347) -/

section host
variable {d : Device} {rank : Nat} (hin : d.outside 0 = false)
include hin

/-- A read of a present member's window leaves with a tag and is remembered. -/
theorem Device.doTunRead_carried (hbell : d.bellwether = true) (hother : rank ≠ d.flock.rank)
    (hpresent : d.present rank = true) (off width v : Nat) :
    d.doTunRead (.host rank off width v) = (d.noteRead rank off width none).sendTo
      { d.packetTo rank 1 0 with addr := rank * 2 ^ 46 + off, tally := d.flock.nextTag, inc := width } := by
  simp [Device.doTunRead, Device.fromHost_inside hin, hbell, hother, hpresent]

theorem Device.doTunWrite_carried (hbell : d.bellwether = true) (hother : rank ≠ d.flock.rank)
    (hpresent : d.present rank = true) (off width v : Nat) :
    d.doTunWrite (.host rank off width v) =
      d.sendTo { d.packetTo rank 1 1 with addr := rank * 2 ^ 46 + off, data := leBytes width v } := by
  simp [Device.doTunWrite, Device.fromHost_inside hin, hbell, hother, hpresent]

/-- This device's own window shows its BAR0. -/
theorem Device.doTunRead_own (hown : rank = d.flock.rank) (off width v : Nat) :
    d.doTunRead (.host rank off width v) =
      (d.readBar 0 off width).1.emit (.reply (.host 0) (d.readBar 0 off width).2) := by
  simp [Device.doTunRead, Device.fromHost_inside hin, hown]

theorem Device.doTunWrite_own (hown : rank = d.flock.rank) (off width v : Nat) :
    d.doTunWrite (.host rank off width v) = d.writeBar 0 off width v := by
  simp [Device.doTunWrite, Device.fromHost_inside hin, hown]

end host

/-! ## Accesses and completions that a packet brings (R347 to R349) -/

section packet
variable {d e : Device} {k : Nat} {p : Packet} (htaken : d.takesIn k p e)
include htaken

theorem Device.doTunRead_served (hserves : d.tunnelServes = true) :
    d.doTunRead (.packet k p) =
      let r := e.readBar 0 (p.addr % 2 ^ 46) p.inc
      r.1.sendTo { r.1.packetTo p.src 2 2 with tally := p.tally, data := r.2 } := by
  simp [Device.doTunRead, Device.deliver_takesIn htaken, Device.takesIn_tunnelServes htaken, hserves]

theorem Device.doTunWrite_served (hserves : d.tunnelServes = true) :
    d.doTunWrite (.packet k p) = e.writeBar 0 (p.addr % 2 ^ 46) p.data.length (leNat p.data) := by
  simp [Device.doTunWrite, Device.deliver_takesIn htaken, Device.takesIn_tunnelServes htaken, hserves]

theorem Device.doTunDone_bellwether (hbell : d.bellwether = true) : d.doTunDone k p = e.endRead p.tally p.data := by
  simp [Device.doTunDone, Device.deliver_takesIn htaken, Device.takesIn_bellwether htaken, hbell]

end packet

/-- Settles O59, by the side that the access is on: the host's on the bellwether, a packet's on the member, a member's request
and a completion on the bellwether. -/
theorem tunnellingCompletes : Obligations.TunnellingCompletes := by
  unfold Obligations.TunnellingCompletes
  intro s rank off width v d
  refine ⟨fun hin => ⟨fun hbell hother hpresent => ⟨?carriedRead, ?carriedWrite⟩, fun hown => ⟨?ownRead, ?ownWrite⟩⟩,
    fun k p e htaken => ⟨fun hserves => ⟨?servedWrite, ?servedRead⟩, fun hbell hsrc => ⟨?interrupt, ?memberRead, ?memberWrite⟩,
      fun hbell pre x post htunnels htag hready hpre hpost => ?completion⟩⟩
  case carriedRead =>
    rw [exec_tunnelRead, Device.doTunRead_carried hin hbell hother hpresent]
    rfl
  case carriedWrite =>
    rw [exec_tunnelWrite, Device.doTunWrite_carried hin hbell hother hpresent]
  case ownRead =>
    rw [exec_tunnelRead, Device.doTunRead_own hin hown]
  case ownWrite =>
    rw [exec_tunnelWrite, Device.doTunWrite_own hin hown]
  case servedWrite =>
    rw [exec_tunnelWrite, Device.doTunWrite_served htaken hserves]
  case servedRead =>
    rw [exec_tunnelRead, Device.doTunRead_served htaken hserves]
  case interrupt =>
    rw [exec_interrupt, Device.doInterrupt, Device.forMember_takesIn htaken hbell hsrc]
  case memberRead =>
    rw [exec_hostDmaRead, Device.doMemberRead, Device.forMember_takesIn htaken hbell hsrc]
  case memberWrite =>
    rw [exec_hostDmaWrite, Device.doMemberWrite, Device.forMember_takesIn htaken hbell hsrc]
  case completion =>
    have htunnels' : e.flock.tunnels = pre ++ x :: post := by rw [Device.takesIn_flock htaken, htunnels]
    rw [exec_tunnelCompletion, Device.doTunDone_bellwether htaken hbell,
      Device.endRead_first htunnels' htag hready hpre hpost]

end Sys2Proof.Machine
end

section
/-!
What every step keeps, and that the state after reset meets it: the device of a command's next state, and so of a step's, is
one that the device before can become (`Device.evolves`).
-/
namespace Sys2Proof.Machine

/-- A draw keeps the core, whatever bursts are asked for (R250). -/
theorem Device.doDraw_keeps_core (d : Device) (a : Nat) (req : List (Nat × Nat)) : (d.doDraw a req).core = d.core := by
  simp only [Device.doDraw]
  repeat' split
  all_goals simp

/-- A command leaves a device that its device can become: the exceptions to `core` are the fold count, the fuses that a
command may blow and the parts that a reset builds anew. -/
theorem exec_evolves (c : Instr) (s : State) : ∃ d, exec c s = .next ⟨d, s.pending⟩ ∧ s.dev.evolves d := by
  cases c
  case arbiterDraw a req => exact ⟨_, rfl, evolves_of_core (Device.doDraw_keeps_core _ _ _)⟩
  case foldcfgCount fn v => exact ⟨_, rfl, Device.fromRegs_evolves _ _ _ fun d => d.doFoldCount_evolves fn v⟩
  case secCtrlZeroise => exact ⟨_, rfl, Device.doSecCtrl_evolves _ _ _⟩
  case resetCtrlModule fn v => exact ⟨_, rfl, Device.fromHost_evolves _ _ _ fun d => d.doResetCtrl_evolves fn v⟩
  case registerWrite => exact ⟨_, rfl, Device.doRegWrite_evolves _ _ _ _ _⟩
  case ownerEnrol => exact ⟨_, rfl, Device.doOwnerEnrol_evolves _ _⟩
  case decommission => exact ⟨_, rfl, Device.doDecommission_evolves _ _⟩
  case recoveryLoad => exact ⟨_, rfl, Device.doRecoveryLoad_evolves _ _ _⟩
  case zeroise => exact ⟨_, rfl, Device.doZeroise_evolves _ _⟩
  case operation => exact ⟨_, rfl, Device.doOperation_evolves _ _⟩
  case tunnelWrite => exact ⟨_, rfl, Device.doTunWrite_evolves _ _⟩
  case thermtrip => exact ⟨_, rfl, Device.doThermtrip_evolves _ _ _⟩
  case powerOnReset => exact ⟨_, rfl, Device.doPowerOn_evolves _⟩
  case boot => exact ⟨_, rfl, Device.doBoot_evolves _⟩
  case pgAsserted => exact ⟨_, rfl, Device.doPg_evolves _⟩
  case powerDown => exact ⟨_, rfl, Device.doPowerDown_evolves _ _⟩
  case inputVoltageFault => exact ⟨_, rfl, Device.doInputFault_evolves _ _⟩
  case moduleReset => exact ⟨_, rfl, Device.doModuleReset_evolves _ _⟩
  case watchdog => exact ⟨_, rfl, Device.doWatchdog_evolves _⟩
  case tamperResponse => exact ⟨_, rfl, Device.doTamper_evolves _⟩
  case vauxLoss => exact ⟨_, rfl, Device.doVauxLoss_evolves _⟩
  all_goals exact ⟨_, rfl, evolves_of_core (by simp)⟩

theorem step_nil (d : Device) : step ⟨d, []⟩ = .next ⟨d.tick, []⟩ := rfl

theorem step_cons (d : Device) (c : Instr) (rest : List Instr) : step ⟨d, c :: rest⟩ = exec c ⟨d, rest⟩ := rfl

theorem dev_of_next {d : Device} {q : List Instr} {t : State}
    (h : (.next ⟨d, q⟩ : Host.Outcome State Fault Refusal) = .next t) : t.dev = d := by
  cases h
  rfl

/-- So does a step: of a waiting command, or of the watch where none waits. -/
theorem step_evolves {s t : State} (h : step s = .next t) : s.dev.evolves t.dev := by
  obtain ⟨d, _ | ⟨c, rest⟩⟩ := s
  · rw [step_nil] at h
    rw [dev_of_next h]
    exact evolves_of_core (Device.tick_core d)
  · obtain ⟨e, hexec, hevolves⟩ := exec_evolves c ⟨d, rest⟩
    rw [step_cons, hexec] at h
    rw [dev_of_next h]
    exact hevolves

/-- Settles O3: a step leaves a device that its device can become, and such a device keeps its parts and bounds. -/
theorem everyStepKeepsThePartsAndBounds : Obligations.EveryStepKeepsThePartsAndBounds := by
  unfold Obligations.EveryStepKeepsThePartsAndBounds
  intro s t hstep hsized hcote htamper
  obtain ⟨-, -, ⟨-, -, -, -, hcote', htamper'⟩, hsized'⟩ := step_evolves hstep
  exact ⟨hsized' hsized, (hcote' hcote).2, (htamper' htamper).2⟩

/-- Settles O5: the reset device is written out field by field. -/
theorem resetIsWhole : Obligations.ResetIsWhole := by
  unfold Obligations.ResetIsWhole
  have hsized : State.reset.dev.sized := ⟨rfl, rfl, rfl, rfl, rfl, .inl rfl⟩
  exact ⟨rfl, rfl, rfl, rfl, rfl, rfl, rfl, rfl, rfl, fun _ => rfl, rfl, hsized, Nat.zero_le _, Nat.zero_le _⟩

end Sys2Proof.Machine
end

section
/-!
Spare substitution: the spare takes the stream of the retired pen with its FEEDs set back to what has arrived (R126; log
entry 125).
-/
namespace Sys2Proof.Machine

/-- A FEED of one record whose first flit is under way: 256 bytes sent, none arrived. -/
def feedUnderWay : Active where
  q := .fwd
  e := .node
  k := 0
  id := 0
  cmd := ⟨0, 1, false, 0, 0, false, .feed ⟨0, false, .sunwise, 0, false, false, 0, 1, 1, 1, 0, 0, 0, 0⟩⟩
  slot := 0
  phase := .running
  i := 0
  t := 0
  lot0 := none
  want := none
  joined := false
  asked := 0
  parts := []
  seq := 0
  errs := []
  feed := { Intake.empty with sent := (0, 256, 1) }

/-- Site 0 has retired with a FEED under way, whose flit is on the gate ring, and awaits its substitution; site 1 is a
spare. -/
def retiredWhileFeeding : Device := { Device.reset with
  sites := { Site.reset with state := 2, logical := 0, seqr := { Seqr.empty with act := [feedUnderWay] } } ::
    { Site.reset with state := 1 } :: List.replicate 40 .reset
  fabric := { Device.reset.fabric with feed :=
    [⟨⟨0, 0, .sunwise, 0, 0, 256⟩, (gateAt (quarterGate 0), 2), (stationOf 0, 1), 0, true, 0, none, 0⟩] } }

/-- The spare takes the FEED over with nothing of its records sent beyond what has arrived. -/
theorem substituted_feed_restarts :
    ((retiredWhileFeeding.doSubstitute 0).site 1).seqr.act.map (·.feed.sent) = [(0, 0, 0)] := rfl

/-- Refutes O16: a spare takes the stream of the pen with one exception. The feed flits toward the pen are given up
(`Device.dropFeed`, log entry 125), so a FEED that has sent flits beyond those that have arrived stands further back in the
spare's sequencer than in the pen's. -/
theorem not_retirementSubstitutionAndPreemption : ¬ Obligations.RetirementSubstitutionAndPreemption := by
  unfold Obligations.RetirementSubstitutionAndPreemption
  rintro ⟨-, hsubstitution, -⟩
  obtain ⟨t, hexec, -, -, -, -, -, -, -, -, -, -, hseqr, -⟩ := hsubstitution ⟨retiredWhileFeeding, []⟩ 0 1
    rfl rfl rfl rfl (by decide) (by decide) (by decide)
  rw [exec_spareSubstitution] at hexec
  have hsent : (t.dev.site 1).seqr.act.map (·.feed.sent) = [(0, 0, 0)] := by
    rw [dev_of_next hexec, substituted_feed_restarts]
  rw [hseqr] at hsent
  exact absurd hsent (by decide)

end Sys2Proof.Machine
end

section
/-!
Rings of the host: RING_CFG as RING_ENABLE and RING_DISABLE write it, a ring halted, and doorbells (R403 to R407, R410).
-/
namespace Sys2Proof.Machine

/-! ## Fields of a word -/

/-- Numbers that agree in their low bits have the same fields there. -/
theorem bits_congr {a b k : Nat} (h : a % 2 ^ k = b % 2 ^ k) {hi : Nat} (hhi : hi < k) (lo : Nat) :
    bits a hi lo = bits b hi lo := by
  refine Nat.eq_of_testBit_eq fun i => ?_
  simp only [bits, Nat.testBit_mod_two_pow, Nat.testBit_shiftRight]
  by_cases hi' : i < hi + 1 - lo
  · have hbit : ∀ v : Nat, v.testBit (lo + i) = (v % 2 ^ k).testBit (lo + i) := fun v => by
      rw [Nat.testBit_mod_two_pow, decide_eq_true (show lo + i < k by omega), Bool.true_and]
    rw [hbit a, hbit b, h]
  · simp [hi']

/-- Bits 30 to 0 of RING_CFG as RING_ENABLE writes it. -/
theorem mod_enable (value : Nat) : (value % 2 ^ 31 + 2 ^ 31) % 2 ^ 31 = value % 2 ^ 31 := by omega

theorem bit_enable (value : Nat) : bit (value % 2 ^ 31 + 2 ^ 31) 31 = true := by
  rw [bit, Nat.testBit_eq_decide_div_mod_eq, decide_eq_true_eq]
  omega

theorem bit_disable (value : Nat) : bit (value % 2 ^ 31) 31 = false := by
  rw [bit, Nat.testBit_mod_two_pow]
  rfl

/-! ## Rings: the fetch given up, the configuration written, a ring halted (R403 to R407) -/

/-- An SQ that stops fetching stands as it was: the fetch given up is its CQ's reserved entry. -/
theorem Device.stopFetch_ring {d : Device} {n : Nat} (hn : n < 512) : (d.stopFetch n).ring n = d.ring n := by
  unfold Device.stopFetch
  split
  · rw [Device.ring_setRing, if_neg (by omega)]
    rfl
  · rfl

theorem Device.stopFetch_descs (d : Device) (n : Nat) : (d.stopFetch n).descs = d.descs := by
  unfold Device.stopFetch
  split <;> rfl

/-- A halt of an SQ reaches no other ring. -/
theorem Device.haltRing_sq {d : Device} {n : Nat} (hn : n < 512) (cause : Nat) :
    d.haltRing n cause =
      ((d.stopFetch n).setRing n { d.ring n with state := 3, cause := cause }).event .ringHalted [n, cause] := by
  simp only [Device.haltRing, Device.haltOne, if_pos hn, Device.stopFetch_ring hn]

section config
variable {d : Device} {fn n value owner size link : Nat} (hn : n < 512) (hsees : d.seesRing fn n = true)
  (howner : (if fn = 0 then bits value 30 27 else (d.ring n).owner) = owner) (hsize : bits value 26 22 = size)
  (hlink : bits value 21 13 = link) (hlegal : owner ≤ 8 ∧ 6 ≤ size ∧ size ≤ 16)
include hn hsees howner hsize hlink hlegal

/-- RING_CFG of a disabled SQ with the enable bit set, where nothing refuses it and its CQ is not halted. -/
theorem Device.writeRingCfg_enable (hbit : bit value 31 = true) (hstate : (d.ring n).state = 0)
    (hstatus : d.enableStatus n owner link = 0) (hcq : (d.ring (512 + link)).state ≠ 3) :
    d.writeRingCfg fn n value = d.setRing n { d.ring n with
      owner := owner, size := size, link := link, state := 1, cause := 0, pos := 0, host := 0
      arm := false, reserved := 0, held := [] } := by
  have hother : ¬ 512 + link = n := by omega
  simp (disch := omega) [Device.writeRingCfg, Device.enableRing, Device.ring_setRing, hsees, howner, hsize, hlink, hbit, hstate,
    hstatus, hcq, hother, if_neg]

/-- RING_CFG of an enabled SQ written again with the enable bit clear. -/
theorem Device.writeRingCfg_disable (hbit : bit value 31 = false) (hstate : (d.ring n).state = 1)
    (hsame : owner = (d.ring n).owner ∧ size = (d.ring n).size ∧ link = (d.ring n).link) :
    d.writeRingCfg fn n value = d.disableRing n := by
  obtain ⟨rfl, rfl, rfl⟩ := hsame
  simp (disch := omega) [Device.writeRingCfg, hsees, howner, hsize, hlink, hbit, hstate, if_neg]

end config

/-- An enabled SQ without descriptors in progress is disabled at once (R405). -/
theorem Device.disableRing_idle {d : Device} {n : Nat} (hn : n < 512) (hstate : (d.ring n).state = 1)
    (hidle : d.descs.any (·.sq = n) = false) :
    d.disableRing n = (d.stopFetch n).setRing n { d.ring n with
      state := 0, cause := 0, arm := false, reserved := 0, held := [] } := by
  simp [Device.disableRing, hn, Device.stopFetch_ring, Device.stopFetch_descs, hstate, hidle]

/-- With descriptors in progress it drains (R405). -/
theorem Device.disableRing_busy {d : Device} {n : Nat} (hn : n < 512) (hstate : (d.ring n).state = 1)
    (hbusy : d.descs.any (·.sq = n) = true) :
    d.disableRing n = (d.stopFetch n).setRing n { d.ring n with state := 2, cause := 0, held := [] } := by
  simp [Device.disableRing, hn, Device.stopFetch_ring, Device.stopFetch_descs, hstate, hbusy]

/-! ## Doorbells (R22, R407, R410) -/

section sq
variable {d : Device} {fn n : Nat} (hn : n < 512) (hsees : d.seesRing fn n = true) (hstate : (d.ring n).state = 1) (value : Nat)
include hn hsees hstate

/-- The doorbell of a fold that is being cleared is held (R22). -/
theorem Device.doSqDb_clearing (hclearing : (d.ring n).owner < 8 ∧ (d.fold (d.ring n).owner).state = 1) :
    d.doSqDb fn n 4 value = d.setRing n { d.ring n with held := (d.ring n).held ++ [value] } := by
  simp (disch := omega) [Device.doSqDb, hsees, hstate, hclearing, if_neg]

theorem Device.doSqDb_accepted (hclearing : ¬((d.ring n).owner < 8 ∧ (d.fold (d.ring n).owner).state = 1))
    (haccepts : (d.ring n).accepts true value = true) :
    d.doSqDb fn n 4 value = d.setRing n { d.ring n with host := (d.ring n).posOf value } := by
  simp (disch := omega) [Device.doSqDb, Device.sqTail, hsees, hstate, if_neg hclearing, haccepts, if_neg]

theorem Device.doSqDb_halts (hclearing : ¬((d.ring n).owner < 8 ∧ (d.fold (d.ring n).owner).state = 1))
    (haccepts : (d.ring n).accepts true value = false) : d.doSqDb fn n 4 value = d.haltRing n 1 := by
  simp (disch := omega) [Device.doSqDb, Device.sqTail, hsees, hstate, if_neg hclearing, haccepts, if_neg]

end sq

section cq
variable {d : Device} {fn n value : Nat} (hn : n < 512) (hsees : d.seesRing fn (512 + n) = true)
  (hstate : (d.ring (512 + n)).state = 1) (haccepts : (d.ring (512 + n)).accepts false value = true)
include hn hsees hstate haccepts

theorem Device.doCqDb_accepted (hbit : bit value 31 = false) : d.doCqDb fn n 4 value =
    d.setRing (512 + n) { d.ring (512 + n) with host := (d.ring (512 + n)).posOf value } := by
  simp (disch := omega) [Device.doCqDb, hsees, hstate, haccepts, hbit, if_neg]

/-- An arming doorbell of a CQ that it empties (R410). -/
theorem Device.doCqDb_arms (hbit : bit value 31 = true) (hempty : (d.ring (512 + n)).posOf value = (d.ring (512 + n)).pos) :
    d.doCqDb fn n 4 value =
      d.setRing (512 + n) { d.ring (512 + n) with host := (d.ring (512 + n)).posOf value, arm := true } := by
  simp (disch := omega) [Device.doCqDb, hsees, hstate, haccepts, hbit, hempty, if_neg]

end cq

/-- Positions that a doorbell of an SQ may name (R407). -/
theorem Ring.accepts_sq_iff (r : Ring) (value : Nat) : r.accepts true value = true ↔
    bits value 15 0 < r.entries ∧ r.dist r.pos (r.posOf value) ≤ r.entries ∧
      r.dist r.pos r.host ≤ r.dist r.pos (r.posOf value) := by
  simp [Ring.accepts]

/-- Positions that a doorbell of a CQ may name (R407). -/
theorem Ring.accepts_cq_iff (r : Ring) (value : Nat) : r.accepts false value = true ↔
    bits value 15 0 < r.entries ∧ r.dist r.host (r.posOf value) ≤ r.dist r.host r.pos := by
  simp [Ring.accepts]

/-- Settles O26: RING_CFG of an SQ, then its doorbells, then those of a CQ, then the positions that are accepted. -/
theorem ringsAndDoorbellsComplete : Obligations.RingsAndDoorbellsComplete := by
  unfold Obligations.RingsAndDoorbellsComplete
  refine ⟨?config, fun s fn n value hopen hn => ⟨fun hsees hstate => ⟨?held, ?tail, ?halt⟩,
    fun hsees hstate haccepts => ⟨?head, ?arm⟩⟩, fun r value => ⟨r.accepts_sq_iff value, r.accepts_cq_iff value⟩⟩
  case config =>
    intro s fn n value hopen hn hsees r owner size link howner hsmall hlarge
    refine ⟨?enable, ?disable⟩
    case enable =>
      intro hstate hstatus hcq
      have hbits {hi lo : Nat} (hhi : hi < 31) : bits (value % 2 ^ 31 + 2 ^ 31) hi lo = bits value hi lo :=
        bits_congr (mod_enable value) hhi lo
      rw [exec_ringEnable, Device.fromRegs_open hopen, Device.doRingEnable,
        Device.writeRingCfg_enable (owner := owner) hn hsees (by rw [hbits (by decide)]) (hbits (by decide)) (hbits (by decide))
          ⟨howner, hsmall, hlarge⟩ (bit_enable value) hstate hstatus hcq]
    case disable =>
      intro hstate howner' hsize' hlink' d
      have hbits {hi lo : Nat} (hhi : hi < 31) : bits (value % 2 ^ 31) hi lo = bits value hi lo :=
        bits_congr (Nat.mod_mod _ _) hhi lo
      have hwrite : s.dev.writeRingCfg fn n (value % 2 ^ 31) = s.dev.disableRing n :=
        Device.writeRingCfg_disable (owner := owner) hn hsees (by rw [hbits (by decide)]) (hbits (by decide)) (hbits (by decide))
          ⟨howner, hsmall, hlarge⟩ (bit_disable value) hstate ⟨howner', hsize', hlink'⟩
      rw [exec_ringDisable, Device.fromRegs_open hopen, Device.doRingDisable, hwrite]
      exact ⟨fun hidle => by rw [Device.disableRing_idle hn hstate hidle],
        fun hbusy => by rw [Device.disableRing_busy hn hstate hbusy]⟩
  case held =>
    intro hclearing
    rw [exec_sqDoorbell, Device.fromRegs_open hopen, Device.doSqDb_clearing hn hsees hstate value hclearing]
  case tail =>
    intro hclearing haccepts
    rw [exec_sqDoorbell, Device.fromRegs_open hopen, Device.doSqDb_accepted hn hsees hstate value hclearing haccepts]
  case halt =>
    intro hclearing haccepts
    rw [exec_sqDoorbell, Device.fromRegs_open hopen, Device.doSqDb_halts hn hsees hstate value hclearing haccepts,
      Device.haltRing_sq hn]
  case head =>
    intro hbit
    rw [exec_cqDoorbell, Device.fromRegs_open hopen, Device.doCqDb_accepted hn hsees hstate haccepts hbit]
  case arm =>
    intro hbit hempty
    rw [exec_cqDoorbell, Device.fromRegs_open hopen, Device.doCqDb_arms hn hsees hstate haccepts hbit hempty]

end Sys2Proof.Machine
end

section
/-!
Descriptors that are taken up, TALLY_ADD and WAIT, and a LAUNCH that passes its checks (R408, R411, R414 to R416).
-/
namespace Sys2Proof.Machine

/-! ## Descriptors that are taken up (R408, R411, R423, R424) -/

section takesUp
variable {d : Device} {sq idx op : Nat} {x : Desc} (h : d.takesUp sq idx op x)
include h

/-- A descriptor that is taken up meets its own kind's checks next. -/
theorem Device.begin_takesUp (g : Desc → Device) : d.begin sq idx op g = g x := by
  obtain ⟨hdesc, hop, hstart, hforemost, hfields⟩ := h
  simp [Device.begin, hdesc, hop, hstart, hforemost, hfields]

/-- It has not started yet. -/
theorem Device.takesUp_waits : x.started = false := by
  obtain ⟨-, -, hstart, -, -⟩ := h
  simp only [Device.startable, Bool.and_eq_true, Bool.not_eq_true'] at hstart
  obtain ⟨⟨⟨⟨hwaits, -⟩, -⟩, -⟩, -⟩ := hstart
  exact hwaits

end takesUp

/-! ## TALLY_ADD and WAIT (R199, R414) -/

theorem Device.doTallyAddDesc_takesUp {d : Device} {sq idx : Nat} {x : Desc} (h : d.takesUp sq idx 0x02 x)
    (htally : d.tallyStatus sq (x.u 8 4 % 2 ^ 17) = 0) :
    d.doTallyAddDesc sq idx = (d.tallyAdd (d.ringFold sq) (x.u 8 4 % 2 ^ 17) (x.u 12 4)).complete sq idx 0 0 := by
  rw [Device.doTallyAddDesc, Device.begin_takesUp h]
  exact if_neg (not_not.mpr htally)

/-- A WAIT that is taken up completes where its tally has reached the threshold, and starts where it has not. -/
theorem Device.doWait_takesUp {d : Device} {sq idx : Nat} {x : Desc} (h : d.takesUp sq idx 0x03 x)
    (htally : d.tallyStatus sq (x.u 8 4 % 2 ^ 17) = 0) :
    d.doWait sq idx = if d.tallyReached (d.ringFold sq) (x.u 8 4 % 2 ^ 17) (x.u 12 4) then d.complete sq idx 0 0
      else d.markStarted sq idx := by
  have hdesc : d.desc sq idx = some x := h.1
  simp only [Device.doWait, hdesc, Device.begin_takesUp h, Device.takesUp_waits h, htally, Bool.false_eq_true, and_false,
    if_false, ne_eq, not_true_eq_false]

/-- The deadline of a started WAIT has passed and its tally is short of the threshold. -/
theorem Device.doWaitTimeout_short {d : Device} {sq idx : Nat} {x : Desc} {p : TallyAt} (hdesc : d.desc sq idx = some x)
    (hop : x.op = 0x03) (hstarted : x.started = true) (hdeadline : x.u 16 4 ≠ 0) (hpast : x.start + x.u 16 4 ≤ d.now)
    (hshort : d.tallyReached (d.ringFold sq) (x.u 8 4 % 2 ^ 17) (x.u 12 4) = false)
    (htally : d.tallyAt (d.ringFold sq) (x.u 8 4 % 2 ^ 17) = some p) :
    d.doWaitTimeout sq idx = d.complete sq idx 0x0D (d.tallyGet p).toNat := by
  simp only [Device.doWaitTimeout, hdesc, hop, hstarted, hdeadline, hpast, hshort, htally, ne_eq, not_true_eq_false,
    Bool.not_true, Bool.false_eq_true, Nat.not_lt_of_le, or_self, if_false]

/-! ## LAUNCH (R415, R416) -/

/-- The first step of a launched drive: it starts its streams where they begin, unless it restores. -/
def StepRec.launched (r : StepRec) (restore : Bool) (v : Drive) : StepRec :=
  if restore then r else { r with starts := some (v.streams.map (·.1)) }

/-- The drive of a launch block with these flags, and its first step as `reads` finds its blocks, pass the checks of R415, R416
and R387. -/
structure Device.LaunchPasses (d : Device) (f : Nat) (v : Drive) (flags : Nat) (reads : StepReads) (r : StepRec)
    (ms : List DmaD) : Prop where
  faults : (d.launchFaults f v flags).find? (·.2) = none
  extent : d.overlap f v = none
  blocks : d.prepStep f v v.first 0 (bit flags 1) none reads = .ok (r, ms)
  digest : d.digestBad f v (r.launched (bit flags 1) v) = none

/-- A LAUNCH that passes every check installs its drive and completes OK. -/
theorem Device.doLaunch_installs {d : Device} {sq idx : Nat} {x : Desc} {b : List Byte} {reads : StepReads} {r : StepRec}
    {ms : List DmaD} (h : d.takesUp sq idx 0x10 x) (halign : x.u 8 8 % 64 = 0) (hready : (d.fold (d.ringFold sq)).state ≠ 1)
    (hread : d.mayRead (ownerFn (d.ring sq).owner) = true) (hfree : d.drive (d.ringFold sq) x.slot = none)
    (hblock : b.length = 1024)
    (hpasses : d.LaunchPasses (d.ringFold sq) (driveOf b d.leavesHosted) (u b 0xE4 4) reads r ms) :
    d.doLaunch sq idx (.data b) reads =
      (let v := driveOf b d.leavesHosted
       d.install (d.ringFold sq) x.slot v (r.launched (bit (u b 0xE4 4) 1) v) ms).complete sq idx 0 0 := by
  have hbytes : hostBytes (.data b) 1024 = .ok b := if_pos hblock
  obtain ⟨hfaults, hextent, hblocks, hdigest⟩ := hpasses
  rw [StepRec.launched] at hdigest
  rw [Device.doLaunch, Device.begin_takesUp h]
  simp only [StepRec.launched, hready, hread, halign, hfree, hbytes, hfaults, hextent, hblocks, hdigest, Bool.not_true,
    Bool.false_eq_true, or_self, if_false, ne_eq, not_true_eq_false, Option.isSome_none]

/-- Settles O29: the two descriptors that name a tally, the deadline of a WAIT, then LAUNCH. -/
theorem tallyWaitAndLaunchDescriptors : Obligations.TallyWaitAndLaunchDescriptors := by
  unfold Obligations.TallyWaitAndLaunchDescriptors
  refine ⟨fun s sq idx x => ⟨?tallyAdd, ?met, ?starts, ?timeout⟩, ?launch⟩
  case tallyAdd =>
    intro h htally
    rw [exec_tallyAddDescriptor, Device.doTallyAddDesc_takesUp h htally]
  case met =>
    intro h htally hmet
    rw [exec_wait, Device.doWait_takesUp h htally, if_pos hmet]
  case starts =>
    intro h htally hshort
    rw [exec_wait, Device.doWait_takesUp h htally, hshort]
    rfl
  case timeout =>
    intro p hdesc hop hstarted hdeadline hpast hshort htally
    rw [exec_waitTimeout, Device.doWaitTimeout_short hdesc hop hstarted hdeadline hpast hshort htally]
  case launch =>
    intro s sq idx x b reads r ms h halign f v hready hread hfree hblock hfaults hextent hblocks first hdigest
    rw [exec_launch, Device.doLaunch_installs h halign hready hread hfree hblock ⟨hfaults, hextent, hblocks, hdigest⟩]
    rfl

end Sys2Proof.Machine
end

section
/-!
Commands of folds and sites through PF0: handover, readiness, retirement, clearing of counts (R21, R22, R71, R530, R531).
-/
namespace Sys2Proof.Machine

/-! ## FOLD_HANDOVER and FOLD_READY (R21, R22, R530, R531) -/

/-- A ready fold without a drive is handed over in full service outside a recovery (R530). -/
theorem Device.doHandFold_ready {d : Device} {f : Nat} (hf : f < 8) (hdrives : (d.fold f).drives = [])
    (hstate : (d.fold f).state = 2) (hflock : d.flock.state ≠ 3) (hfull : d.full = true) :
    d.doHandFold 0 f = (d.resetVf f).onFold f (·.noFault) := by
  simp (disch := omega) [Device.doHandFold, hdrives, hstate, hflock, hfull, if_neg]

/-- A fold with a drive resident is not (R531). -/
theorem Device.doHandFold_busy {d : Device} {f : Nat} (hf : f < 8) (hdrives : (d.fold f).drives ≠ []) :
    d.doHandFold 0 f = d.refuse 0 0x03 (0x30100 + f * 0x40 + 8) false := by
  simp (disch := omega) [Device.doHandFold, hdrives, if_neg]

/-- A fold that is being cleared is among those that become ready with it. -/
theorem Device.mem_readyWith {d : Device} {f : Nat} (hf : f < 8) (hstate : (d.fold f).state = 1) : f ∈ d.readyWith f := by
  unfold Device.readyWith
  split
  · exact List.mem_singleton_self f
  · next hhandover => simp [hf, hstate, hhandover]

/-- FOLD_READY of a fold whose clear has ended: the folds that become ready get their keys, are marked ready and take the
doorbells held for them. -/
theorem Device.doFoldReady_cleared {d : Device} {f : Nat} (hf : f < 8) (hstate : (d.fold f).state = 1)
    (hcleared : d.cleared f = true) (hdrbg : d.sec.drbg = true) :
    d.doFoldReady f = (d.readyWith f).foldl (fun d g => d.ringHeld g)
      ((d.readyWith f).foldl (fun d g => d.onFold g fun o => { o with state := 2, handover := false })
        ((d.readyWith f).foldl (fun d g => d.drawKey g) d.needRoot)) := by
  have hnot : ¬(8 ≤ f ∨ (d.fold f).state ≠ 1 ∨ !d.cleared f ∨ !d.sec.drbg) := by
    simp [hf, hstate, hcleared, hdrbg]
  rw [Device.doFoldReady, if_neg hnot]

/-! ## SITE_CTRL (R70 to R72) -/

section site
variable {d : Device} {n : Nat} (hn : n < 42)
include hn

theorem Device.doSiteRetire_spare (hfull : d.full = true) (hfold : d.inFold n = false) (hspare : (d.site n).state = 1) :
    d.doSiteRetire 0 n =
      let e := (d.onSite n fun t => { t with state := 2 }).event .penRetired [n, 63]
      { e with persist := { e.persist with retired := nins e.persist.retired n } } := by
  simp (disch := omega) [Device.doSiteRetire, hfull, hfold, hspare, if_neg]

theorem Device.doSiteRetire_pen (hfull : d.full = true) (hfold : d.inFold n = true) :
    d.doSiteRetire 0 n = d.retirePen n := by
  simp (disch := omega) [Device.doSiteRetire, hfull, hfold, if_neg]

theorem Device.doSiteRetire_early (hfull : d.full = false) :
    d.doSiteRetire 0 n = d.refuse 0 0x02 (0x40000 + n * 0x1000 + 0x20) false := by
  simp (disch := omega) [Device.doSiteRetire, hfull, if_neg]

theorem Device.doClearCounts_eq : d.doClearCounts 0 n = d.onSite n fun t => { t with mismatch := 0, lostNan := 0 } :=
  if_neg (by omega)

end site

/-- Settles O33: the fold's commands, then the site's, each by what its operation is under the conditions of the clause. -/
theorem foldAndSiteCommandsComplete : Obligations.FoldAndSiteCommandsComplete := by
  unfold Obligations.FoldAndSiteCommandsComplete
  refine ⟨fun s f hf => ⟨?handover, ?busy, ?ready⟩, fun s n hopen hn => ⟨?spare, ?pen, ?early, ?counts⟩⟩
  case handover =>
    intro hopen hdrives hstate hflock hfull
    rw [exec_foldHandover, Device.fromRegs_open hopen, Device.doHandFold_ready hf hdrives hstate hflock hfull]
    rfl
  case busy =>
    intro hopen hdrives
    rw [exec_foldHandover, Device.fromRegs_open hopen, Device.doHandFold_busy hf hdrives]
  case ready =>
    intro hstate hcleared hdrbg
    refine ⟨Device.mem_readyWith hf hstate, ?_⟩
    rw [exec_foldReady, Device.doFoldReady_cleared hf hstate hcleared hdrbg]
    rfl
  case spare =>
    intro hfull hfold hspare
    rw [exec_siteCtrlRetire, Device.fromRegs_open hopen, Device.doSiteRetire_spare hn hfull hfold hspare]
  case pen =>
    intro hfull hfold
    rw [exec_siteCtrlRetire, Device.fromRegs_open hopen, Device.doSiteRetire_pen hn hfull hfold]
  case early =>
    intro hfull
    rw [exec_siteCtrlRetire, Device.fromRegs_open hopen, Device.doSiteRetire_early hn hfull]
  case counts =>
    rw [exec_siteCtrlClearCounts, Device.fromRegs_open hopen, Device.doClearCounts_eq hn]

end Sys2Proof.Machine
end

section
/-!
Changes of one site: those that agree on it, and those that leave it where it is in the device.
-/
namespace Sys2Proof.Machine

/-- Changes of a site that agree on it as it is are one. -/
theorem Device.onSite_congr {d : Device} {n : Nat} {g g' : Site → Site} (h : g (d.site n) = g' (d.site n)) :
    d.onSite n g = d.onSite n g' := by
  have hmodify : d.sites.modify n g = d.sites.modify n g' := by
    refine List.ext_getElem? fun i => ?_
    simp only [List.getElem?_modify]
    by_cases hi : n = i
    · subst hi
      simp only [Device.site, List.getD_eq_getElem?_getD] at h
      cases hsite : d.sites[n]? with
      | none => rfl
      | some t =>
        rw [hsite] at h
        simpa using h
    · simp only [if_neg hi]
  simp only [Device.onSite, hmodify]

/-- What places a site in the device: its state, its logical pen and its fold. -/
def Site.seat (t : Site) : Nat × Nat × Nat := (t.state, t.logical, t.fold)

section seat
variable (d : Device) (n : Nat) {g : Site → Site} (hseat : ∀ t, (g t).seat = t.seat)
include hseat

theorem Device.seat_onSite (m : Nat) : ((d.onSite n g).site m).seat = (d.site m).seat := by
  rw [Device.site_onSite]
  split
  · next h => rw [h.1, hseat]
  · rfl

theorem Device.inFold_onSite (m : Nat) : (d.onSite n g).inFold m = d.inFold m := by
  obtain ⟨hstate, hlogical, -⟩ : _ ∧ _ ∧ _ := by simpa [Site.seat] using d.seat_onSite n hseat m
  simp only [Device.inFold, hstate, hlogical]

theorem Device.fold_of_onSite (m : Nat) : ((d.onSite n g).site m).fold = (d.site m).fold := by
  obtain ⟨-, -, hfold⟩ : _ ∧ _ ∧ _ := by simpa [Site.seat] using d.seat_onSite n hseat m
  exact hfold

/-- The drive that may go on is the one of the fold that the site is in. -/
theorem Device.goes_onSite (m : Nat) : (d.onSite n g).goes m = d.goes m := by
  simp only [Device.goes, Device.running, d.inFold_onSite n hseat, d.fold_of_onSite n hseat]
  rfl

theorem Device.siteOf_onSite (l : Nat) : (d.onSite n g).siteOf l = d.siteOf l := by
  have hseats : (d.onSite n g).sites.map Site.seat = d.sites.map Site.seat := by
    refine List.ext_getElem? fun i => ?_
    simp only [Device.onSite_sites, List.getElem?_map, List.getElem?_modify]
    split
    · simp [hseat, Function.comp_def]
    · simp
  have hsite (e : Device) : e.siteOf l =
      (e.sites.map Site.seat).findIdx? fun x => (x.1 = 0 || x.1 = 2) && x.2.1 < 40 && x.2.1 = l := by
    rw [List.findIdx?_map]
    rfl
  rw [hsite, hsite, hseats]

theorem Device.foldSites_onSite (f : Nat) : (d.onSite n g).foldSites f = d.foldSites f := by
  have hsiteOf : (d.onSite n g).siteOf = d.siteOf := funext (d.siteOf_onSite n hseat)
  simp only [Device.foldSites, hsiteOf, d.fold_of_onSite n hseat]

theorem Device.penOf_onSite (m : Nat) : (d.onSite n g).penOf m = d.penOf m := by
  simp only [Device.penOf, d.foldSites_onSite n hseat, d.fold_of_onSite n hseat]

end seat

end Sys2Proof.Machine
end

section
/-!
Control flits that reach their destination, and what the flits on a lane keep (R242, R245, R257, R272).
-/
namespace Sys2Proof.Machine

/-- No flit arrives from a lane that none of the named is on. -/
theorem arriveGo_of_absent {α : Type} {p : α → Bool} {l : List (Flight α)} (habsent : l.any (fun x => p x.flit) = false)
    (done : List (Flight α)) : arriveGo p done l = none := by
  induction l generalizing done with
  | nil => rfl
  | cons x l ih =>
    obtain ⟨hx, hl⟩ := Bool.or_eq_false_iff.mp (List.any_cons.symm.trans habsent)
    simp only [arriveGo, hx, ih hl, Bool.false_and, Bool.false_eq_true, if_false]

/-- The pen behind the crossing queue that a control flit is written into (R272). -/
def Device.flitPen (d : Device) : CtlFlit → Option Nat
  | .musterRelease _ _ _ n _ | .rampGrant n _ => some n
  | .tallyAdd f id _ | .tallySet f id _ => match d.tallyAt f id with | some (.pen n _) => some n | _ => none
  | _ => none

/-- A flit that reaches its destination has its effect on the device that it has reached. -/
theorem Device.onArrive_tookCtl {d e : Device} {c : CtlFlit} (h : d.tookCtl c (d.flitPen c) e) (g : Device → Device) :
    d.onArrive c g = g e := by
  unfold Device.onArrive
  extract_lets woken
  have hwoken : ∀ x : Device, (∀ f id, x.tallyAt f id = d.tallyAt f id) →
      woken x = match d.flitPen c with | some n => x.wake n | none => x := by
    intro x hx
    cases c with
    | tallyAdd f id _ | tallySet f id _ =>
      simp only [woken, Device.flitPen, hx]
      cases d.tallyAt f id with
      | none => rfl
      | some p => cases p <;> rfl
    | _ => rfl
  rcases h with ⟨x, l, harrive, rfl⟩ | ⟨habsent, rfl⟩
  · simp only [harrive]
    exact congrArg g (hwoken _ fun f id => rfl)
  · have hcapture : ∀ f id, (d.capture c).tallyAt f id = d.tallyAt f id := by
      obtain ⟨tr, htrace⟩ := d.capture_eq c
      rw [htrace]
      exact fun f id => rfl
    simp only [arriveGo_of_absent (p := fun x => decide (x = c)) habsent, habsent, Bool.false_eq_true, if_false]
    exact congrArg g (hwoken _ hcapture)

/-- A flit that has reached its destination has changed hefts, the trace and the control ring alone. -/
theorem Device.tookCtl_eq {d e : Device} {c : CtlFlit} {h : Option Nat} (htook : d.tookCtl c h e) :
    ∃ he tr ctl, e = { d with hefts := he, trace := tr, fabric := { d.fabric with ctl := ctl } } := by
  obtain ⟨tr, htrace⟩ := d.capture_eq c
  rcases htook with ⟨x, l, -, rfl⟩ | ⟨-, rfl⟩
  · cases h <;> exact ⟨_, _, _, rfl⟩
  · rw [htrace]
    cases h <;> exact ⟨_, _, _, rfl⟩

section tookCtl
variable {d e : Device} {c : CtlFlit} {h : Option Nat} (htook : d.tookCtl c h e)
include htook

theorem Device.tookCtl_sites : e.sites = d.sites := by
  obtain ⟨he, tr, ctl, rfl⟩ := Device.tookCtl_eq htook
  rfl

theorem Device.tookCtl_folds : e.folds = d.folds := by
  obtain ⟨he, tr, ctl, rfl⟩ := Device.tookCtl_eq htook
  rfl

theorem Device.tookCtl_foldCount : e.foldCount = d.foldCount := by
  obtain ⟨he, tr, ctl, rfl⟩ := Device.tookCtl_eq htook
  rfl

theorem Device.tookCtl_site (n : Nat) : e.site n = d.site n := by
  simp only [Device.site, Device.tookCtl_sites htook]

theorem Device.tookCtl_fold (f : Nat) : e.fold f = d.fold f := by
  simp only [Device.fold, Device.tookCtl_folds htook]

theorem Device.tookCtl_foldSites (f : Nat) : e.foldSites f = d.foldSites f := by
  obtain ⟨he, tr, ctl, rfl⟩ := Device.tookCtl_eq htook
  rfl

theorem Device.tookCtl_goes (n : Nat) : e.goes n = d.goes n := by
  obtain ⟨he, tr, ctl, rfl⟩ := Device.tookCtl_eq htook
  rfl

theorem Device.tookCtl_busy (n : Nat) : e.busy n = d.busy n := by
  obtain ⟨he, tr, ctl, rfl⟩ := Device.tookCtl_eq htook
  rfl

end tookCtl

/-- Injection keeps the flits of a lane in their order. -/
theorem injectGo_flits {α : Type} (room : Nat × Nat → Nat) (may : Flight α → Bool) (done l : List (Flight α)) :
    (injectGo room may done l).map (·.flit) = (done ++ l).map (·.flit) := by
  induction l generalizing done with
  | nil => simp [injectGo]
  | cons x l ih =>
    simp only [injectGo, ih, List.map_append, List.map_cons, List.append_assoc, List.singleton_append]
    split <;> rfl

/-- A control flit issued joins those on the ring. -/
theorem Device.inject_flits (d : Device) (src : Nat × Nat) (c : CtlFlit) :
    (d.inject src c).fabric.ctl.map (·.flit) = d.fabric.ctl.map (·.flit) ++ [c] := by
  obtain ⟨tr, htrace⟩ := d.capture_eq c
  simp [Device.inject, injectAll, injectGo_flits, htrace]

/-- Flits issued one after the other join those on the ring, and change the trace and the ring alone. -/
theorem Device.foldl_inject {α : Type} (src : Nat × Nat) (c : α → CtlFlit) (l : List α) (d : Device) :
    ∃ tr ctl, l.foldl (fun e a => e.inject src (c a)) d = { d with trace := tr, fabric := { d.fabric with ctl := ctl } } ∧
      ctl.map (·.flit) = d.fabric.ctl.map (·.flit) ++ l.map c := by
  induction l generalizing d with
  | nil => exact ⟨d.trace, d.fabric.ctl, rfl, by simp⟩
  | cons a l ih =>
    have hflits := d.inject_flits src (c a)
    obtain ⟨tr, ctl, hinject⟩ := d.inject_eq src (c a)
    obtain ⟨tr', ctl', hfold, hctl⟩ := ih (d.inject src (c a))
    refine ⟨tr', ctl', ?_, ?_⟩
    · rw [List.foldl_cons, hfold, hinject]
    · rw [hctl, hflits, List.map_cons, List.append_assoc, List.singleton_append]

end Sys2Proof.Machine
end

section
/-!
Ramps and stops of a pen: the end of a ramp, requests, and the grants of the ramp arbiter (R74 to R81).
-/
namespace Sys2Proof.Machine

/-! ## RAMP_GRANT (R76 to R79) -/

/-- The grants that lie in the 64 arbiter cycles up to one (R78). -/
def Device.grantsIn (d : Device) (cycle : Nat) : List Nat := d.fabric.rampLog.filter (cycle < · + 64)

/-- The device once the ramp arbiter has granted its oldest request. -/
def Device.granted (d : Device) (cycle : Nat) : Device :=
  { d with fabric := { d.fabric with rampReq := d.fabric.rampReq.tail, rampLog := d.grantsIn cycle ++ [cycle] } }

/-- A request that is not the oldest, or whose window holds four grants, is not granted. -/
theorem Device.doRampGrant_refused {d : Device} {n cycle : Nat} {up : Bool}
    (h : d.fabric.rampReq.head? ≠ some (n, up) ∨ 4 ≤ (d.grantsIn cycle).length) : d.doRampGrant n up cycle = d := by
  have hrefused : d.fabric.rampReq.head? ≠ some (n, up) ∨ 4 ≤ (d.grantsIn cycle).length ∨ d.fabric.stagger ≠ [] ∨
      cycle < d.fabric.holdTo := by
    rcases h with hhead | hwindow
    · exact .inl hhead
    · exact .inr (.inl hwindow)
  exact if_pos hrefused

/-- What a grant does at its pen: a ramp-up, with which the RUNs of the drive that runs complete, or a ramp-down. -/
def Device.rampGranted (d : Device) (n : Nat) (up : Bool) : Device :=
  if up then
    if (d.site n).stops ≠ [] then d
    else match ((d.onSite n (·.rampUp)).fold ((d.onSite n (·.rampUp)).site n).fold).running with
      | some s => (d.onSite n (·.rampUp)).completeRuns ((d.onSite n (·.rampUp)).site n).fold s
      | none => d.onSite n (·.rampUp)
  else if d.busy n then d else d.onSite n (·.rampDown)

/-- The oldest request is granted while the window has room and no muster's ramp-ups hold the grants. -/
theorem Device.doRampGrant_granted {d e : Device} {n cycle : Nat} {up : Bool}
    (hhead : d.fabric.rampReq.head? = some (n, up)) (hwindow : (d.grantsIn cycle).length < 4)
    (hstagger : d.fabric.stagger = []) (hhold : d.fabric.holdTo ≤ cycle)
    (htook : (d.granted cycle).tookCtl (.rampGrant n up) (some n) e) : d.doRampGrant n up cycle = e.rampGranted n up := by
  have hgranted : ¬(d.fabric.rampReq.head? ≠ some (n, up) ∨ 4 ≤ (d.grantsIn cycle).length ∨ d.fabric.stagger ≠ [] ∨
      cycle < d.fabric.holdTo) := by
    simp only [hhead, hstagger, ne_eq, not_true_eq_false, false_or, not_or]
    omega
  exact (if_neg hgranted).trans (Device.onArrive_tookCtl htook _)

theorem Site.rampUp_seat (t : Site) : t.rampUp.seat = t.seat := by
  rw [Site.rampUp]
  split <;> rfl

/-- A pen without a stop cause begins its ramp-up; no RUN is in progress on a fold that runs no drive. -/
theorem Device.rampGranted_up {d : Device} {n : Nat} (hstops : (d.site n).stops = [])
    (hidle : (d.fold (d.site n).fold).running = none) : d.rampGranted n true = d.onSite n (·.rampUp) := by
  have hfold : ((d.onSite n (·.rampUp)).site n).fold = (d.site n).fold := d.fold_of_onSite n Site.rampUp_seat n
  have hrunning : ((d.onSite n (·.rampUp)).fold ((d.onSite n (·.rampUp)).site n).fold).running = none := by
    rw [hfold]
    exact hidle
  simp only [Device.rampGranted, hstops, hrunning, ne_eq, not_true_eq_false, if_true, if_false]

/-- A pen without ready work begins its ramp-down. -/
theorem Device.rampGranted_down {d : Device} {n : Nat} (hidle : d.busy n = false) :
    d.rampGranted n false = d.onSite n (·.rampDown) := by
  simp only [Device.rampGranted, hidle, Bool.false_eq_true, if_false]

/-! ## Ramps that end, and requests (R74, R77, R78, R81) -/

section ramp
variable {d : Device} {n : Nat}

theorem Device.doRampEnd_up (hramp : (d.site n).ramp = some .up) :
    d.doRampEnd n = d.onSite n fun t => { t with level := 4, ramp := none } :=
  Device.onSite_congr (by rw [hramp])

theorem Device.doRampEnd_turn (hramp : (d.site n).ramp = some .turn) :
    d.doRampEnd n = d.onSite n fun t => { t with level := 4, ramp := some .down } :=
  Device.onSite_congr (by rw [hramp])

theorem Device.doRampEnd_down (hramp : (d.site n).ramp = some .down) :
    d.doRampEnd n = d.onSite n fun t => { t with level := 0, ramp := none } :=
  Device.onSite_congr (by rw [hramp])

/-- An active pen without ready work asks for its ramp-down. -/
theorem Device.doIdle_asks (hlevel : 0 < (d.site n).level) (hramp : (d.site n).ramp = none) (hidle : d.busy n = false) :
    d.doIdle n = d.inject (stopOf n) (.rampReq n false) :=
  if_pos ⟨hlevel, by rw [hramp]; rfl, by rw [hidle]; rfl⟩

end ramp

/-- A stop cause leaves the activity level of every pen. -/
theorem Device.level_onSite_stop (d : Device) (n : Nat) (c : StopCause) (m : Nat) :
    ((d.onSite n (·.stop c)).site m).level = (d.site m).level := by
  rw [Device.site_onSite]
  split
  · next h => rw [h.1]; rfl
  · rfl

/-- A stop of a pen of a fold adds its cause; an active pen asks for its ramp-down. -/
theorem Device.doPenStop_inFold {d : Device} {n : Nat} (hfold : d.inFold n = true) (c : StopCause) :
    d.doPenStop n c = if 0 < (d.site n).level then (d.onSite n (·.stop c)).inject (stopOf n) (.rampReq n false)
      else d.onSite n (·.stop c) := by
  rw [Device.doPenStop, if_pos hfold]
  simp only [Device.stopPen, Device.level_onSite_stop]

/-- A ramp request waits once, behind those before it. -/
theorem Device.doRampRequest_took {d e : Device} {n : Nat} {up : Bool} (htook : d.tookCtl (.rampReq n up) none e) :
    d.doRampRequest n up = { e with fabric := { e.fabric with
      rampReq := if d.fabric.rampReq.contains (n, up) then d.fabric.rampReq else d.fabric.rampReq ++ [(n, up)] } } := by
  rw [Device.doRampRequest, Device.onArrive_tookCtl htook]
  obtain ⟨he, tr, ctl, rfl⟩ := Device.tookCtl_eq htook
  rfl

/-- Settles O15: the pen's ramps, requests and stops by what their operation is, then the arbiter's refusals and grants. -/
theorem rampsAndStopsComplete : Obligations.RampsAndStopsComplete := by
  unfold Obligations.RampsAndStopsComplete
  refine ⟨fun s n => ⟨?rampedUp, ?turned, ?rampedDown, ?idle, ?request, ?stop⟩,
    fun s n cycle up => ⟨?refused, fun hhead hwindow hstagger hhold e htook => ⟨?grantUp, ?grantDown⟩⟩⟩
  case rampedUp =>
    intro hramp
    rw [exec_rampEnd, Device.doRampEnd_up hramp]
    rfl
  case turned =>
    intro hramp
    rw [exec_rampEnd, Device.doRampEnd_turn hramp]
    rfl
  case rampedDown =>
    intro hramp
    rw [exec_rampEnd, Device.doRampEnd_down hramp]
    rfl
  case idle =>
    intro hlevel hramp hidle
    rw [exec_idleRampDown, Device.doIdle_asks hlevel hramp hidle]
  case request =>
    intro up e htook
    rw [exec_rampRequest, Device.doRampRequest_took htook]
  case stop =>
    intro c hfold
    rw [exec_penStopRequest, Device.doPenStop_inFold hfold]
    rfl
  case refused =>
    intro hrefused
    rw [exec_rampGrant, Device.doRampGrant_refused hrefused]
  case grantUp =>
    intro hup hstops hidle
    subst hup
    have hsite : e.site n = s.dev.site n := Device.tookCtl_site htook n
    have hfold : e.fold (s.dev.site n).fold = s.dev.fold (s.dev.site n).fold := Device.tookCtl_fold htook _
    rw [exec_rampGrant, Device.doRampGrant_granted hhead hwindow hstagger hhold htook,
      Device.rampGranted_up (by rw [hsite, hstops]) (by rw [hsite, hfold, hidle])]
    rfl
  case grantDown =>
    intro hdown hidle
    subst hdown
    have hbusy : e.busy n = s.dev.busy n := Device.tookCtl_busy htook n
    rw [exec_rampGrant, Device.doRampGrant_granted hhead hwindow hstagger hhold htook,
      Device.rampGranted_down (by rw [hbusy, hidle])]
    rfl

end Sys2Proof.Machine
end

section
/-!
Musters: the hub counts the arrivals of a round and releases it, and a release reaches its pen (R79, R201).
-/
namespace Sys2Proof.Machine

/-! ## The hub (R79, R201) -/

/-- Pens that have arrived in a round once a pen has. -/
def Device.arrivals (d : Device) (f slot group pen : Nat) : List Nat :=
  nins (sget [] (d.fold f).musters (musterKey slot group)) pen

/-- The device whose hub has counted the arrivals of a round. -/
def Device.counted (d : Device) (f slot group : Nat) (here : List Nat) : Device :=
  d.onFold f fun o => { o with musters := sput o.musters (musterKey slot group) here }

/-- Pens of a fold at activity level 0, in ascending order. -/
def Device.idlePens (d : Device) (f : Nat) : List Nat := (d.foldSites f).filter fun n => (d.site n).level = 0

/-- The release flit that goes to a pen of a fold: with its place among the pens at level 0 (R79). -/
def Device.releaseFlit (d : Device) (f slot group n : Nat) : CtlFlit :=
  .musterRelease f slot group n (if (d.idlePens f).contains n then (d.idlePens f).idxOf n else 0)

/-- An arrival is counted; the one with which every pen of the fold has arrived releases the round. -/
theorem Device.doMusterArrive_took {d e : Device} {f slot group pen cycle : Nat}
    (htook : d.tookCtl (.musterArrive f slot group pen) none e) (hslot : slot < 4) (hgroup : group < 64 / d.foldCount)
    (hpen : pen < (d.foldSites f).length) :
    d.doMusterArrive f slot group pen cycle =
      if (List.range (d.foldSites f).length).all ((d.arrivals f slot group pen).contains ·) then
        (e.counted f slot group (d.arrivals f slot group pen)).releaseMuster f slot group cycle
      else e.counted f slot group (d.arrivals f slot group pen) := by
  have hcounts : ¬(4 ≤ slot ∨ 64 / d.foldCount ≤ group ∨ (d.foldSites f).length ≤ pen) := by omega
  rw [Device.doMusterArrive, Device.onArrive_tookCtl htook]
  simp only [Device.tookCtl_foldSites htook, Device.tookCtl_foldCount htook, Device.tookCtl_fold htook, if_neg hcounts]
  rfl

/-- The release of a round: the round ends, its ramp-ups are due and hold the grants, and a release flit goes to every pen. -/
theorem Device.releaseMuster_eq (d : Device) (f slot group cycle : Nat) :
    ∃ tr ctl, d.releaseMuster f slot group cycle =
      { d.onFold f fun o => { o with musters := sdel o.musters (musterKey slot group) } with
        trace := tr
        fabric := { d.fabric with
          ctl := ctl
          stagger := d.fabric.stagger ++ (d.idlePens f).zipIdx.map fun x => (x.1, cycle + 26 + x.2)
          holdTo := if d.idlePens f = [] then d.fabric.holdTo
            else max d.fabric.holdTo (cycle + 26 + ((d.idlePens f).length - 1) + 32) } } ∧
      ctl.map (·.flit) = d.fabric.ctl.map (·.flit) ++ (d.foldSites f).map (d.releaseFlit f slot group) := by
  obtain ⟨tr, ctl, hfold, hctl⟩ := Device.foldl_inject hubStop (d.releaseFlit f slot group) (d.foldSites f)
    { d.onFold f fun o => { o with musters := sdel o.musters (musterKey slot group) } with
      fabric := { d.fabric with
        stagger := d.fabric.stagger ++ (d.idlePens f).zipIdx.map fun x => (x.1, cycle + 26 + x.2)
        holdTo := if d.idlePens f = [] then d.fabric.holdTo
          else max d.fabric.holdTo (cycle + 26 + ((d.idlePens f).length - 1) + 32) } }
  exact ⟨tr, ctl, hfold, hctl⟩

/-- A round that has ended is no round any more, and a fold that there is not has none. -/
theorem Device.musters_onFold_sdel (d : Device) (f key : Nat) :
    ((d.onFold f fun o => { o with musters := sdel o.musters key }).fold f).musters = sdel (d.fold f).musters key := by
  rw [Device.fold_onFold]
  by_cases hf : f < d.folds.length
  · rw [if_pos ⟨rfl, hf⟩]
  · have hnone : d.fold f = .reset := List.getD_eq_default _ _ (Nat.le_of_not_lt hf)
    rw [if_neg (fun h => hf h.2), hnone]
    rfl

/-! ## A release at its pen (R79, R201) -/

/-- A site whose pen has no arrival in a round any more. -/
def Site.leaveRound (key : Nat) (t : Site) : Site := { t with arrived := ndel t.arrived key }

theorem Site.leaveRound_seat (key : Nat) (t : Site) : (t.leaveRound key).seat = t.seat := rfl

/-- The waits of a site's commands for a group's release are over. -/
def Site.unmuster (t : Site) (group : Nat) : Site :=
  { t with seqr := { t.seqr with act := t.seqr.act.map fun a => match a.cmd.body with
    | .muster g m _ => if g = group ∧ a.phase = .waiting ∧ (a.t = 1 ∨ m = 2) then { a with phase := .finished } else a
    | _ => a } }

/-- The device whose pen has been released from its round and its waits. -/
def Device.released (d : Device) (n slot group : Nat) : Device :=
  (d.onSite n (·.leaveRound (musterKey slot group))).onSite n (·.unmuster group)

/-- A release before the pen's own cycle is not heeded yet. -/
theorem Device.doMusterRelease_early {d : Device} {f slot group n pos cycle c : Nat}
    (hdue : d.fabric.stagger.find? (·.1 = n) = some (n, c)) (hearly : cycle < c) :
    d.doMusterRelease f slot group n pos cycle = d := by
  rw [Device.doMusterRelease]
  exact if_pos (.inr (by simp [hdue, hearly]))

/-- A release at a pen whose drive runs ends its waits; one whose ramp-up is due begins it. -/
theorem Device.doMusterRelease_took {d e : Device} {f slot group n pos cycle : Nat} {v : Drive}
    (hsent : d.fabric.ctl.any (·.flit = .musterRelease f slot group n pos) = true)
    (htook : d.tookCtl (.musterRelease f slot group n pos) (some n) e) (hgoes : d.goes n = some (slot, v))
    (hdue : (d.fabric.stagger.find? (·.1 = n)).any (cycle < ·.2) = false) :
    d.doMusterRelease f slot group n pos cycle =
      if (d.fabric.stagger.find? (·.1 = n)).isSome then (e.released n slot group).staggerUp n cycle
      else e.released n slot group := by
  have hheeded : ¬((!d.fabric.ctl.any (·.flit = .musterRelease f slot group n pos)) = true ∨
      (d.fabric.stagger.find? (·.1 = n)).any (cycle < ·.2) = true) := by
    simp [hsent, hdue]
  have hstays := e.goes_onSite n (Site.leaveRound_seat (musterKey slot group)) n
  have hmine : (e.onSite n fun t => { t with arrived := ndel t.arrived (musterKey slot group) }).goes n = some (slot, v) :=
    hstays.trans ((Device.tookCtl_goes htook n).trans hgoes)
  rw [Device.doMusterRelease, if_neg hheeded, Device.onArrive_tookCtl htook]
  simp only [hmine, decide_true, if_true]
  rfl

/-- Settles O19: at the hub an arrival, then the last one; at the pen a release with no ramp-up due, with one due, and before
it is due. -/
theorem mustersReleaseTogether : Obligations.MustersReleaseTogether := by
  unfold Obligations.MustersReleaseTogether
  refine ⟨fun s f slot group pen cycle e htook hslot hgroup => ?hub,
    fun s f slot group n pos cycle v e hsent htook hgoes => ⟨?waits, ?rampsUp, ?early⟩⟩
  case hub =>
    intro ss here d idle hpen
    have harrive := Device.doMusterArrive_took (cycle := cycle) htook hslot hgroup hpen
    refine ⟨fun hmissing => ?_, fun hall => ?_⟩
    · rw [exec_musterArrive, harrive.trans (if_neg (ne_true_of_eq_false hmissing))]
      rfl
    · replace harrive := harrive.trans (if_pos hall)
      have hsites : d.foldSites f = ss := Device.tookCtl_foldSites htook f
      have hidle : d.idlePens f = idle := by
        simp only [Device.idlePens, hsites]
        exact List.filter_congr fun n _ => by
          rw [show d.site n = s.dev.site n from Device.tookCtl_site htook n]
      obtain ⟨he, tr, ctl, heq⟩ := Device.tookCtl_eq htook
      obtain ⟨tr', ctl', hrelease, hctl⟩ := d.releaseMuster_eq f slot group cycle
      have hfabric : d.fabric.stagger = s.dev.fabric.stagger ∧ d.fabric.holdTo = s.dev.fabric.holdTo := by
        simp only [d, Device.onFold_fabric, heq, and_self]
      refine ⟨⟨d.releaseMuster f slot group cycle, s.pending⟩, ?_, rfl, ?musters, ?stagger, ?hold, ?kept, ?flits, ?sites⟩
      · rw [exec_musterArrive, harrive]
        rfl
      case musters =>
        rw [hrelease]
        exact d.musters_onFold_sdel f (musterKey slot group)
      case stagger =>
        rw [hrelease, hidle, hfabric.1]
      case hold =>
        intro hsome
        rw [hrelease, hidle]
        simp only [if_neg hsome]
        omega
      case kept =>
        rw [hrelease, hfabric.2]
        dsimp only
        split <;> omega
      case flits =>
        intro n hn
        have hflit : d.releaseFlit f slot group n ∈ ctl'.map (·.flit) := by
          rw [hctl, hsites]
          exact List.mem_append_right _ (List.mem_map_of_mem hn)
        obtain ⟨x, hx, hxflit⟩ := List.mem_map.mp hflit
        rw [Device.releaseFlit, hidle] at hxflit
        rw [hrelease]
        exact List.any_eq_true.mpr ⟨x, hx, decide_eq_true hxflit⟩
      case sites =>
        rw [hrelease]
        have hsame : e.sites = s.dev.sites := Device.tookCtl_sites htook
        exact hsame
  case waits =>
    intro hnone
    rw [exec_musterRelease, Device.doMusterRelease_took hsent htook hgoes (by rw [hnone]; rfl), hnone]
    rfl
  case rampsUp =>
    intro c hdue hcycle
    rw [exec_musterRelease, Device.doMusterRelease_took hsent htook hgoes (by simp [hdue, hcycle]), hdue]
    rfl
  case early =>
    intro c hdue hcycle
    rw [exec_musterRelease, Device.doMusterRelease_early hdue hcycle]

end Sys2Proof.Machine
end

section
/-!
RUN, END, PLAN, GROUP_OPEN and GROUP_CLOSE that are taken up (R82, R205, R342, R421 to R424).
-/
namespace Sys2Proof.Machine

/-! ## RUN (R82, R205, R421) -/

section run
variable {d : Device} {sq idx : Nat} {x : Desc} {v : Drive} (h : d.takesUp sq idx 0x12 x)
  (hdrive : d.drive (d.ringFold sq) x.slot = some v) (hstopped : v.stopped = none)
include h hdrive hstopped

/-- RUN of the drive that runs. -/
theorem Device.doRun_again (hruns : (d.fold (d.ringFold sq)).running = some x.slot) :
    d.doRun sq idx = d.complete sq idx 0 0 := by
  rw [Device.doRun, Device.begin_takesUp h]
  simp only [hdrive, hstopped, hruns, or_true, if_true]

/-- RUN of another resident drive: the running one pauses, and every pen of the fold is to stop for the change. -/
theorem Device.doRun_switches {o : Nat} (hended : v.ended = false) (hruns : (d.fold (d.ringFold sq)).running = some o)
    (hother : o ≠ x.slot) (hincoming : (d.fold (d.ringFold sq)).incoming = none) :
    d.doRun sq idx =
      let e := ((d.markStarted sq idx).onDrive (d.ringFold sq) o fun v => { v with paused := some d.now }).onFold
        (d.ringFold sq) fun o => { o with incoming := some x.slot }
      (e.foldSites (d.ringFold sq)).foldl (fun e n => e.stopPen n .preempt) e := by
  have hruns' : ((d.markStarted sq idx).fold (d.ringFold sq)).running = some o := hruns
  rw [Device.doRun, Device.begin_takesUp h]
  simp only [hdrive, hstopped, hended, hruns, hruns', hincoming, hother, Option.some.injEq, Bool.false_eq_true, or_self,
    if_false, Option.isSome_none, Option.isNone_some]
  rfl

end run

/-! ## END (R422) -/

section endDesc
variable {d : Device} {sq idx : Nat} {x : Desc} {v : Drive} (h : d.takesUp sq idx 0x13 x)
  (hdrive : d.drive (d.ringFold sq) x.slot = some v)
include h hdrive

/-- END without a report. -/
theorem Device.doEndDesc_silent (hreport : x.u 8 8 = 0) :
    d.doEndDesc sq idx = ((d.endDrive (d.ringFold sq) x.slot).releaseSlot (d.ringFold sq) x.slot).complete sq idx 0 0 := by
  rw [Device.doEndDesc, Device.begin_takesUp h]
  simp only [hdrive, hreport, Nat.zero_mod, ne_eq, not_true_eq_false, if_true, if_false]
  split <;> rfl

/-- END with a report of the drive as it has ended. -/
theorem Device.doEndDesc_reports {w : Drive} (hreport : x.u 8 8 ≠ 0) (halign : x.u 8 8 % 64 = 0)
    (hended : (d.endDrive (d.ringFold sq) x.slot).drive (d.ringFold sq) x.slot = some w) :
    d.doEndDesc sq idx =
      let e := d.endDrive (d.ringFold sq) x.slot
      (((e.hostWrite (x.u 8 8) (e.driveReport w)).draw).releaseSlot (d.ringFold sq) x.slot).complete sq idx 0 0 := by
  rw [Device.doEndDesc, Device.begin_takesUp h]
  simp only [hdrive, hended, hreport, halign, ne_eq, not_true_eq_false, if_false]

end endDesc

/-! ## PLAN and groups (R342, R423, R424) -/

/-- The plan entry that a PLAN writes (table Plan entry). -/
def Desc.planEntry (x : Desc) : PlanE where
  op := x.u 9 1
  fmt := x.u 10 1
  shears := bit (x.u 11 1) 0
  foster := bit (x.u 11 1) 1
  group := if bit (x.u 12 2) 8 then some (x.u 12 1) else none
  root := x.u 14 1
  size := x.u 16 8
  out := x.u 24 8
  tally := bits (x.u 32 4) 16 0
  inc := bits (x.u 32 4) 24 17

/-- PLAN of an idle plan on an active member of a formed flock. -/
theorem Device.doPlan_writes {d : Device} {sq idx : Nat} {x : Desc} (h : d.takesUp sq idx 0x20 x) (hfolds : d.foldCount = 1)
    (hactive : d.active = true) (hflock : d.flock.state = 2) (hidle : d.planBusy (x.u 8 1) = false)
    (hentry : d.planFault x = none) :
    d.doPlan sq idx =
      let e := { d with coll := { d.coll with plans := sput d.coll.plans (x.u 8 1) x.planEntry } }
      (if d.flock.isBell then e else e.tellBell (.manage (.planGroup d.flock.rank (x.u 8 1) x.planEntry.group))).complete
        sq idx 0 0 := by
  rw [Device.doPlan, Device.begin_takesUp h]
  simp only [hfolds, hactive, hflock, hidle, hentry, Nat.lt_irrefl, Bool.not_true, Bool.false_eq_true, ne_eq, not_true_eq_false,
    or_self, if_false]
  rfl

/-- GROUP_OPEN builds the lowest free group, whose tree has this device on it. -/
theorem Device.doGroupOpen_builds {d : Device} {sq idx : Nat} {x : Desc} {g : Nat} {t : Nat × List Nat × Bool × Nat × Nat}
    (h : d.takesUp sq idx 0x21 x) (hleads : d.leads = true)
    (hfree : (List.range 256).find? (fun g => (slook d.coll.live g).isNone) = some g) :
    let e := { d with
      coll := { d.coll with live := sput d.coll.live g (ranksOf (x.u 16 8)) }
      flock := { d.flock with groupsLive := d.flock.groupsLive + 1 } }
    e.groupEntry (x.u 8 1) (x.u 16 8) e.flock.rank = some t →
    let e := e.setGroup g (some t)
    d.doGroupOpen sq idx =
      (e.tellMembers fun r => (e.groupEntry (x.u 8 1) (x.u 16 8) r).map fun t => .group g (some t)).complete sq idx 0 g := by
  intro e htree e'
  rw [Device.doGroupOpen, Device.begin_takesUp h]
  simp only [hleads, Bool.not_true, Bool.false_eq_true, if_false, hfree]
  rw [htree]

/-- GROUP_CLOSE frees a live group that no plan names. -/
theorem Device.doGroupClose_frees {d : Device} {sq idx : Nat} {x : Desc} (h : d.takesUp sq idx 0x22 x) (hleads : d.leads = true)
    (hplans : d.coll.plans.any (fun e => e.2.group = some (x.u 8 1)) = false)
    (hnamed : d.coll.named.any (fun e => e.2.2 = x.u 8 1) = false) (hlive : (slook d.coll.live (x.u 8 1)).isSome = true) :
    d.doGroupClose sq idx =
      ((({ d with
        coll := { d.coll with live := sdel d.coll.live (x.u 8 1) }
        flock := { d.flock with groupsLive := d.flock.groupsLive - 1 } } : Device).setGroup (x.u 8 1) none).tellMembers
          fun _ => some (.group (x.u 8 1) none)).complete sq idx 0 0 := by
  rw [Device.doGroupClose, Device.begin_takesUp h]
  simp only [hleads, hplans, hnamed, hlive, Bool.not_true, Bool.or_self, Bool.false_eq_true, if_false, if_true]

/-- Settles O31: RUN and END of a resident drive, then PLAN and the groups, each as it is taken up. -/
theorem runEndPlanAndGroups : Obligations.RunEndPlanAndGroups := by
  unfold Obligations.RunEndPlanAndGroups
  refine ⟨fun s sq idx x v hdrive => ⟨?again, ?switches, ?silent, ?reports⟩,
    fun s sq idx x => ⟨?plan, ?groupOpen, ?groupClose⟩⟩
  case again =>
    intro h hstopped hruns
    rw [exec_run, Device.doRun_again h hdrive hstopped hruns]
  case switches =>
    intro o h hstopped hended hruns hother hincoming d
    rw [exec_run, Device.doRun_switches h hdrive hstopped hended hruns hother hincoming]
  case silent =>
    intro h hreport
    rw [exec_endDescriptor, Device.doEndDesc_silent h hdrive hreport]
  case reports =>
    intro w h hreport halign d hended
    rw [exec_endDescriptor, Device.doEndDesc_reports h hdrive hreport halign hended]
  case plan =>
    intro h hfolds hactive hflock hidle hentry group d
    rw [exec_plan, Device.doPlan_writes h hfolds hactive hflock hidle hentry]
    rfl
  case groupOpen =>
    intro g t h hleads hfree d htree d'
    rw [exec_groupOpen, Device.doGroupOpen_builds h hleads hfree htree]
  case groupClose =>
    intro h hleads hplans hnamed hlive
    rw [exec_groupClose, Device.doGroupClose_frees h hleads hplans hnamed hlive]

end Sys2Proof.Machine
end

section
/-!
Commands of a queue's head that may issue, checked at decode: CLEAR, RELEASE, MOVE, the drove commands, PRODUCT, SHEAR and
COLLECT (R141, R142, R167 to R172, R180 to R189, R217, R218, R340).
-/
namespace Sys2Proof.Machine

/-- A head whose done tally its drive may name goes into its slot, after its effect. -/
theorem Device.issue_done {d : Device} {i : Issue} {done : Nat} (hdone : d.doneOf i = some done) (n : Nat) (q : Queue)
    (p : Phase) (g : Device → Device) : d.issue n q i p g = (g d).enter n q (i.active n q done d p) := by
  simp only [Device.issue, hdone]

/-- An issue whose command has another body. -/
def Issue.withBody (i : Issue) (b : Body) : Issue := { i with c := { i.c with body := b } }

/-- A MOVE with its addresses adjusted for its slot (R177). -/
def Issue.moved (i : Issue) (m : Move) : Move :=
  { m with src := relLocal i.v i.c.rel i.slot m.src, dst := relLocal i.v i.c.rel i.slot m.dst }

/-- A FEED with its address adjusted for its slot (R177). -/
def Issue.fed (i : Issue) (f : Feed) : Feed := { f with base := relLocal i.v i.c.rel i.slot f.base }

/-- A PRODUCT with its addresses adjusted for its slot, but one whose lots give them (R177). -/
def Issue.multiplied (i : Issue) (p : Product) : Product :=
  if p.src = 2 then p else
    { p with abase := relWord i.v i.c.rel i.slot p.abase, bbase := relWord i.v i.c.rel i.slot p.bbase }

/-- Adjusted addresses leave a PRODUCT its source, its stream and the indices it feeds. -/
theorem Issue.multiplied_keeps (i : Issue) (p : Product) : (i.multiplied p).src = p.src ∧ (i.multiplied p).dir = p.dir ∧
    (i.multiplied p).sr = p.sr ∧ (i.multiplied p).lives = p.lives := by
  unfold Issue.multiplied
  split <;> exact ⟨rfl, rfl, rfl, rfl⟩

section issues
variable {d : Device} {n : Nat} {q : Queue} {i : Issue} {done : Nat} (hready : d.ready n q = some i)
  (hdone : d.doneOf i = some done)

/-! ## CLEAR, RELEASE and MOVE (R141, R142, R172, R184, R189) -/

include hdone in
/-- A MOVE's pieces begin; it runs on where parts of its transfer are still to arrive. -/
theorem Device.moveGo_done (m : Move) (es : List (Nat × Ecc)) :
    let x := d.movePiecesGo n i.f d.fabric.nextXfer done i.c.inc es (movePieces m) 0
    d.moveGo n q i m es =
      if x.2 = 0 then x.1.enter n q (i.active n q done x.1 .finished)
      else ({ x.1 with fabric := { x.1.fabric with
          nextXfer := d.fabric.nextXfer + 1
          xfers := sput x.1.fabric.xfers d.fabric.nextXfer
            ⟨i.f, some (n, i.s, (d.site n).seqr.nextId), done, i.c.inc, x.2, false⟩ } } : Device).enter n q
        (({ i with c := { i.c with inc := 0 } } : Issue).active n q done x.1 .running) := by
  simp only [Device.moveGo, hdone]
  rfl

include hready

theorem Device.doMove_begins {m : Move} (hbody : i.c.body = .move m) (hstatus : d.moveStatus i.f i.v (i.moved m) = 0)
    (es : List (Nat × Ecc)) :
    d.doMove n q es = d.moveGo n q (i.withBody (.move (i.moved m))) (i.moved m) es := by
  simp only [Device.doMove, hready, hbody]
  exact if_neg (not_not.mpr hstatus)

include hdone

/-- CLEAR or RELEASE acts at once on tiles that no earlier command still needs. -/
theorem Device.doTiles_acts {clear : Bool} {a b c : Nat}
    (hbody : i.c.body = if clear then .clear a b c else .release a b c) (hstatus : tilesStatus a b c = 0)
    (hfree : (d.site n).seqr.hazard q (d.site n).seqr.nextId (clearTiles a b c) = false) :
    d.doTiles n q clear = (d.onSite n (·.tilesAct clear (clearTiles a b c))).enter n q (i.active n q done d .finished) := by
  cases clear <;>
    simp only [Device.doTiles, hready, hbody, hstatus, hfree, ne_eq, not_true_eq_false, Bool.false_eq_true, if_false, if_true,
      Device.issue_done hdone]

/-! ## The drove commands (R185 to R188, R209) -/

/-- FEED opens its stream and runs. -/
theorem Device.doFeed_opens {f : Feed} (hbody : i.c.body = .feed f) (hstatus : d.feedStatus n i.f i.s i.v (i.fed f) = 0)
    (es : List (Nat × Ecc)) :
    d.doFeed n q es =
      (((d.onFold i.f fun o => { o with streams := o.streams ++ [(i.s, f.dir, f.stream)] }).enter n q
        ((i.withBody (.feed (i.fed f))).active n q done d .running)).withErrs n (d.site n).seqr.nextId es).settleAt n := by
  have hdone' : d.doneOf (i.withBody (.feed (i.fed f))) = some done := hdone
  simp only [Device.doFeed, hready, hbody]
  refine (if_neg (not_not.mpr hstatus)).trans ?_
  exact congrArg (fun e : Device => (e.withErrs n (d.site n).seqr.nextId es).settleAt n) (Device.issue_done hdone' n q _ _)

section lot
variable {l : Lot} (hbody : i.c.body = .lot l) (hp : l.p ≠ 0) (hpx : l.px ≤ l.p)
include hbody hp hpx

/-- A LOT but lot 0 waits in its slot. -/
theorem Device.doLot_waits (hg : l.g ≠ 0) (hhandle : d.handleStatus n i.v l.h false = 0) (es : List (Nat × Ecc)) :
    d.doLot n q es =
      ((d.enter n q (i.active n q done d .waiting)).withErrs n (d.site n).seqr.nextId es).settleAt n := by
  have hsizes : ¬(l.p = 0 ∨ l.p < l.px) := by omega
  simp only [Device.doLot, hready, hbody, hg, hsizes, hhandle, decide_false, ne_eq, not_true_eq_false, false_and, if_false,
    Device.issue_done hdone]

/-- Lot 0 opens its stream and waits in its slot. -/
theorem Device.doLot_opens (hg : l.g = 0) (hhandle : d.handleStatus n i.v l.h true = 0)
    (hextent : inExtent i.v (d.handleAddr n l.h) (l.p * 2176) = true)
    (hclosed : (d.fold i.f).streams.contains (i.s, Dir.sunwise, l.stream) = false) (es : List (Nat × Ecc)) :
    d.doLot n q es =
      ((((d.onFold i.f fun o => { o with streams := o.streams ++ [(i.s, Dir.sunwise, l.stream)] }).onDir n .sunwise
        (·.setPos ⟨i.s, l.stream, 0, none⟩)).enter n q (i.active n q done d .waiting)).withErrs n
          (d.site n).seqr.nextId es).settleAt n := by
  have hsizes : ¬(l.p = 0 ∨ l.p < l.px) := by omega
  simp only [Device.doLot, hready, hbody, hg, hsizes, hhandle, hextent, hclosed, decide_true, ne_eq, not_true_eq_false,
    Bool.not_true, Bool.false_eq_true, and_false, if_false, if_true, Device.issue_done hdone]

end lot

/-- LAND waits in its slot for its lots. -/
theorem Device.doLand_waits {l : Land} (hbody : i.c.body = .land l) (hc : l.c ≠ 0) (hmost : l.c ≤ 64)
    (htable : l.h0 + l.c - 1 < 4096) (hfirst : handleInExtent i.v l.h0 = true)
    (hlast : handleInExtent i.v (l.h0 + l.c - 1) = true) :
    d.doLand n q = (d.enter n q (i.active n q done d .waiting)).settleAt n := by
  have hcount : ¬(l.c = 0 ∨ 64 < l.c) := by omega
  simp only [Device.doLand, hready, hbody, hcount, Nat.not_le_of_lt htable, hfirst, hlast, Bool.not_true, Bool.false_eq_true,
    or_self, if_false, Device.issue_done hdone]
  rfl

/-! ## PRODUCT, SHEAR and COLLECT (R85, R169, R180, R182, R218, R340) -/

/-- A PRODUCT, as adjusted, goes into its array slot; a drove source notes it as the last to name its stream. -/
theorem Device.doProduct_enters {p g : Product} (hbody : i.c.body = .product p) (hg : i.multiplied p = g)
    (hstatus : productStatus i.v g = 0) :
    d.doProduct n q =
      ((if g.src = 0 then d.onSite n (Site.onSeqr · fun s =>
          { s with named := sput s.named ((if g.dir = .sunwise then 0 else 16) + g.sr) i.c.addr }) else d).enter n q
        ((i.withBody (.product g)).active n q done d
          (if g.src = 1 ∧ g.lives = [] then .finished else .running))).settleAt n := by
  subst hg
  have hdone' : d.doneOf (i.withBody (.product (i.multiplied p))) = some done := hdone
  simp only [Device.doProduct, hready, hbody]
  refine (if_neg (not_not.mpr hstatus)).trans ?_
  exact congrArg (fun e : Device => e.settleAt n) (Device.issue_done hdone' n q _ _)

/-- A SHEAR leaves its slot for a queue of its shears with room. -/
theorem Device.doShear_accepted {c : Shear} {a : Active} (hbody : i.c.body = .shear c) (hstatus : d.shearStatus i.v c = 0)
    (hslot : ((d.enter n q (i.active n q done d .waiting)).site n).seqr.slotAt q .sync 0 = some a)
    (hroom : (d.enter n q (i.active n q done d .waiting)).shears.room c = true) :
    d.doShear n q = (d.enter n q (i.active n q done d .waiting)).acceptShear n a c := by
  simp only [Device.doShear, hready, hbody, hstatus, ne_eq, not_true_eq_false, if_false, Device.issue_done hdone, id_eq, hslot,
    hroom, if_true]

/-- A COLLECT leaves its slot for the collective engine with room. -/
theorem Device.doCollect_accepted {c : Collect} {a : Active} (hbody : i.c.body = .collect c)
    (hstatus : d.collectStatus i.f i.v i.c.rel i.slot c = 0)
    (hslot : ((d.enter n q (i.active n q done d .waiting)).site n).seqr.slotAt q .sync 0 = some a)
    (hroom : (d.enter n q (i.active n q done d .waiting)).coll.queue.length < 16) :
    d.doCollect n q = (d.enter n q (i.active n q done d .waiting)).acceptCollect n a c := by
  simp only [Device.doCollect, hready, hbody, hstatus, ne_eq, not_true_eq_false, if_false, Device.issue_done hdone, id_eq,
    hslot, hroom, if_true]

end issues

/-- Settles O13: the tiles and the MOVE, then the drove commands, then PRODUCT, SHEAR and COLLECT. -/
theorem tileMoveAndDroveCommandsComplete : Obligations.TileMoveAndDroveCommandsComplete := by
  unfold Obligations.TileMoveAndDroveCommandsComplete
  refine ⟨fun s n q i done hready hdone => ⟨?clear, ?release, ?move⟩,
    fun s n q i done es hready hdone => ⟨?feed, ?lot, ?lot0, ?land⟩,
    fun s n q i done hready hdone => ⟨?product, ?shear, ?collect⟩⟩
  case clear =>
    intro a b c hbody hstatus hfree
    rw [exec_clear, Device.doTiles_acts hready hdone (clear := true) hbody hstatus hfree]
    rfl
  case release =>
    intro a b c hbody hstatus hfree
    rw [exec_release, Device.doTiles_acts hready hdone (clear := false) hbody hstatus hfree]
    rfl
  case move =>
    intro m es hbody m' hstatus c part x
    have hdone' : s.dev.doneOf (i.withBody (.move (i.moved m))) = some done := hdone
    rw [exec_move, Device.doMove_begins hready hbody hstatus, Device.moveGo_done hdone']
    rfl
  case feed =>
    intro f hbody g hstatus
    rw [exec_feed, Device.doFeed_opens hready hdone hbody hstatus]
    rfl
  case lot =>
    intro l hbody hp hpx hg hhandle
    rw [exec_lot, Device.doLot_waits hready hdone hbody hp hpx hg hhandle]
  case lot0 =>
    intro l hbody hp hpx hg hhandle hextent hclosed
    rw [exec_lot, Device.doLot_opens hready hdone hbody hp hpx hg hhandle hextent hclosed]
  case land =>
    intro l hbody hc hmost htable hfirst hlast
    rw [exec_land, Device.doLand_waits hready hdone hbody hc hmost htable hfirst hlast]
  case product =>
    intro p hbody g hstatus d
    obtain ⟨hsrc, hdir, hsr, hlives⟩ := i.multiplied_keeps p
    rw [exec_product, Device.doProduct_enters hready hdone hbody rfl hstatus, hsrc, hdir, hsr, hlives]
    simp only [d, ite_not]
    rfl
  case shear =>
    intro c a hbody hstatus d hslot hroom
    rw [exec_shear, Device.doShear_accepted hready hdone hbody hstatus hslot hroom]
  case collect =>
    intro c a hbody hstatus d hslot hroom
    rw [exec_collect, Device.doCollect_accepted hready hdone hbody hstatus hslot hroom]

end Sys2Proof.Machine
end

section
/-!
What an engine does at a pen: a finished command retires, and a tile step commits (R57, R85, R116 to R119, R147, R155, R166,
R171, R180 to R183, R202).
-/
namespace Sys2Proof.Machine

/-- A finished command leaves its slot. -/
theorem Device.doCompletion_finished {d : Device} {n : Nat} {q : Queue} {e : Engine} {k : Nat} {a : Active}
    (hslot : (d.site n).seqr.slotAt q e k = some a) (hphase : a.phase = .finished) :
    d.doCompletion n q e k = (d.retireAct n a).settleAt n := by
  simp only [Device.doCompletion, hslot, hphase, if_true]

/-! ## Reads without poison (R147, R155) -/

theorem Site.padBad_clean {t : Site} (hpoison : t.poison = []) (a n : Nat) : t.padBad a n = [] := by
  simp [Site.padBad, hpoison]

theorem OpSize.bad_clean {t : Site} (hpoison : t.poison = []) (o : OpSize) (w : Nat) : o.bad t w = [] := by
  simp [OpSize.bad, Site.padBad_clean hpoison]

theorem Device.accPoison_clean {d : Device} {n : Nat} (hbad : (d.site n).badRows = []) (addr : Nat) (tiles : List Nat)
    (rows : Nat) : d.accPoison n addr tiles rows = none := if_pos hbad

/-! ## TILE_STEP (R57, R85, R116 to R119, R180 to R183, R539) -/

/-- Accumulator tiles of a tile step. -/
def Product.stepTiles (p : Product) (w : StepAt) : List Nat :=
  (if p.comp then [w.re, w.re + 1] else [w.re]) ++
    (if p.cplx = 0 then [] else if p.comp then [w.im, w.im + 1] else [w.im])

/-- Ring tiles of the operand tiles that a tile step takes from its drove stream. -/
def Product.stepRings (p : Product) (u : Site) : List (List RingTile) :=
  if p.src = 0 then (u.node.unused p.dir p.sr).take (if p.cplx = 0 then 1 else 2) else []

/-- Operand blocks of a tile step at a site, from one place or from two lots (R116). -/
def Product.stepBlocks (p : Product) (u : Site) (fa fb : Fmt) (ws : List StepAt) : Blocks :=
  let kn := contraction fa fb
  let kl := if p.src = 2 then 32 else kn
  let ao := p.aSize fa kl
  let bo := p.bSize fb kl
  let av := (List.range ao.planes).map fun k => ws.map fun w => ao.get u w.a k
  let bv := if p.src = 0 then (p.stepRings u).map fun r => [joinTile r]
    else (List.range bo.planes).map fun k => ws.map fun w => bo.get u w.b k
  ⟨av.map fun l => joinRows kn (l.map fun x => if p.atr then aBlockT fa p.ascl kl x.1 x.2 else aBlock fa p.ascl kl x.1 x.2),
    bv.map fun l => joinRows kn (l.map fun x => bTile fb p.bscl kl x.1 x.2)⟩

/-- A tile step of a command may add to tiles that no other queue owns (R119). -/
def Site.mayAdd (u : Site) (q : Queue) (k : Nat) : Bool :=
  !u.live.contains k || match slook u.owner k with | some o => o = q | none => true

/-- A site whose drove tiles and accumulator tiles a tile step may take, without poison in its paddock and accumulators. -/
structure Site.Feeds (u : Site) (a : Active) (p : Product) (w : StepAt) : Prop where
  poison : u.poison = []
  badRows : u.badRows = []
  scales : (p.atr && p.ascl) = false
  tiles : (p.stepTiles w).all (u.mayAdd a.q) = true
  rings : (p.stepRings u).flatten.all (fun r => !p.wrongTag r && r.poison.isEmpty) = true

/-- What a tile step leaves at its site (R119, R180). -/
def Product.stepSite (p : Product) (fa fb : Fmt) (q : Queue) (w : StepAt) (o : Blocks) (x : Site) : Site :=
  { (p.stepTiles w).foldl (fun x k => x.own k q) (x.tileProducts p fa fb w.mask w.re w.im o) with inRow := 0, replay := none }

section feeds
variable {u : Site} {a : Active} {p : Product} {w : StepAt} (h : u.Feeds a p w)
include h

/-- No tile of the step is another queue's. -/
theorem Site.Feeds.unowned : ((p.stepTiles w).any fun k => u.live.contains k &&
    match slook u.owner k with | some o => o ≠ a.q | none => false) = false := by
  rw [List.any_eq_false]
  intro k hk
  have hmay := List.all_eq_true.mp h.tiles k hk
  rw [Site.mayAdd] at hmay
  cases howner : slook u.owner k with
  | none => simp
  | some o =>
    rw [howner] at hmay
    by_cases ho : o = a.q <;> simp_all

theorem Site.Feeds.tagged : (p.stepRings u).flatten.any p.wrongTag = false := by
  rw [List.any_eq_false]
  intro r hr
  have htile := List.all_eq_true.mp h.rings r hr
  simp_all

theorem Site.Feeds.unpoisoned : (p.stepRings u).flatten.flatMap (·.poison) = [] := by
  rw [List.flatMap_eq_nil_iff]
  intro r hr
  have htile := List.all_eq_true.mp h.rings r hr
  simp_all

end feeds

/-- A tile step with its operands read clean commits. -/
theorem Device.stepGo_commits {d : Device} {n : Nat} {a : Active} {p : Product} {ws : List StepAt}
    (hfeeds : (d.site n).Feeds a p (ws.headD ⟨0, 0, 0, 0, 0⟩)) (fa fb : Fmt) (t : Nat) :
    d.stepGo n a p fa fb t ws .none =
      (d.onSite n (p.stepSite fa fb a.q (ws.headD ⟨0, 0, 0, 0, 0⟩) (p.stepBlocks (d.site n) fa fb ws))).advance
        n a p t ws.length := by
  have hreads (ao bo : OpSize) : (ws.flatMap fun w => ao.bad (d.site n) w.a ++
      if p.src = 0 then [] else bo.bad (d.site n) w.b) = [] := by
    simp [OpSize.bad_clean hfeeds.poison]
  have hscales (b : Prop) : ¬(p.atr = true ∧ p.ascl = true ∧ b) := fun ⟨hatr, hascl, _⟩ => by
    simpa [hatr, hascl] using hfeeds.scales
  unfold Device.stepGo
  extract_lets s w kn kl re im tiles k rings
  have hrings : rings.flatten.flatMap (·.poison) = [] := hfeeds.unpoisoned
  refine (if_neg (ne_true_of_eq_false hfeeds.unowned)).trans ?_
  refine (if_neg (ne_true_of_eq_false hfeeds.tagged)).trans ?_
  simp only [Device.readErr, Bool.false_eq_true, if_false, Device.accPoison_clean hfeeds.badRows, s, hreads, Device.readPoison,
    hrings]
  exact if_neg (hscales _)

/-- A change of a site's sequencer leaves what a tile step takes. -/
theorem Site.Feeds.onSeqr {u : Site} {a : Active} {p : Product} {w : StepAt} (h : u.Feeds a p w) (g : Seqr → Seqr) :
    (u.onSeqr g).Feeds a p w := ⟨h.poison, h.badRows, h.scales, h.tiles, h.rings⟩

/-- A change of an active command changes the sequencer of its site alone. -/
theorem Device.site_onAct (d : Device) (n id : Nat) (g : Active → Active) :
    ∃ g', (d.onAct n id g).site n = (d.site n).onSeqr g' := by
  rw [Device.onAct, Device.site_onSite]
  split
  · exact ⟨_, rfl⟩
  · exact ⟨fun s => s, rfl⟩

/-- Lots at the head of the race of a lot-source PRODUCT, as its next tile step takes them (R116, R183). -/
def Device.lotsOf (d : Device) (n : Nat) (v : Drive) (a : Active) (p : Product) : List (Nat × Nat × Nat) :=
  (List.range (p.lotsAt a.i)).map (d.lotAt n v a p)

/-- A tile step whose lots are good and in order takes them. -/
theorem Device.lotGo_takes {d : Device} {n : Nat} {v : Drive} {a : Active} {p : Product} {fa fb : Fmt}
    (hlots : (d.lotsOf n v a p).all (fun l => l.1 = 0 && p.addresses v fa fb 32 (l.2.1 + p.abase) (l.2.1 + p.bbase)) = true)
    (t : Nat) (err : ReadErr) :
    d.lotGo n v a p fa fb t err =
      (d.onAct n a.id fun b => { b with lot0 := (d.lotsOf n v a p).head?.map (·.2.2) }).stepGo n a p fa fb t
        ((d.lotsOf n v a p).map fun l => p.at a.i t l.2.1) err := by
  have hgood : (d.lotsOf n v a p).find? (·.1 ≠ 0) = none := by
    rw [List.find?_eq_none]
    intro l hl
    have hlot := List.all_eq_true.mp hlots l hl
    simp_all
  have hinside : (d.lotsOf n v a p).any (fun l => !p.addresses v fa fb 32 (l.2.1 + p.abase) (l.2.1 + p.bbase)) = false := by
    rw [List.any_eq_false]
    intro l hl
    have hlot := List.all_eq_true.mp hlots l hl
    simp_all
  unfold Device.lotGo
  extract_lets ls
  have hls : ls = d.lotsOf n v a p := rfl
  simp only [hls, hgood, hinside, Bool.false_eq_true, if_false]
  rfl

/-- Where a tile step reads: at its PRODUCT's place, or at the lots it takes. -/
def Device.stepPlaces (d : Device) (n : Nat) (v : Drive) (a : Active) (p : Product) (t : Nat) : List StepAt :=
  if p.src = 2 then (d.lotsOf n v a p).map (fun l => p.at a.i t l.2.1) else [p.at a.i t 0]

/-- The index that a lot-source PRODUCT's lots count from is noted with its first lot (R183). -/
def Device.noteLot (d : Device) (n : Nat) (v : Drive) (a : Active) (p : Product) : Device :=
  if p.src = 2 then d.onAct n a.id fun b => { b with lot0 := (d.lotsOf n v a p).head?.map (·.2.2) } else d

/-- The tile step that enters commits, from its PRODUCT's operands. -/
theorem Device.doTileStep_commits {d : Device} {n : Nat} {v : Drive} {a : Active} {p : Product} {fa fb : Fmt} {t : Nat}
    (hentering : d.entering n = some (v, a)) (hbody : a.cmd.body = .product p) (hfa : Fmt.ofCode p.afmt = some fa)
    (hfb : Fmt.ofCode p.bfmt = some fb) (hnext : p.nextT a.t = some t)
    (hlots : p.src = 2 → (d.lotsOf n v a p).all (fun l =>
      l.1 = 0 && p.addresses v fa fb 32 (l.2.1 + p.abase) (l.2.1 + p.bbase)) = true)
    (hfeeds : (d.site n).Feeds a p ((d.stepPlaces n v a p t).headD ⟨0, 0, 0, 0, 0⟩)) :
    d.doTileStep n .none =
      ((d.noteLot n v a p).onSite n (p.stepSite fa fb a.q ((d.stepPlaces n v a p t).headD ⟨0, 0, 0, 0, 0⟩)
        (p.stepBlocks (d.site n) fa fb (d.stepPlaces n v a p t)))).advance n a p t (d.stepPlaces n v a p t).length := by
  simp only [Device.doTileStep, hentering, hbody, hfa, hfb, hnext]
  by_cases hsrc : p.src = 2
  · obtain ⟨g, hsite⟩ := d.site_onAct n a.id fun b => { b with lot0 := (d.lotsOf n v a p).head?.map (·.2.2) }
    have hplaces : d.stepPlaces n v a p t = (d.lotsOf n v a p).map fun l => p.at a.i t l.2.1 := if_pos hsrc
    have hnote : d.noteLot n v a p = _ := if_pos hsrc
    rw [hplaces] at hfeeds ⊢
    rw [if_pos hsrc, Device.lotGo_takes (hlots hsrc), Device.stepGo_commits (hsite ▸ hfeeds.onSeqr g), hsite, hnote]
    rfl
  · have hplaces : d.stepPlaces n v a p t = [p.at a.i t 0] := if_neg hsrc
    have hnote : d.noteLot n v a p = d := if_neg hsrc
    rw [hplaces] at hfeeds ⊢
    rw [if_neg hsrc, Device.stepGo_commits hfeeds, hnote]

end Sys2Proof.Machine
end

section
/-!
The vector unit on a VOP that is alone in it: tile by tile to its end (R168, R172, R190, R192, R193, R195).
-/
namespace Sys2Proof.Machine

/-! ## Active commands of a sequencer -/

/-- A change of active commands that leaves them in their slots, with their numbers. -/
def Active.staysPut (g : Active → Active) : Prop :=
  ∀ a, (g a).q = a.q ∧ (g a).e = a.e ∧ (g a).k = a.k ∧ (g a).id = a.id

/-- The command in a slot after a change of the commands with a number. -/
theorem Seqr.slotAt_onAct (s : Seqr) (id : Nat) {g : Active → Active} (hg : Active.staysPut g) (q : Queue) (e : Engine)
    (k : Nat) : (s.onAct id g).slotAt q e k = (s.slotAt q e k).map fun a => if a.id = id then g a else a := by
  simp only [Seqr.slotAt, Seqr.onAct, List.find?_map]
  congr 2
  funext a
  obtain ⟨hq, he, hk, -⟩ := hg a
  simp only [Function.comp_apply]
  split <;> simp only [hq, he, hk]

/-- A change of the commands with a number is no hazard to a command with that number (R172). -/
theorem Seqr.hazard_onAct (s : Seqr) (id : Nat) {g : Active → Active} (hg : Active.staysPut g) (q : Queue)
    (tiles : List Nat) : (s.onAct id g).hazard q id tiles = s.hazard q id tiles := by
  simp only [Seqr.hazard, Seqr.onAct, List.any_map]
  congr 1
  funext a
  obtain ⟨-, -, -, hid⟩ := hg a
  simp only [Function.comp_apply]
  split
  · next h => simp [hid, h]
  · rfl

/-- Changes of the commands with a number, one after the other. -/
theorem Seqr.onAct_onAct (s : Seqr) (id : Nat) {g : Active → Active} (hg : Active.staysPut g) (g' : Active → Active) :
    (s.onAct id g).onAct id g' = s.onAct id fun a => g' (g a) := by
  simp only [Seqr.onAct, List.map_map]
  congr 2
  funext a
  obtain ⟨-, -, -, hid⟩ := hg a
  simp only [Function.comp_apply]
  by_cases h : a.id = id <;> simp [h, hid]

/-- Changes of a site, one after the other. -/
theorem Device.onSite_onSite (d : Device) (n : Nat) (f g : Site → Site) :
    (d.onSite n f).onSite n g = d.onSite n fun t => g (f t) := by
  simp [Device.onSite, List.modify_modify_eq, Function.comp_def]

/-! ## What the tiles of a VOP change at their site -/

theorem Site.freshTile_onSeqr (t : Site) (k : Nat) (f : Seqr → Seqr) :
    (t.onSeqr f).freshTile k = (t.freshTile k).onSeqr f := by
  by_cases hbad : t.badRows = []
  · rw [Site.freshTile, Site.freshTile, if_pos hbad]
    exact if_pos hbad
  · rw [Site.freshTile, Site.freshTile, if_neg hbad]
    exact if_neg hbad

theorem Site.padWrite_onSeqr (t : Site) (a : Nat) (bs : List Byte) (bad : List (Nat × Nat)) (f : Seqr → Seqr) :
    (t.onSeqr f).padWrite a bs bad = (t.padWrite a bs bad).onSeqr f := by
  by_cases hclearing : t.clearing = true
  · rw [Site.padWrite, Site.padWrite, if_pos hclearing]
    exact if_pos hclearing
  · rw [Site.padWrite, Site.padWrite, if_neg hclearing]
    exact if_neg hclearing

/-- A tile of a VOP has no part in its site's sequencer. -/
theorem Vop.tileGo_onSeqr (o : Vop) (g : DrawBase) (h : Nat) (f : Seqr → Seqr) (t : Site) (j : Nat) :
    o.tileGo g h (t.onSeqr f) j = (o.tileGo g h t j).onSeqr f := by
  have hresults : o.results g (t.onSeqr f) h j = o.results g t h j := rfl
  unfold Vop.tileGo
  rw [hresults]
  extract_lets ds k
  by_cases hacc : o.dkind = 0
  · rw [if_pos hacc, if_pos hacc, Site.freshTile_onSeqr]
    split <;> rfl
  · rw [if_neg hacc, if_neg hacc]
    split
    · rfl
    · simp only [Site.padWrite_onSeqr]
      rfl

/-- A tile at a site without poison changes accumulators, paddock and the count of lost NaNs alone. -/
theorem Vop.tileGo_eq (o : Vop) (g : DrawBase) (h : Nat) {t : Site} (hpoison : t.poison = []) (hbad : t.badRows = [])
    (j : Nat) : ∃ ac li pa ve pm lo, o.tileGo g h t j =
      { t with acc := ac, live := li, pad := pa, veil := ve, poisonMem := pm, lostNan := lo } := by
  unfold Vop.tileGo
  extract_lets ds k
  split
  · split
    · exact ⟨_, _, _, _, _, _, rfl⟩
    · rw [Site.freshTile, if_pos hbad]
      exact ⟨_, _, _, _, _, _, rfl⟩
  · split
    · exact ⟨_, _, _, _, _, _, rfl⟩
    · simp only [Site.padWrite]
      split
      · exact ⟨_, _, _, _, _, _, rfl⟩
      · simp only [hpoison]
        exact ⟨_, _, _, _, _, _, rfl⟩

/-- A tile leaves its site where it is. -/
theorem Vop.tileGo_seat (o : Vop) (g : DrawBase) (h : Nat) (t : Site) (j : Nat) : (o.tileGo g h t j).seat = t.seat := by
  unfold Vop.tileGo
  extract_lets ds k
  split
  · split
    · rfl
    · rw [Site.freshTile]
      split <;> rfl
  · split
    · rfl
    · simp only [Site.padWrite]
      split <;> rfl

/-- Tiles of a VOP from one on, the last of which pops the race that it takes its operands from (R195). -/
def Vop.tilesGo (o : Vop) (g : DrawBase) (h i k : Nat) (t : Site) : Site :=
  let t := (List.range' i k).foldl (o.tileGo g h) t
  if o.sources.any (·.1 = 3) && o.pop then t.popRace o.race else t

theorem Vop.tilesGo_succ (o : Vop) (g : DrawBase) (h i k : Nat) (t : Site) :
    o.tilesGo g h i (k + 1) t = o.tilesGo g h (i + 1) k (o.tileGo g h t i) := rfl

theorem Vop.tilesGo_zero (o : Vop) (g : DrawBase) (h k : Nat) : o.tilesGo g h 0 k = fun t =>
    let t := (List.range k).foldl (o.tileGo g h) t
    if o.sources.any (·.1 = 3) && o.pop then t.popRace o.race else t := by
  funext t
  rw [List.range_eq_range']
  rfl

theorem Vop.tilesGo_onSeqr (o : Vop) (g : DrawBase) (h i k : Nat) (t : Site) (f : Seqr → Seqr) :
    o.tilesGo g h i k (t.onSeqr f) = (o.tilesGo g h i k t).onSeqr f := by
  induction k generalizing i t with
  | zero =>
    simp only [Vop.tilesGo, List.range'_zero, List.foldl_nil]
    split <;> rfl
  | succ k ih => rw [Vop.tilesGo_succ, Vop.tilesGo_succ, Vop.tileGo_onSeqr, ih]

/-! ## A VOP in the vector unit -/

/-- The other queue. -/
def otherQueue (q : Queue) : Queue := if q = .fwd then .bwd else .fwd

/-- The handle at the head of a VOP's race. -/
def Site.headOf (t : Site) (o : Vop) : Nat := ((t.race o.race).headD 0#32).toNat

/-- The address of the handle that a VOP takes operands at. -/
def Device.headAddr (d : Device) (n : Nat) (o : Vop) : Nat :=
  if o.sources.any (·.1 = 3) then d.handleAddr n ((d.site n).headOf o) else 0

/-- A VOP in a queue's slot that is alone in the vector unit and ready, at a site without poison, its handle good. -/
structure Device.VopRuns (d : Device) (n : Nat) (q : Queue) (v : Drive) (a : Active) (o : Vop) : Prop where
  goes : (d.goes n).map (·.2) = some v
  slot : (d.site n).seqr.slotAt q .vector 0 = some a
  alone : (d.site n).seqr.slotAt (otherQueue q) .vector 0 = none
  body : a.cmd.body = .vop o
  unfinished : a.phase ≠ .finished
  ready : d.vopReady n q a.id o = true
  handle : o.sources.any (·.1 = 3) = true → d.handleStatus n v ((d.site n).headOf o) true = 0
  poison : (d.site n).poison = []
  badRows : (d.site n).badRows = []

/-- A command that has passed on by tiles of its work into a phase. -/
def Active.passed (k : Nat) (p : Phase) (a : Active) : Active := { a with i := a.i + k, phase := p }

theorem Active.passed_staysPut (k : Nat) (p : Phase) : Active.staysPut (Active.passed k p) := fun _ => ⟨rfl, rfl, rfl, rfl⟩

/-- Every paddock byte that a VOP reads lies in its drive's extent. -/
def Vop.readsInside (o : Vop) (v : Drive) (ha : Nat) : Bool :=
  ((List.range o.count).flatMap (o.reads ha)).all fun r => inExtent v r.1 r.2

section runs
variable {d : Device} {n : Nat} {q : Queue} {v : Drive} {a : Active} {o : Vop}

theorem Device.VopRuns.nextVop (h : d.VopRuns n q v a o) : d.nextVop n = some (a, o) := by
  obtain ⟨-, hslot, halone, hbody, hunfinished, hready, -, -, -⟩ := h
  cases q with
  | fwd =>
    have halone' : (d.site n).seqr.slotAt .bwd .vector 0 = none := halone
    simp [Device.nextVop, hslot, halone', hbody, hunfinished, hready]
  | bwd => simp [Device.nextVop, hslot, hbody, hunfinished, hready]

/-- A command is in a slot of a site that there is. -/
theorem Device.VopRuns.site_lt (h : d.VopRuns n q v a o) : n < d.sites.length := by
  by_contra hn
  have hnone : d.site n = .reset := List.getD_eq_default _ _ (Nat.le_of_not_lt hn)
  have hslot := h.slot
  rw [hnone] at hslot
  exact absurd hslot (by simp [Site.reset, Seqr.slotAt, Seqr.empty])

/-- What the vector unit draws from for the VOP. -/
def Device.drawsOf (d : Device) (n : Nat) (v : Drive) (a : Active) : DrawBase := v.drawBase (d.penOf n) a.id

/-- One tile of a VOP, read clean. -/
theorem Device.VopRuns.vopTile (h : d.VopRuns n q v a o) (hinside : a.i = 0 → o.readsInside v (d.headAddr n o) = true) :
    d.vopTile n v a o .none =
      let last := a.i + 1 = o.count
      let e := (d.onSite n fun t =>
        let t := o.tileGo (d.drawsOf n v a) (d.headAddr n o) t a.i
        if decide last && o.sources.any (·.1 = 3) && o.pop then t.popRace o.race else t).onAct n a.id
          (Active.passed 1 (if last then .finished else .running))
      if last then e.settleAt n else e := by
  have hhandle : ¬(if o.sources.any (·.1 = 3) then d.handleStatus n v ((d.site n).headOf o) true else 0) ≠ 0 := by
    split
    · next hheads => simp [h.handle hheads]
    · simp
  have hreads : ¬(a.i = 0 ∧ ((List.range o.count).flatMap (o.reads (d.headAddr n o))).any
      (fun r => !inExtent v r.1 r.2) = true) := by
    rintro ⟨hfirst, hout⟩
    obtain ⟨r, hr, hrout⟩ := List.any_eq_true.mp hout
    have hrin := List.all_eq_true.mp (hinside hfirst) r hr
    simp [hrin] at hrout
  unfold Device.vopTile
  extract_lets t heads hd st ha
  refine (if_neg hhandle).trans ((if_neg hreads).trans ?_)
  simp only [Device.readErr, Bool.false_eq_true, if_false, Device.accPoison_clean h.badRows, t, h.poison, if_true,
    Device.readPoison]
  rfl

/-- The last tile of a VOP finishes it. -/
theorem Device.VopRuns.vopTile_last (h : d.VopRuns n q v a o) (hinside : a.i = 0 → o.readsInside v (d.headAddr n o) = true)
    (hlast : a.i + 1 = o.count) : d.vopTile n v a o .none =
      ((d.onSite n (o.tilesGo (d.drawsOf n v a) (d.headAddr n o) a.i 1)).onAct n a.id (.passed 1 .finished)).settleAt n := by
  rw [h.vopTile hinside]
  simp only [hlast, decide_true, Bool.true_and, if_true]
  rfl

/-- The device after a tile of a VOP that is not its last. -/
def Device.afterTile (d : Device) (n : Nat) (v : Drive) (a : Active) (o : Vop) : Device :=
  (d.onSite n fun t => o.tileGo (d.drawsOf n v a) (d.headAddr n o) t a.i).onAct n a.id (.passed 1 .running)

/-- Any other tile leaves it running. -/
theorem Device.VopRuns.vopTile_next (h : d.VopRuns n q v a o) (hinside : a.i = 0 → o.readsInside v (d.headAddr n o) = true)
    (hnext : a.i + 1 ≠ o.count) : d.vopTile n v a o .none = d.afterTile n v a o := by
  rw [h.vopTile hinside]
  simp only [hnext, decide_false, Bool.false_and, Bool.false_eq_true, if_false]
  rfl

/-- A tile leaves the races, the handles and the cleanness of its site, and the command passes on by it. -/
theorem Device.VopRuns.site_afterTile (h : d.VopRuns n q v a o) :
    ((d.afterTile n v a o).site n).seqr = (d.site n).seqr.onAct a.id (.passed 1 .running) ∧
    ((d.afterTile n v a o).site n).races = (d.site n).races ∧ ((d.afterTile n v a o).site n).handle = (d.site n).handle ∧
    ((d.afterTile n v a o).site n).poison = [] ∧ ((d.afterTile n v a o).site n).badRows = [] := by
  obtain ⟨ac, li, pa, ve, pm, lo, htile⟩ := o.tileGo_eq (d.drawsOf n v a) (d.headAddr n o) h.poison h.badRows a.i
  have hsite : (d.afterTile n v a o).site n = (o.tileGo (d.drawsOf n v a) (d.headAddr n o) (d.site n) a.i).onSeqr
      (Seqr.onAct · a.id (.passed 1 .running)) := by
    rw [Device.afterTile, Device.onAct, Device.onSite_onSite, Device.site_onSite, if_pos ⟨rfl, h.site_lt⟩]
  rw [hsite, htile]
  exact ⟨rfl, rfl, rfl, h.poison, h.badRows⟩

/-- A tile leaves its site where it is. -/
theorem Device.afterTile_eq (d : Device) (n : Nat) (v : Drive) (a : Active) (o : Vop) :
    ∃ g : Site → Site, (∀ t, (g t).seat = t.seat) ∧ d.afterTile n v a o = d.onSite n g :=
  ⟨fun t => (o.tileGo (d.drawsOf n v a) (d.headAddr n o) t a.i).onSeqr (Seqr.onAct · a.id (.passed 1 .running)),
    fun t => o.tileGo_seat (d.drawsOf n v a) (d.headAddr n o) t a.i, d.onSite_onSite n _ _⟩

theorem Device.VopRuns.headAddr_afterTile (h : d.VopRuns n q v a o) : (d.afterTile n v a o).headAddr n o = d.headAddr n o := by
  obtain ⟨-, hraces, hhandles, -, -⟩ := h.site_afterTile
  simp only [Device.headAddr, Device.handleAddr, Site.headOf, Site.race, hraces, hhandles]

theorem Device.drawsOf_afterTile : (d.afterTile n v a o).drawsOf n v (a.passed 1 .running) = d.drawsOf n v a := by
  obtain ⟨g, hseat, heq⟩ := d.afterTile_eq n v a o
  rw [heq, Device.drawsOf, d.penOf_onSite n hseat]
  rfl

/-- After a tile the VOP runs on. -/
theorem Device.VopRuns.afterTile (h : d.VopRuns n q v a o) :
    (d.afterTile n v a o).VopRuns n q v (a.passed 1 .running) o := by
  obtain ⟨hseqr, hraces, hhandles, hpoison, hbad⟩ := h.site_afterTile
  obtain ⟨g, hseat, heq⟩ := d.afterTile_eq n v a o
  have hput := Active.passed_staysPut 1 .running
  refine ⟨?goes, ?slot, ?alone, h.body, by simp [Active.passed], ?ready, ?handle, hpoison, hbad⟩
  case goes => rw [heq, d.goes_onSite n hseat, h.goes]
  case slot => rw [hseqr, Seqr.slotAt_onAct _ _ hput, h.slot, Option.map_some, if_pos rfl]
  case alone => rw [hseqr, Seqr.slotAt_onAct _ _ hput, h.alone, Option.map_none]
  case ready =>
    have hready := h.ready
    simp only [Device.vopReady, Site.race, hseqr, hraces] at hready ⊢
    rw [← hready]
    exact congrArg (fun b => !b && _) (Seqr.hazard_onAct _ _ hput q o.tiles)
  case handle =>
    intro hheads
    have hhandle := h.handle hheads
    simp only [Device.handleStatus, Site.headOf, Site.race, hraces, hhandles] at hhandle ⊢
    exact hhandle

/-- The tiles after a tile, and with them the VOP's progress, add up. -/
theorem Device.tilesGo_afterTile (k : Nat) :
    ((d.afterTile n v a o).onSite n (o.tilesGo (d.drawsOf n v a) (d.headAddr n o) (a.i + 1) k)).onAct n a.id
        (.passed k .finished) =
      (d.onSite n (o.tilesGo (d.drawsOf n v a) (d.headAddr n o) a.i (k + 1))).onAct n a.id (.passed (k + 1) .finished) := by
  have hpassed : (fun b => Active.passed k .finished (Active.passed 1 .running b)) = .passed (k + 1) .finished := by
    funext b
    simp only [Active.passed, Nat.add_assoc, Nat.add_comm 1 k]
  simp only [Device.afterTile, Device.onAct, Device.onSite_onSite, Vop.tilesGo_onSeqr, Vop.tilesGo_succ]
  simp only [Site.onSeqr, Seqr.onAct_onAct _ _ (Active.passed_staysPut 1 .running), hpassed]

/-- The vector unit on a VOP: a tile, and the rest unless it was the last. -/
theorem Device.VopRuns.vopGo_succ (h : d.VopRuns n q v a o) (fuel : Nat) :
    Device.vopGo (fuel + 1) d n a.id .none =
      if a.i + 1 = o.count then d.vopTile n v a o .none else Device.vopGo fuel (d.vopTile n v a o .none) n a.id .none := by
  obtain ⟨⟨k, v'⟩, hgoes, rfl⟩ := Option.map_eq_some_iff.mp h.goes
  rw [Device.vopGo]
  simp only [hgoes, h.nextVop, true_and, if_true]

end runs

/-- The vector unit works on a VOP that is alone in it until its last tile. -/
theorem Device.VopRuns.vopGo_finishes {d : Device} {n : Nat} {q : Queue} {v : Drive} {a : Active} {o : Vop}
    (h : d.VopRuns n q v a o) {left fuel : Nat} (hleft : a.i + (left + 1) = o.count) (hfuel : left < fuel)
    (hinside : a.i = 0 → o.readsInside v (d.headAddr n o) = true) :
    Device.vopGo fuel d n a.id .none =
      ((d.onSite n (o.tilesGo (d.drawsOf n v a) (d.headAddr n o) a.i (left + 1))).onAct n a.id
        (.passed (left + 1) .finished)).settleAt n := by
  induction left generalizing d a fuel with
  | zero =>
    obtain ⟨fuel, rfl⟩ : ∃ m, fuel = m + 1 := ⟨fuel - 1, by omega⟩
    rw [h.vopGo_succ, if_pos hleft, h.vopTile_last hinside hleft]
  | succ left ih =>
    obtain ⟨fuel, rfl⟩ : ∃ m, fuel = m + 1 := ⟨fuel - 1, by omega⟩
    have hnext : a.i + 1 ≠ o.count := by omega
    have hrest : (a.passed 1 .running).i + (left + 1) = o.count := by
      simp only [Active.passed]
      omega
    have hfirst : (a.passed 1 .running).i = 0 → o.readsInside v ((d.afterTile n v a o).headAddr n o) = true :=
      fun hi => absurd hi (Nat.succ_ne_zero a.i)
    calc Device.vopGo (fuel + 1) d n a.id .none
        = Device.vopGo fuel (d.afterTile n v a o) n (a.passed 1 .running).id .none := by
          rw [h.vopGo_succ, if_neg hnext, h.vopTile_next hinside hnext]
          rfl
      _ = (((d.afterTile n v a o).onSite n (o.tilesGo (d.drawsOf n v a) (d.headAddr n o) (a.i + 1) (left + 1))).onAct n a.id
            (.passed (left + 1) .finished)).settleAt n := by
          rw [ih h.afterTile hrest (by omega) hfirst, Device.drawsOf_afterTile, h.headAddr_afterTile]
          rfl
      _ = _ := by rw [Device.tilesGo_afterTile]

/-- A VOP in its slot that is alone in the vector unit and ready, of a pen that is not to stop, is carried out whole. -/
theorem Device.doVop_finishes {d : Device} {n : Nat} {q : Queue} {v : Drive} {a : Active} {o : Vop} (h : d.VopRuns n q v a o)
    (hstart : a.i = 0) (hstops : (d.site n).stops = []) (hsome : 0 < o.count) (hmost : o.count ≤ 255)
    (hinside : o.readsInside v (d.headAddr n o) = true) :
    d.doVop n q .none =
      ((d.onSite n (o.tilesGo (d.drawsOf n v a) (d.headAddr n o) 0 o.count)).onAct n a.id
        (.passed o.count .finished)).settleAt n := by
  have hcount : o.count - 1 + 1 = o.count := by omega
  have hrun : d.doVop n q .none = Device.vopGo 510 d n a.id .none := by
    simp only [Device.doVop, Device.vopRun, h.slot, hstops, if_true]
  rw [hrun, h.vopGo_finishes (left := o.count - 1) (by omega) (by omega) fun _ => hinside, hcount, hstart]

/-- Settles O14: the VOP by its tiles, the tile step by its operands, and what a finished command sets off. -/
theorem vopAndTileStepsCompute : Obligations.VopAndTileStepsCompute := by
  unfold Obligations.VopAndTileStepsCompute
  refine ⟨?vop, ?tileStep, ?completion⟩
  case vop =>
    intro s n q p a o hgoes hslot halone hbody hphase hstart hstops hsome hmost hready heads h hhandle ha hinside hpoison hbad
    have hruns : s.dev.VopRuns n q p.2 a o :=
      ⟨by rw [hgoes]; rfl, hslot, halone, hbody, by simp [hphase], hready, hhandle, hpoison, hbad⟩
    rw [exec_vop, Device.doVop_finishes hruns hstart hstops hsome hmost hinside, Vop.tilesGo_zero]
    rfl
  case tileStep =>
    intro s n v a p fa fb t hentering hbody hfa hfb hnext hpoison hbad hscales u lots hlots ws w tiles htiles rings hrings
      kn kl ao bo av bv o d
    have hfeeds : u.Feeds a p w := ⟨hpoison, hbad, hscales, htiles, hrings⟩
    rw [exec_tileStep, Device.doTileStep_commits hentering hbody hfa hfb hnext hlots hfeeds]
    rfl
  case completion =>
    intro s n q e k a hslot hphase d d' d''
    rw [exec_commandCompletion, Device.doCompletion_finished hslot hphase]
    rfl

end Sys2Proof.Machine
end

section
/-!
STREAM_FETCH, and the sync commands of a queue's head that may issue: MBSEL, STEP, the tally commands, MUSTER, WATCH_WAIT, the
races and HANDLE_SET (R122, R156, R159, R160, R171, R177, R178, R194, R195, R197 to R202).
-/
namespace Sys2Proof.Machine

/-! ## STREAM_FETCH (R159, R160) -/

/-- What lets a fetch unit take its next block: END and the steps leave commands to fetch, and the block lies in the region, at
most four blocks ahead of decoding. -/
structure Seqr.Fetches (s : Seqr) : Prop where
  unended : s.ended = false
  unstepped : ¬(s.stepF = true ∧ s.stepB = true)
  inside : s.fetchAddr < s.limit
  ahead : s.fetchAddr / 256 ≤ s.pc / 256 + 4

/-- Bytes of the next block, which ends at an aligned address or with the region. -/
def Seqr.blockLen (s : Seqr) : Nat := min (256 - s.fetchAddr % 256) (s.limit - s.fetchAddr)

theorem Seqr.Fetches.goesOn {s : Seqr} (h : s.Fetches) : ¬(s.ended = true ∨ (s.stepF = true ∧ s.stepB = true) ∨
    s.limit ≤ s.fetchAddr ∨ s.pc / 256 + 4 < s.fetchAddr / 256) := by
  rintro (hended | hsteps | hend | hfar)
  · exact absurd hended (by simp [h.unended])
  · exact h.unstepped hsteps
  · exact absurd h.inside (Nat.not_lt.mpr hend)
  · exact absurd h.ahead (Nat.not_le.mpr hfar)

theorem Device.fetchBlock_stopped {d : Device} {n : Nat} (hgoes : d.goes n = none) (es : List (Nat × Ecc)) :
    d.fetchBlock n es = d := by
  simp only [Device.fetchBlock, hgoes]

/-- A block without poison arrives behind the words held. -/
theorem Device.fetchBlock_arrives {d e : Device} {n : Nat} {p : Nat × Drive} {es : List (Nat × Ecc)}
    (hgoes : d.goes n = some p) (hfetches : (d.site n).seqr.Fetches)
    (hread : d.transferRead (d.site n).fold (d.site n).seqr.fetchAddr (d.site n).seqr.blockLen es = e)
    (hclean : e.poisonWords (d.site n).fold (d.site n).seqr.fetchAddr (d.site n).seqr.blockLen = []) :
    d.fetchBlock n es = (e.onSite n (Site.onSeqr · fun s => { s with
      fetched := s.fetched ++
        (chunks 16 17 (e.readLocal (d.site n).fold (d.site n).seqr.fetchAddr (d.site n).seqr.blockLen)).map
          fun c => BitVec.ofNat 128 (leNat c) })).pump n := by
  subst hread
  simp only [Seqr.blockLen] at hclean ⊢
  simp only [Device.fetchBlock, hgoes, if_neg hfetches.goesOn, hclean]

/-- A queue's microbatch slot set (R177). -/
def Seqr.setMicro (s : Seqr) (q : Queue) (k : Nat) : Seqr :=
  match q with
  | .fwd => { s with microF := k }
  | .bwd => { s with microB := k }

section issues
variable {d : Device} {n : Nat} {q : Queue} {i : Issue} {done : Nat} (hready : d.ready n q = some i)
include hready

/-! ## Operands that are no tally the command may name (R197, R198) -/

theorem Device.doTallyAdd_badTally {t inc : Nat} (hbody : i.c.body = .tallyAdd t inc)
    (hnone : d.tallyOperand i.f i.v i.c.rel i.slot t = none) : d.doTallyAdd n q = d.stopAt n 0x07 i.c.addr := by
  simp only [Device.doTallyAdd, hready, hbody, hnone]

theorem Device.doTallySet_badTally {t value : Nat} (hbody : i.c.body = .tallySet t value)
    (hnone : d.tallyOperand i.f i.v i.c.rel i.slot t = none) : d.doTallySet n q = d.stopAt n 0x07 i.c.addr := by
  simp only [Device.doTallySet, hready, hbody, hnone]

/-- A wait may not name another pen's tally. -/
theorem Device.doTallyWait_othersTally {t thr id : Nat} {dl : Option Deadline} (hbody : i.c.body = .tallyWait t thr dl)
    (hid : d.tallyOperand i.f i.v i.c.rel i.slot t = some id) (hpen : id < globalBase) (hother : id / 3072 ≠ d.penOf n) :
    d.doTallyWait n q = d.stopAt n 0x07 i.c.addr := by
  simp only [Device.doTallyWait, hready, hbody, hid]
  exact if_pos ⟨hpen, hother⟩

variable (hdone : d.doneOf i = some done)
include hdone

/-! ## MBSEL, STEP and the tally commands (R156, R171, R177, R178, R197 to R199) -/

theorem Device.doMbsel_sets {k : Nat} (hbody : i.c.body = .mbsel k) :
    d.doMbsel n q = (d.onSite n (Site.onSeqr · (·.setMicro q k))).enter n q (i.active n q done d .finished) := by
  simp only [Device.doMbsel, hready, hbody, Device.issue_done hdone]
  rfl

theorem Device.doStep_waits (hbody : i.c.body = .step) : d.doStep n q = d.enter n q (i.active n q done d .waiting) := by
  simp only [Device.doStep, hready, hbody, Device.issue_done hdone, id_eq]

theorem Device.doTallyAdd_adds {t inc id : Nat} (hbody : i.c.body = .tallyAdd t inc)
    (hid : d.tallyOperand i.f i.v i.c.rel i.slot t = some id) :
    d.doTallyAdd n q = (d.bump n i.f id inc).enter n q (i.active n q done d .finished) := by
  simp only [Device.doTallyAdd, hready, hbody, hid, Device.issue_done hdone]

theorem Device.doTallySet_stores {t value id : Nat} (hbody : i.c.body = .tallySet t value)
    (hid : d.tallyOperand i.f i.v i.c.rel i.slot t = some id) :
    d.doTallySet n q = (d.setFrom n i.f id value).enter n q (i.active n q done d .finished) := by
  simp only [Device.doTallySet, hready, hbody, hid, Device.issue_done hdone]

/-- A wait for a good tally that has reached its threshold ends at once. -/
theorem Device.doTallyWait_reached {t thr id : Nat} {dl : Option Deadline} (hbody : i.c.body = .tallyWait t thr dl)
    (hid : d.tallyOperand i.f i.v i.c.rel i.slot t = some id) (hown : globalBase ≤ id ∨ id / 3072 = d.penOf n)
    (hgood : ((d.tallyAt i.f id).map d.tallyBad).getD false = false) (hreached : d.tallyReached i.f id thr = true) :
    d.doTallyWait n q = d.enter n q ((i.withBody (.tallyWait id thr dl)).active n q done d .finished) := by
  have hdone' : d.doneOf (i.withBody (.tallyWait id thr dl)) = some done := hdone
  have hnamed : ¬(id < globalBase ∧ id / 3072 ≠ d.penOf n) := fun ⟨hpen, hother⟩ =>
    hown.elim (Nat.not_le.mpr hpen) hother
  simp only [Device.doTallyWait, hready, hbody, hid, if_neg hnamed, hgood, hreached, Bool.false_eq_true, if_false, if_true]
  exact Device.issue_done hdone' n q _ _

/-! ## MUSTER and WATCH_WAIT (R122, R201, R202) -/

section muster
variable {g : Nat} (hgroup : g < 64 / d.foldCount) (hnew : (d.site n).arrived.contains (musterKey i.s g) = false)
include hgroup hnew

/-- A pen that may arrive does, and a MUSTER in mode 1 is then finished. -/
theorem Device.doMuster_arrives (hbody : i.c.body = .muster g 1 none) (hmay : (d.site n).mayArrive = true) :
    d.doMuster n q =
      ((d.musterArrive n i.f i.s g).enter n q (i.active n q done d .finished)).onSite n (Site.onSeqr · fun s =>
        { s with act := s.act.map fun a => if a.q = q ∧ a.e = .sync then { a with t := 1 } else a }) := by
  simp only [Device.doMuster, hready, hbody, Nat.not_le_of_lt hgroup, hnew, hmay, Device.issue_done hdone,
    OfNat.one_ne_ofNat, Bool.false_eq_true, or_self, and_self, if_false, if_true]

/-- A MUSTER in mode 2 is finished at once where the pen has not arrived. -/
theorem Device.doMuster_passes (hbody : i.c.body = .muster g 2 none) :
    d.doMuster n q = d.enter n q (i.active n q done d .finished) := by
  simp only [Device.doMuster, hready, hbody, Nat.not_le_of_lt hgroup, hnew, Device.issue_done hdone,
    Nat.reduceEqDiff, Bool.false_eq_true, or_self, if_false, if_true, id_eq]

end muster

theorem Device.doWatchWait_asks {l : Deadline} (hbody : i.c.body = .watchWait l) :
    d.doWatchWait n q = (d.enter n q (i.active n q done d .waiting)).askCmp n q 2 (d.watchValue n i.v l) (Device.setDone n) := by
  simp only [Device.doWatchWait, hready, hbody, Device.issue_done hdone, id_eq]

/-! ## Races and handles (R194, R195) -/

theorem Device.doRacePush_room {r h : Nat} (hbody : i.c.body = .racePush r h) (hhandle : d.handleStatus n i.v h false = 0)
    (hroom : ((d.site n).race r).length < 64) :
    d.doRacePush n q = (d.onSite n (·.push r (BitVec.ofNat 32 h))).enter n q (i.active n q done d .finished) := by
  simp only [Device.doRacePush, hready, hbody, hhandle, Nat.not_le_of_lt hroom, ne_eq, not_true_eq_false, if_false,
    Device.issue_done hdone]

theorem Device.doRacePop_head {r : Nat} (hbody : i.c.body = .racePop r) (hhead : (d.site n).race r ≠ []) :
    d.doRacePop n q = ((d.onSite n (·.popRace r)).enter n q (i.active n q done d .finished)).settleAt n := by
  simp only [Device.doRacePop, hready, hbody, hhead, if_false, Device.issue_done hdone]

theorem Device.doHandleSet_stores {h e : Nat} (hbody : i.c.body = .handleSet h e) (hextent : handleInExtent i.v h = true) :
    d.doHandleSet n q = (d.onSite n fun t => { t with handle := sset 0#64 t.handle h (BitVec.ofNat 64 e) }).enter n q
      (i.active n q done d .finished) := by
  simp only [Device.doHandleSet, hready, hbody, hextent, Bool.not_true, Bool.false_eq_true, if_false, Device.issue_done hdone]

end issues

/-- Settles O12: the fetched block, then the commands that name tallies, the bad tallies, and the other sync commands. -/
theorem tallyAndSyncCommandsComplete : Obligations.TallyAndSyncCommandsComplete := by
  unfold Obligations.TallyAndSyncCommandsComplete
  refine ⟨fun s n es => ⟨?noBlock, ?block⟩,
    fun s n q i done hready hdone => ⟨?mbsel, ?tallyAdd, ?tallySet, ?tallyWait⟩,
    fun s n q i hready => ⟨?badAdd, ?badSet, ?badWait⟩,
    fun s n q i done hready hdone => ⟨?step, ?arrive, ?pass, ?watchWait, ?racePush, ?racePop, ?handleSet⟩⟩
  case noBlock =>
    intro hgoes
    rw [exec_streamFetch, Device.fetchBlock_stopped hgoes]
  case block =>
    intro p hgoes u a len hended hsteps hinside hahead d hclean
    rw [exec_streamFetch, Device.fetchBlock_arrives hgoes ⟨hended, hsteps, hinside, hahead⟩ rfl hclean]
    rfl
  case mbsel =>
    intro k hbody
    rw [exec_mbsel, Device.doMbsel_sets hready hdone hbody]
    rfl
  case tallyAdd =>
    intro t inc id hbody hid
    rw [exec_tallyAdd, Device.doTallyAdd_adds hready hdone hbody hid]
  case tallySet =>
    intro t value id hbody hid
    rw [exec_tallySet, Device.doTallySet_stores hready hdone hbody hid]
  case tallyWait =>
    intro t thr dl id hbody hid hown hgood hreached
    rw [exec_tallyWait, Device.doTallyWait_reached hready hdone hbody hid hown hgood hreached]
    rfl
  case badAdd =>
    intro t inc hbody hnone
    rw [exec_tallyAdd, Device.doTallyAdd_badTally hready hbody hnone]
  case badSet =>
    intro t value hbody hnone
    rw [exec_tallySet, Device.doTallySet_badTally hready hbody hnone]
  case badWait =>
    intro t thr dl id hbody hid hpen hother
    rw [exec_tallyWait, Device.doTallyWait_othersTally hready hbody hid hpen hother]
  case step =>
    intro hbody
    rw [exec_stepCmd, Device.doStep_waits hready hdone hbody]
  case arrive =>
    intro g hbody hgroup hnew hmay
    rw [exec_muster, Device.doMuster_arrives hready hdone hgroup hnew hbody hmay]
    rfl
  case pass =>
    intro g hbody hgroup hnew
    rw [exec_muster, Device.doMuster_passes hready hdone hgroup hnew hbody]
  case watchWait =>
    intro l hbody
    rw [exec_watchWait, Device.doWatchWait_asks hready hdone hbody]
  case racePush =>
    intro r h hbody hhandle hroom
    rw [exec_racePush, Device.doRacePush_room hready hdone hbody hhandle hroom]
    rfl
  case racePop =>
    intro r hbody hhead
    rw [exec_racePop, Device.doRacePop_head hready hdone hbody hhead]
    rfl
  case handleSet =>
    intro h e hbody hextent
    rw [exec_handleSet, Device.doHandleSet_stores hready hdone hbody hextent]

end Sys2Proof.Machine
end

section
/-!
Ring tiles that reach a node over a hop: in sequence, with an uncorrectable error, out of sequence, and sent again (R97, R98,
R120).
-/
namespace Sys2Proof.Machine

/-- The sequence number of the next tile of a stream: 0 where the stream has not begun (R97). -/
def NodeDir.nextSeq (y : NodeDir) (stream : Nat) : Nat :=
  match y.posOf stream with | some p => p.next | none => 0

/-- The lot noted with the position of a stream. -/
def NodeDir.lotOf (y : NodeDir) (stream : Nat) : Option Nat :=
  match y.posOf stream with | some p => p.lot | none => none

/-- A node's direction once it has taken the oldest tile of its hop in sequence: the tile is queued, and the stream's position
moves on. -/
def NodeDir.takeTile (y : NodeDir) (drive : Nat) (r : RingTile) (rest : List RingTile) : NodeDir :=
  ({ y with hop := rest, queue := y.queue ++ [r], resends := 0 }).setPos
    { drive := drive, stream := r.stream, next := (r.seq + 1) % 2 ^ 32, lot := y.lotOf r.stream }

section arrival
variable {d : Device} {n : Nat} {x : Dir} {r : RingTile} {rest : List RingTile} {p : Nat × Drive} {e : Ecc}
  (hhop : ((d.site n).node.dir x).hop = r :: rest) (hgoes : d.goes n = some p) (hasked : ((d.site n).node.dir x).asked = false)
include hhop hgoes hasked

/-- A tile in sequence is queued, and the drove goes on. -/
theorem Device.doArrival_inSequence (hgood : e ≠ .uncorrectable) (hseq : r.seq = ((d.site n).node.dir x).nextSeq r.stream) :
    d.doArrival n x e = (d.onDir n x (·.takeTile p.1 r rest)).settleAt n := by
  have hwant : ¬(r.seq ≠ match ((d.site n).node.dir x).posOf r.stream with | some p => p.next | none => 0) :=
    not_not.mpr hseq
  simp only [Device.doArrival, hgoes, hhop, hasked, Bool.false_eq_true, if_false, if_neg hgood]
  exact if_neg hwant

/-- A tile with an uncorrectable error is asked for again, up to three times. -/
theorem Device.doArrival_asks (hresends : ((d.site n).node.dir x).resends < 3) :
    d.doArrival n x .uncorrectable = d.onDir n x fun y => { y with asked := true } := by
  simp only [Device.doArrival, hgoes, hhop, hasked, Nat.not_le_of_lt hresends, Bool.false_eq_true, if_false, if_true]

/-- A tile out of sequence stops the drive, with its event. -/
theorem Device.doArrival_outOfSequence (hgood : e ≠ .uncorrectable)
    (hseq : r.seq ≠ ((d.site n).node.dir x).nextSeq r.stream) :
    d.doArrival n x e =
      (d.event .droveSequence [n, r.stream, ((d.site n).node.dir x).nextSeq r.stream, r.seq]).stopTile n 0x17 x r.stream := by
  simp only [Device.doArrival, hgoes, hhop, hasked, Bool.false_eq_true, if_false, if_neg hgood]
  exact if_pos hseq

end arrival

/-- The sender sends the oldest tile of the hop again; the resend is counted. -/
theorem Device.doResend_counts {d : Device} {n : Nat} {x : Dir} {r : RingTile} {rest : List RingTile}
    (hhop : ((d.site n).node.dir x).hop = r :: rest) (hasked : ((d.site n).node.dir x).asked = true) :
    d.doResend n x = ((d.onDir n x fun y => { y with asked := false, resends := y.resends + 1 }).onSite n
      (Site.onNode · fun nd => { nd with resendCount := nd.resendCount + 1 })).event .droveResend [n, r.stream] := by
  simp only [Device.doResend, hasked, hhop, if_true]

/-- Settles O17: a tile that arrives in sequence, with an uncorrectable error and out of sequence, then the resend. -/
theorem droveTilesArriveInSequence : Obligations.DroveTilesArriveInSequence := by
  unfold Obligations.DroveTilesArriveInSequence
  intro s n x r rest y hhop want
  refine ⟨?inSequence, ?asks, ?outOfSequence, ?resend⟩
  case inSequence =>
    intro k v e hgoes hasked hgood hseq
    rw [exec_droveTileArrival, Device.doArrival_inSequence hhop hgoes hasked hgood hseq]
    rfl
  case asks =>
    intro p hgoes hasked hresends
    rw [exec_droveTileArrival, Device.doArrival_asks hhop hgoes hasked hresends]
  case outOfSequence =>
    intro p e hgoes hasked hgood hseq
    rw [exec_droveTileArrival, Device.doArrival_outOfSequence hhop hgoes hasked hgood hseq]
    rfl
  case resend =>
    intro hasked
    rw [exec_droveResend, Device.doResend_counts hhop hasked]
    rfl

end Sys2Proof.Machine
end

section
/-!
Writes at a local address: what they leave in a paddock and in a line of LPDDR5X, and what they leave alone (R137, R143, R147,
R158, R298 to R300).
-/
namespace Sys2Proof.Machine

/-! ## A paddock read and written (R82, R147, R158) -/

/-- Bytes stored read back as a range. -/
theorem Memory.bytes_store (m : Memory) (a : Nat) (bs : List Byte) : (m.store a bs).bytes a bs.length = bs := by
  rw [Memory.bytes_eq]
  refine List.ext_getElem (by simp) fun i hi _ => ?_
  have hi : i < bs.length := by simpa using hi
  simp [Memory.read_store, hi]

/-- No veil is left over a range that has been cut out (R82). -/
theorem cutVeils_uncover {vs : List (Nat × Nat × Nat)} {a n c : Nat} (hlo : a ≤ c) (hhi : c < a + n) {v : Nat × Nat × Nat}
    (hv : v ∈ cutVeils vs a n) : ¬(v.1 ≤ c ∧ c < v.2.1) := by
  simp only [cutVeils, List.mem_flatMap, List.mem_filter, List.mem_cons, List.not_mem_nil, or_false] at hv
  obtain ⟨w, -, rfl | rfl, -⟩ := hv <;> dsimp only <;> omega

theorem Site.padWrite_seat (t : Site) (a : Nat) (bs : List Byte) (bad : List (Nat × Nat)) :
    (t.padWrite a bs bad).seat = t.seat := by
  simp only [Site.padWrite]
  split <;> rfl

/-- Bytes written into a paddock that is not being cleared read back, whatever a pre-emption had saved there. -/
theorem Site.padBytes_padWrite {t : Site} (h : t.clearing = false) (a : Nat) (bs : List Byte) (bad : List (Nat × Nat)) :
    (t.padWrite a bs bad).padBytes a bs.length = bs := by
  obtain ⟨hclearing, hveil, hpad⟩ : (t.padWrite a bs bad).clearing = false ∧
      (t.padWrite a bs bad).veil = cutVeils t.veil a bs.length ∧ (t.padWrite a bs bad).pad = t.pad.store a bs := by
    simp [Site.padWrite, h]
  simp only [Site.padBytes, hclearing, hveil, hpad, Bool.false_eq_true, if_false, Memory.bytes_store]
  split
  · rfl
  · refine Eq.trans (List.map_congr_left fun x hx => ?_) (List.zipIdx_map_fst 0 bs)
    have hx : x.2 < bs.length := by simpa using List.snd_lt_of_mem_zipIdx hx
    have hnone : (cutVeils t.veil a bs.length).find? (fun v => decide (v.1 ≤ a + x.2) && decide (a + x.2 < v.2.1)) = none :=
      List.find?_eq_none.mpr fun v hv => by
        simpa using cutVeils_uncover (Nat.le_add_right a x.2) (Nat.add_lt_add_left hx a) hv
    rw [hnone]

/-- Words written are no longer poisoned (R147). -/
theorem Site.padWrite_poison {t : Site} (h : t.clearing = false) (a : Nat) (bs : List Byte) (w : Nat) :
    w ∈ (t.padWrite a bs []).poison ↔ w ∈ t.poison ∧ w ∉ wordsOf a bs.length := by
  simp [Site.padWrite, h]

/-! ## A local address that names a paddock (R137) -/

theorem Device.place_onSite (d : Device) (n : Nat) {g : Site → Site} (hseat : ∀ t, (g t).seat = t.seat) (f x : Nat) :
    (d.onSite n g).place f x = d.place f x := by
  simp only [Device.place, d.foldSites_onSite n hseat]
  rfl

/-- A write inside one paddock is a write into its site. -/
theorem Device.writeLocal_pad {d : Device} {f x n off : Nat} (hplace : d.place f x = some (.pad n off)) {bs : List Byte}
    (hfits : off + bs.length ≤ padSize) : d.writeLocal f x bs [] = d.onSite n (·.padWrite off bs []) := by
  simp [Device.writeLocal, hplace, hfits]

/-- A read inside one paddock is a read of its site. -/
theorem Device.readLocal_pad {d : Device} {f x n off len : Nat} (hplace : d.place f x = some (.pad n off))
    (hfits : off + len ≤ padSize) : d.readLocal f x len = (d.site n).padBytes off len := by
  simp [Device.readLocal, hplace, hfits]

/-! ## A line of LPDDR5X under keys (R298 to R300) -/

theorem Mem.read_length (m : Mem) (k : Key) (a n : Nat) : (m.read k a n).length = n := by simp [Mem.read]

/-- The line written is stored under the key of the write, every other under its own (R298). -/
theorem Mem.writeLine_lineKey (m : Mem) (k : Key) (a : Nat) (bs : List Byte) (l : Nat) :
    sget .none (m.writeLine k a bs).lineKey l = if l = a / 64 then k else sget .none m.lineKey l := sget_sset ..

section line
variable (m : Mem) (k : Key) {a : Nat} {bs : List Byte} (hfits : a % 64 + bs.length ≤ 64)
include hfits

/-- The bytes of the line that is stored in place of the old one: what was written, merged with what the line reads as
(R300). -/
theorem Mem.writeLine_read_line (hk : k ≠ .none) {c : Nat} (hline : c / 64 = a / 64) :
    (m.writeLine k a bs).bytes.read c = if a ≤ c ∧ c < a + bs.length then bs.getD (c - a) 0#8 else m.byte k c := by
  have hlen := m.read_length k
  have hstored : (m.writeLine k a bs).bytes = m.bytes.store (a / 64 * 64) (m.read k (a / 64 * 64) (a - a / 64 * 64) ++ bs ++
      m.read k (a + bs.length) (a / 64 * 64 + 64 - (a + bs.length))) := by
    simp only [Mem.writeLine, if_neg hk]
  have hin : a / 64 * 64 ≤ c ∧ c < a / 64 * 64 + (m.read k (a / 64 * 64) (a - a / 64 * 64) ++ bs ++
      m.read k (a + bs.length) (a / 64 * 64 + 64 - (a + bs.length))).length := by
    simp only [List.length_append, hlen]
    omega
  rw [hstored, Memory.read_store, if_pos hin, List.getD_eq_getElem?_getD]
  rcases Nat.lt_or_ge c a with hbefore | hfrom
  · have hc : c - a / 64 * 64 < a - a / 64 * 64 := by omega
    have hat : a / 64 * 64 + (c - a / 64 * 64) = c := by omega
    rw [if_neg (by omega), List.append_assoc, List.getElem?_append_left (by rw [hlen]; exact hc), Mem.read_eq]
    simp [hc, hat]
  · rcases Nat.lt_or_ge c (a + bs.length) with hwithin | hbehind
    · have hc : c - a / 64 * 64 - (a - a / 64 * 64) = c - a := by omega
      rw [if_pos ⟨hfrom, hwithin⟩, List.append_assoc, List.getElem?_append_right (by rw [hlen]; omega), hlen, hc,
        List.getElem?_append_left (by omega), List.getD_eq_getElem?_getD]
    · have hc : c - a / 64 * 64 - (a - a / 64 * 64 + bs.length) = c - (a + bs.length) := by omega
      have hat : a + bs.length + (c - (a + bs.length)) = c := by omega
      have hlt : c - (a + bs.length) < a / 64 * 64 + 64 - (a + bs.length) := by omega
      rw [if_neg (by omega), List.getElem?_append_right (by simp only [List.length_append, hlen]; omega), List.length_append,
        hlen, hc, Mem.read_eq]
      simp [hlt, hat]

/-- Every other line is stored as it was. -/
theorem Mem.writeLine_read_other {c : Nat} (hline : c / 64 ≠ a / 64) :
    (m.writeLine k a bs).bytes.read c = m.bytes.read c := by
  by_cases hk : k = .none
  · have herased : (m.writeLine k a bs).bytes = m.bytes.erase (a / 64 * 64) 64 := by
      simp only [Mem.writeLine, if_pos hk]
    rw [herased, Memory.read_erase, if_pos (by omega)]
  · simp only [Mem.writeLine, if_neg hk]
    rw [Memory.read_store, if_neg]
    simp only [List.length_append, Mem.read_length]
    omega

/-- A line written reads under the key of the write, which has not been destroyed, as what was written among what the line read
as, and as noise under every other key; every other line reads as it did (R298 to R300). -/
theorem Mem.byte_writeLine (l : Key) (c : Nat) : (m.writeLine k a bs).byte l c =
    if c / 64 = a / 64 then
      if l.opens k then (if a ≤ c ∧ c < a + bs.length then bs.getD (c - a) 0#8 else m.byte k c) else noiseByte l c
    else m.byte l c := by
  rw [Mem.byte, Mem.writeLine_lineKey]
  split
  · next hline =>
    by_cases hopens : l.opens k = true
    · obtain ⟨rfl, hk⟩ : k = l ∧ l ≠ .none := by simpa [Key.opens] using hopens
      rw [if_pos hopens, if_pos hopens, m.writeLine_read_line k hfits hk hline]
    · rw [if_neg hopens, if_neg hopens]
  · next hline => rw [m.writeLine_read_other k hfits hline, Mem.byte]

end line

/-! ## O6 -/

/-- A write inside one paddock that is not being cleared reads back (R137). -/
theorem Device.readLocal_writeLocal_pad {d : Device} {f x n off : Nat} (hplace : d.place f x = some (.pad n off))
    {bs : List Byte} (hfits : off + bs.length ≤ padSize) (hopen : (d.site n).clearing = false) :
    (d.writeLocal f x bs []).readLocal f x bs.length = bs := by
  have hn := (d.place_pad f x n off hplace).1
  rw [Device.writeLocal_pad hplace hfits,
    Device.readLocal_pad ((d.place_onSite n (fun t => t.padWrite_seat off bs []) f x).trans hplace) hfits,
    Device.site_onSite, if_pos ⟨rfl, hn⟩, Site.padBytes_padWrite hopen]

/-- A change of a site that leaves it as it is changes nothing. -/
theorem Device.onSite_unchanged {d : Device} {n : Nat} {g : Site → Site} (h : g (d.site n) = d.site n) :
    d.onSite n g = d := by
  rw [Device.onSite_congr (g' := id) h, Device.onSite, List.modify_id]

/-- Settles O6: a write in a paddock is a write into its site, which is no other's, and a write of a line reads by its key. -/
theorem writesReachTheirBytesOnly : Obligations.WritesReachTheirBytesOnly := by
  unfold Obligations.WritesReachTheirBytesOnly
  refine ⟨fun d f x n off bs hplace hfits => ?paddock, fun m k l a b bs hbs hfits => m.byte_writeLine k hfits l b⟩
  case paddock =>
    have hn := (d.place_pad f x n off hplace).1
    have hsite : (d.writeLocal f x bs []).site n = (d.site n).padWrite off bs [] := by
      rw [Device.writeLocal_pad hplace hfits, Device.site_onSite, if_pos ⟨rfl, hn⟩]
    refine ⟨fun hopen => ⟨fun a => ?_, Device.readLocal_writeLocal_pad hplace hfits hopen, fun w => ?_⟩,
      fun hclearing => ?_, fun m hm => ?_, ?_, ?_⟩
    · rw [hsite, Site.padWrite_read _ _ _ _ _ hopen]
    · rw [hsite, Site.padWrite_poison hopen]
    · rw [Device.writeLocal_pad hplace hfits, Device.onSite_unchanged (Site.padWrite_clearing _ _ _ _ hclearing)]
    · rw [Device.writeLocal_pad hplace hfits, Device.site_onSite, if_neg fun h => hm h.1]
    · rw [Device.writeLocal_pad hplace hfits, Device.onSite_mem]
    · rw [Device.writeLocal_pad hplace hfits, Device.onSite_host]

end Sys2Proof.Machine
end

section
/-!
Writes of LPDDR5X line by line, and what a write through a VF's aperture can reach (R138, R297 to R300, R525, R533, R534).
-/
namespace Sys2Proof.Machine

/-! ## What is stored, and under which keys -/

/-- The memories hold the same bytes under the same keys: what a key reads depends on nothing else. -/
def Mem.sameStored (m m' : Mem) : Prop := m'.bytes = m.bytes ∧ m'.lineKey = m.lineKey

theorem Mem.sameStored_refl (m : Mem) : m.sameStored m := ⟨rfl, rfl⟩

theorem Mem.sameStored_trans {m m' m'' : Mem} (h : m.sameStored m') (h' : m'.sameStored m'') : m.sameStored m'' :=
  ⟨h'.1.trans h.1, h'.2.trans h.2⟩

theorem Mem.byte_sameStored {m m' : Mem} (h : m.sameStored m') (k : Key) (a : Nat) : m'.byte k a = m.byte k a := by
  simp only [Mem.byte, h.1, h.2]

/-- The use of a check line moves lines of its quarter's cache alone (R295). -/
theorem Device.useCheck_stored (d : Device) (chunk : Nat) (wr : Bool) : d.mem.sameStored (d.useCheck chunk wr).mem := by
  unfold Device.useCheck
  extract_lets q l
  split
  · split <;> exact ⟨rfl, rfl⟩
  · split <;> exact ⟨rfl, rfl⟩

theorem Device.touchChunk_stored (d : Device) (chunk : Nat) (wr : Bool) : d.mem.sameStored (d.touchChunk chunk wr).mem := by
  unfold Device.touchChunk
  extract_lets q m d1 d2
  have h2 : d.mem.sameStored d2.mem := by
    simp only [d2]
    split <;> exact ⟨rfl, rfl⟩
  exact Mem.sameStored_trans h2 (Mem.sameStored_trans (m' := (d2.onQuarter q _).mem) ⟨rfl, rfl⟩ (Device.useCheck_stored ..))

theorem Device.touchMem_stored (d : Device) (a n : Nat) (wr : Bool) : d.mem.sameStored (d.touchMem a n wr).mem := by
  unfold Device.touchMem
  split
  · exact d.mem.sameStored_refl
  · exact foldl_keeps (fun (e : Device) => d.mem.sameStored e.mem) _
      (fun e _ h => Mem.sameStored_trans h (e.touchChunk_stored ..)) _ _ d.mem.sameStored_refl

/-- A check of a half poisons it at most (R304). -/
theorem Device.checkHalf_stored (d : Device) (a half kind : Nat) (e : Ecc) :
    d.mem.sameStored (d.checkHalf a half kind e).mem := by
  unfold Device.checkHalf
  extract_lets q h
  split
  · exact ⟨rfl, rfl⟩
  · cases e <;> exact ⟨rfl, rfl⟩

/-! ## A write of any length -/

/-- A write reaches the lines that its range touches and no other. -/
theorem Mem.byte_writeGo_other (k l : Key) (n : Nat) (m : Mem) (a : Nat) (bs : List Byte) {c : Nat}
    (hc : c / 64 < a / 64 ∨ a + bs.length ≤ c / 64 * 64) : (Mem.writeGo k n m a bs).byte l c = m.byte l c := by
  induction n generalizing m a bs with
  | zero => rfl
  | succ n ih =>
    cases bs with
    | nil => rfl
    | cons b bs =>
      have hlen : (b :: bs).length = bs.length + 1 := rfl
      have hfits : a % 64 + ((b :: bs).take (64 - a % 64)).length ≤ 64 := by
        have := List.length_take_le (64 - a % 64) (b :: bs)
        omega
      have hrest : c / 64 < (a + (64 - a % 64)) / 64 ∨
          a + (64 - a % 64) + ((b :: bs).drop (64 - a % 64)).length ≤ c / 64 * 64 := by
        rw [List.length_drop]
        omega
      rw [Mem.writeGo, ih _ _ _ hrest, m.byte_writeLine k hfits, if_neg (by omega)]
      nofun

theorem Mem.byte_addPoison (m : Mem) (a n : Nat) (k : Key) (c : Nat) : (m.addPoison a n).byte k c = m.byte k c := rfl

/-- So does a write with what it does to its quarters. -/
theorem Device.byte_memWrite_other (d : Device) (k l : Key) (a : Nat) (bs : List Byte) {c : Nat}
    (hc : c / 64 < a / 64 ∨ a + bs.length ≤ c / 64 * 64) : (d.memWrite k a bs []).mem.byte l c = d.mem.byte l c := by
  unfold Device.memWrite
  extract_lets d1 d2
  have h1 : d.mem.sameStored d1.mem := d.touchMem_stored ..
  have h2 : d.mem.sameStored d2.mem := by
    simp only [d2]
    split
    · exact h1
    · refine foldl_keeps (fun (e : Device) => d.mem.sameStored e.mem) _ (fun e i h => ?_) _ _ h1
      split
      · exact Mem.sameStored_trans h (e.checkHalf_stored ..)
      · exact h
  rw [← Mem.byte_sameStored h2]
  exact Mem.byte_writeGo_other k l _ _ a bs hc

/-- A write that begins in a paddock reaches no LPDDR5X. -/
theorem Device.mem_writeLocal_pad {d : Device} {f x n off : Nat} (hplace : d.place f x = some (.pad n off)) (bs : List Byte)
    (bad : List (Nat × Nat)) : (d.writeLocal f x bs bad).mem = d.mem := by
  simp only [Device.writeLocal, hplace]
  split
  · rfl
  · refine foldl_keeps (fun (e : Device) => e.mem = d.mem) _ (fun e i h => ?_) _ _ rfl
    split <;> exact h

/-! ## A fold's share (R17, R297) -/

/-- A share is whole lines. -/
theorem Device.share_lines {d : Device} (hsized : d.sized) : d.share % 64 = 0 := by
  obtain ⟨-, -, -, -, -, hcount⟩ := hsized
  have husable : d.usable = 480 * 2 ^ 30 ∨ d.usable = 240 * 2 ^ 30 := by
    simp only [Device.usable]
    split
    · exact .inl rfl
    · exact .inr rfl
  rcases husable with h | h <;> rcases hcount with h' | h' | h' | h' <;> simp [Device.share, h, h']

/-- A device data address outside a fold's share. -/
def Device.outsideShare (d : Device) (f a : Nat) : Prop := a < f * d.share ∨ f * d.share + d.share ≤ a

/-- e is d as far as anything but fold f and its function is concerned: sites of other folds, the folds' records, global
tallies, LPDDR5X outside the share under every key, registers of other functions. -/
structure Device.KeepsOthers (d e : Device) (f : Nat) : Prop where
  site (n : Nat) : (d.site n).fold ≠ f → e.site n = d.site n
  byte (k : Key) (a : Nat) : d.outsideShare f a → e.mem.byte k a = d.mem.byte k a
  folds : e.folds = d.folds
  gtally : e.gtally = d.gtally
  fn (g : Nat) : g ≠ f + 1 → e.fn g = d.fn g

theorem Device.keepsOthers_refl (d : Device) (f : Nat) : d.KeepsOthers d f :=
  ⟨fun _ _ => rfl, fun _ _ _ => rfl, rfl, rfl, fun _ _ => rfl⟩

/-- A fault changes the registers of its function alone (R525). -/
theorem Device.apFault_keepsOthers (d : Device) (f status y : Nat) : d.KeepsOthers (d.apFault (f + 1) status y) f :=
  ⟨fun _ _ => rfl, fun _ _ _ => rfl, rfl, rfl, fun g hg => d.fn_refuse (f + 1) g status _ true hg⟩

/-- The pages that a write makes dirty are noted in the recovery state alone (R370). -/
theorem Device.KeepsOthers.noteDirty {d e : Device} {f : Nat} (h : d.KeepsOthers e f) (g x n : Nat) :
    d.KeepsOthers (e.noteDirty g x n) f := by
  unfold Device.noteDirty
  extract_lets ps
  split
  · exact h
  · exact ⟨h.site, h.byte, h.folds, h.gtally, h.fn⟩

/-- A range that a fold owns lies within its share where it begins there. -/
theorem Device.owns_lp {d : Device} {f x len a : Nat} (howns : d.owns f x len = true) (hlen : len ≠ 0)
    (hplace : d.place f x = some (.lp a)) : a = f * d.share + x ∧ x + len ≤ d.share := by
  obtain ⟨hx, ha⟩ := d.place_lp f x a hplace
  simp only [Device.owns, Bool.and_eq_true, Bool.or_eq_true, decide_eq_true_eq, hlen, or_false, beq_iff_eq,
    decide_eq_decide] at howns
  have hend := howns.2.mp hx
  exact ⟨ha, by omega⟩

/-- A write of a range that a fold owns stays in the fold. -/
theorem Device.writeLocal_keepsOthers {d : Device} (hsized : d.sized) {f x : Nat} {bs : List Byte} (hbs : bs.length ≠ 0)
    (howns : d.owns f x bs.length = true) : d.KeepsOthers (d.writeLocal f x bs []) f := by
  obtain ⟨si, he, me, fr, heq⟩ := d.writeLocal_same f x bs []
  refine ⟨fun n hn => d.writeLocal_site f x n bs [] hn, fun k c hc => ?_, by rw [heq], by rw [heq],
    fun g _ => by rw [heq]; rfl⟩
  cases hplace : d.place f x with
  | none => simp [Device.writeLocal, hplace]
  | some p =>
    cases p with
    | pad n off => rw [Device.mem_writeLocal_pad hplace]
    | lp a =>
      obtain ⟨rfl, hend⟩ := Device.owns_lp howns hbs hplace
      have hlines := Device.share_lines hsized
      have hfold : f * d.share % 64 = 0 := by rw [Nat.mul_mod, hlines, Nat.mul_zero, Nat.zero_mod]
      simp only [Device.outsideShare] at hc
      simp only [Device.writeLocal, hplace]
      exact d.byte_memWrite_other _ k _ bs (by omega)

/-- An aperture write that is allowed names words of the fold's own (R534). -/
theorem Device.apStatus_eq_zero {d : Device} {f y width : Nat} (h : d.apStatus (f + 1) y width = 0) :
    width ≠ 0 ∧ d.owns f (d.apAddr (f + 1) y) width = true := by
  simp only [Device.apStatus] at h
  split at h
  · cases h
  · next haligned =>
    split at h
    · cases h
    · next howned =>
      exact ⟨fun hzero => haligned (.inr (.inr hzero)),
        of_not_not fun ho => howned (.inr (.inr (by simpa [apFold] using ho)))⟩

theorem leBytes_length (n v : Nat) : (leBytes n v).length = n := by
  induction n generalizing v with
  | zero => rfl
  | succ n ih => simp [leBytes, ih]

/-- A VF's aperture write keeps all but its own fold, whether it is carried out or faults. -/
theorem Device.apWrite_keepsOthers {d : Device} (hsized : d.sized) (f y width value : Nat) :
    d.KeepsOthers (d.apWrite (f + 1) y width value) f := by
  unfold Device.apWrite
  extract_lets st x
  split
  · exact d.apFault_keepsOthers ..
  · next hst =>
    split
    · exact d.apFault_keepsOthers ..
    · obtain ⟨hwidth, howns⟩ := Device.apStatus_eq_zero (of_not_not hst)
      have hlen := leBytes_length width value
      exact (Device.writeLocal_keepsOthers hsized (by rwa [hlen]) (by rwa [hlen])).noteDirty ..

/-- Settles O7: the write is discarded outside the function's stream or where no aperture answers, faults, or is carried out in
the fold. -/
theorem vfApertureWritesStayInTheirFold : Obligations.VfApertureWritesStayInTheirFold := by
  unfold Obligations.VfApertureWritesStayInTheirFold
  intro s f off width value hsized
  have hkeeps : s.dev.KeepsOthers (s.dev.fromHost (f + 1) (·.doApWrite (f + 1) off width value)) f := by
    unfold Device.fromHost Device.doApWrite
    split
    · exact s.dev.keepsOthers_refl f
    · dsimp only
      split
      · exact Device.apWrite_keepsOthers hsized ..
      · exact s.dev.keepsOthers_refl f
  obtain ⟨hsite, hbyte, hfolds, hgtally, hfn⟩ := hkeeps
  exact ⟨_, exec_apertureWrite .., rfl, hsite, hbyte, hfolds, hgtally, hfn⟩

end Sys2Proof.Machine
end

section
/-!
Flits that reach the end of their lane: bulk flits, read orders, feed flits and control flits (R138 to R148, R158, R199, R241 to
R248, R255).
-/
namespace Sys2Proof.Machine

/-! ## Bulk rings (R142, R242, R255, R257) -/

/-- A bulk flit that has reached its destination has changed the bulk rings alone. -/
theorem Device.tookBulk_eq {d e : Device} {c : RingFlit} {part : Nat} (htook : d.tookBulk c part e) :
    ∃ bulk, e = { d with fabric := { d.fabric with bulk := bulk } } := by
  rcases htook with ⟨x, l, -, -, rfl⟩ | ⟨-, -, rfl⟩ <;> exact ⟨_, rfl⟩

section tookBulk
variable {d e : Device} {part : Nat}

theorem Device.tookBulk_lands {c : RingFlit} (htook : d.tookBulk c part e) (f : BulkFlit) : e.lands f = d.lands f := by
  obtain ⟨bulk, rfl⟩ := Device.tookBulk_eq htook
  rfl

theorem Device.tookBulk_goodOrder {c : RingFlit} (htook : d.tookBulk c part e) (o : ReadOrder) :
    e.goodOrder o = d.goodOrder o := by
  obtain ⟨bulk, rfl⟩ := Device.tookBulk_eq htook
  rfl

theorem Device.tookBulk_place {c : RingFlit} (htook : d.tookBulk c part e) (f x : Nat) : e.place f x = d.place f x := by
  obtain ⟨bulk, rfl⟩ := Device.tookBulk_eq htook
  rfl

/-- A flit that arrives lands, or not, on the device that it has reached, as the part that it is. -/
theorem Device.doBulkFlit_took {f : BulkFlit} (htook : d.tookBulk (.write f) part e) :
    d.doBulkFlit f = e.landFlit f part := by
  rcases htook with ⟨x, l, harrive, rfl, rfl⟩ | ⟨habsent, rfl, rfl⟩
  · simp only [Device.doBulkFlit, harrive]
  · simp only [Device.doBulkFlit, arriveGo_of_absent (p := fun x : RingFlit => decide (x = .write f)) habsent, habsent,
      Bool.false_eq_true, if_false]

/-- An order that arrives is served by the device that it has reached. -/
theorem Device.doReadOrder_took {o : ReadOrder} (htook : d.tookBulk (.order o) part e) (errs : List (Nat × Ecc)) :
    d.doReadOrder o errs = e.serveOrder o part errs := by
  rcases htook with ⟨x, l, harrive, rfl, rfl⟩ | ⟨habsent, rfl, rfl⟩
  · simp only [Device.doReadOrder, harrive]
  · simp only [Device.doReadOrder, arriveGo_of_absent (p := fun x : RingFlit => decide (x = .order o)) habsent, habsent,
      Bool.false_eq_true, if_false]

end tookBulk

/-- What the arrival of a flit does, by whether it lands. -/
theorem Device.landFlit_eq (d : Device) (f : BulkFlit) (part : Nat) : d.landFlit f part =
    let e := (d.wake f.site).onSite f.site fun t => (List.range 8).foldl (fun t i => t.landWord f i) t
    if d.lands f then
      (if part ≠ 0 then e.partsDone part 1
        else if f.last = true ∧ f.cut = false then e.tallyAdd f.fold f.tally f.inc else e)
    else if part = 0 then d
    else ({ d with fabric := { d.fabric with xfers := d.fabric.xfers.map fun x =>
      if x.1 = part then (x.1, { x.2 with cut := true }) else x } } : Device).partsDone part 1 := by
  simp only [Device.landFlit, Bool.not_eq_true']

/-- A part that is not the last leaves its transfer with a part less to come. -/
theorem Device.partsDone_more {d : Device} {part : Nat} {x : Xfer} (hx : slook d.fabric.xfers part = some x)
    (hmore : 1 < x.left) : d.partsDone part 1 =
      { d with fabric := { d.fabric with xfers := sput d.fabric.xfers part { x with left := x.left - 1 } } } := by
  simp only [Device.partsDone, hx, if_neg (Nat.not_le.mpr hmore)]

/-- The last part ends its transfer, with its increment unless it was cut. -/
theorem Device.partsDone_last {d : Device} {part : Nat} {x : Xfer} (hx : slook d.fabric.xfers part = some x)
    (hlast : x.left = 1) (hinc : x.inc ≠ 0) : d.partsDone part 1 =
      let e : Device := { d with fabric := { d.fabric with xfers := sdel d.fabric.xfers part } }
      if x.cut then e else (e.tallyAdd x.fold x.tally x.inc).endMove x := by
  simp only [Device.partsDone, hx, hlast, Nat.le_refl, if_true, if_neg hinc]

/-! ## Read orders (R140, R148, R244) -/

section order
variable {d : Device} {o : ReadOrder} {m src : Nat} (hgood : d.goodOrder o = true)
  (hsrc : d.place o.fold o.src = some (.pad m src)) (part : Nat) (errs : List (Nat × Ecc))
include hgood hsrc

/-- Toward a paddock a flit goes out for each line, from the words as the read finds them. -/
theorem Device.serveOrder_pad {k off : Nat} (hdst : d.place o.fold o.dst = some (.pad k off)) :
    d.serveOrder o part errs =
      let e := d.transferRead o.fold o.src o.len errs
      e.issueFlits (stopOf m) part (lineFlits (stopOf m) o.fold o.fold k off (e.readLocal o.fold o.src o.len)
        (e.poisonWords o.fold o.src o.len) o.tally o.inc (stileSplit (off, o.len))) := by
  simp only [Device.serveOrder, hgood, hsrc, hdst, Bool.not_true, Bool.false_eq_true, if_false]

/-- Toward LPDDR5X the data is written at once. -/
theorem Device.serveOrder_lp {a : Nat} (hdst : d.place o.fold o.dst = some (.lp a)) :
    d.serveOrder o part errs =
      let e := d.moveRow o.fold o.src o.dst o.len errs
      if part ≠ 0 then e.partsDone part 1 else e.tallyAdd o.fold o.tally o.inc := by
  simp only [Device.serveOrder, hgood, hsrc, hdst, Bool.not_true, Bool.false_eq_true, if_false]

end order

theorem lineFlits_length (src : Nat × Nat) (req fold n off : Nat) (bs : List Byte) (bad : List (Nat × Nat)) (tally inc : Nat)
    (ls : List (Nat × Nat)) : (lineFlits src req fold n off bs bad tally inc ls).length = ls.length := by
  simp [lineFlits]

theorem stileSplit_length (a n : Nat) : (stileSplit (a, n)).length = (a % 64 + n + 63) / 64 := by
  simp [stileSplit]

/-! ## Feed flits (R246, R247) -/

/-- What arrives is a flit that was asked for. -/
theorem arriveGo_holds {α : Type} {p : α → Bool} {done l : List (Flight α)} {x : Flight α} {rest : List (Flight α)}
    (h : arriveGo p done l = some (x, rest)) : p x.flit = true := by
  induction l generalizing done with
  | nil => cases h
  | cons y l ih =>
    simp only [arriveGo] at h
    split at h
    · next hy =>
      cases h
      simp only [Bool.and_eq_true] at hy
      exact hy.1.1
    · exact ih h

/-- Whether an active command is a FEED. -/
def Active.isFeed (a : Active) : Bool := match a.cmd.body with | .feed _ => true | _ => false

theorem Active.body_ne_feed {a : Active} (h : a.isFeed = false) (fd : Feed) : a.cmd.body ≠ .feed fd := by
  intro hbody
  simp [Active.isFeed, hbody] at h

/-- A pass over a list acts with the one entry that it does anything with. -/
theorem foldl_of_filter_eq {α β : Type} {g : β → α → β} {p : α → Bool} (hidle : ∀ b a, p a = false → g b a = b)
    {l : List α} {a : α} (hl : l.filter p = [a]) (b : β) : l.foldl g b = g b a := by
  have hg : g = fun b a => if p a = true then g b a else b := by
    funext b a
    split
    · rfl
    · next ha => exact hidle b a (Bool.eq_false_of_not_eq_true ha)
  rw [hg, ← List.foldl_filter, hl, ← hg]
  rfl

/-- The FEED that is alone at its entry pen and has sent for the flit counts its bytes (R247). -/
theorem Device.feedArrive_alone {d : Device} {x : Flight FeedFlit} {a : Active} {fd : Feed} {fm : Fmt}
    (halone : (d.site x.flit.site).seqr.act.filter Active.isFeed = [a]) (hbody : a.cmd.body = .feed fd)
    (hfmt : Fmt.ofCode fd.fmt = some fm) (hsent : x.part / 2 ^ 40 = a.id) :
    d.feedArrive x =
      let t := { a.feed with got := a.feed.got ++ [x.part % 2 ^ 40] }
      d.onAct x.flit.site a.id fun a =>
        { a with feed := d.feedDue (d.site x.flit.site).fold fd fm t.got.length t } := by
  unfold Device.feedArrive
  rw [foldl_of_filter_eq (p := Active.isFeed) _ halone]
  · simp only [hbody, hfmt, hsent, ne_eq, not_true_eq_false, if_false]
  · intro b c hc
    split
    · next fd' hfeed => exact absurd hfeed (Active.body_ne_feed hc fd')
    · rfl

/-- A flit that no FEED has asked for is nowhere on the ring. -/
theorem Device.doFeedFlit_absent {d : Device} {c : FeedFlit}
    (h : arriveGo (fun x => decide (x = c)) [] d.fabric.feed = none) : d.doFeedFlit c = d := by
  simp only [Device.doFeedFlit, h]

/-- A flit that reaches its feed drop is taken off the ring, and the FEED that sent for it goes on. -/
theorem Device.doFeedFlit_arrives {d : Device} {c : FeedFlit} {x : Flight FeedFlit} {l : List (Flight FeedFlit)}
    (h : arriveGo (fun x => decide (x = c)) [] d.fabric.feed = some (x, l)) {a : Active} {fd : Feed} {fm : Fmt}
    (halone : (d.site c.site).seqr.act.filter Active.isFeed = [a]) (hbody : a.cmd.body = .feed fd)
    (hfmt : Fmt.ofCode fd.fmt = some fm) (hsent : x.part / 2 ^ 40 = a.id) :
    d.doFeedFlit c =
      let e := { d with fabric := { d.fabric with feed := refill feedRoom x l } }.wake c.site
      let t := { a.feed with got := a.feed.got ++ [x.part % 2 ^ 40] }
      (e.onAct c.site a.id fun a =>
        { a with feed := e.feedDue (d.site c.site).fold fd fm t.got.length t }).settleAt c.site := by
  obtain rfl : x.flit = c := of_decide_eq_true (arriveGo_holds (p := fun y => decide (y = c)) h)
  simp only [Device.doFeedFlit, h]
  exact congrArg (Device.settleAt · x.flit.site) (Device.feedArrive_alone halone hbody hfmt hsent)

/-! ## Control flits (R156, R199, R245) -/

section tookCtl
variable {d e : Device} {c : CtlFlit} {h : Option Nat} (htook : d.tookCtl c h e)
include htook

theorem Device.tookCtl_tallyAt (f id : Nat) : e.tallyAt f id = d.tallyAt f id := by
  obtain ⟨he, tr, ctl, rfl⟩ := Device.tookCtl_eq htook
  rfl

theorem Device.tookCtl_tallyGet (p : TallyAt) : e.tallyGet p = d.tallyGet p := by
  obtain ⟨he, tr, ctl, rfl⟩ := Device.tookCtl_eq htook
  cases p <;> rfl

theorem Device.tookCtl_tallyBad (p : TallyAt) : e.tallyBad p = d.tallyBad p := by
  obtain ⟨he, tr, ctl, rfl⟩ := Device.tookCtl_eq htook
  cases p <;> rfl

theorem Device.tookCtl_frags : e.fabric.frags = d.fabric.frags := by
  obtain ⟨he, tr, ctl, rfl⟩ := Device.tookCtl_eq htook
  rfl

end tookCtl

/-- The pen that holds a tally, whose crossing queue a flit for the tally is written into (R272). -/
def TallyAt.pen? : TallyAt → Option Nat
  | .pen n _ => some n
  | .global _ => none

section tally
variable {d e : Device} {f id : Nat} {p : TallyAt} (hp : d.tallyAt f id = some p)
include hp

theorem Device.flitPen_tallyAdd (inc : Nat) : d.flitPen (.tallyAdd f id inc) = p.pen? := by
  simp only [Device.flitPen, hp]
  cases p <;> rfl

theorem Device.flitPen_tallySet (v : Nat) : d.flitPen (.tallySet f id v) = p.pen? := by
  simp only [Device.flitPen, hp]
  cases p <;> rfl

/-- Kind 1 adds to its tally, or stops the drive whose tally cannot be read. -/
theorem Device.doCtlAdd_took {inc : Nat} (htook : d.tookCtl (.tallyAdd f id inc) p.pen? e) :
    d.doCtlAdd f id inc =
      if d.tallyBad p then e.tallyStop p else e.tallyPut p (d.tallyGet p + BitVec.ofNat 32 inc) := by
  rw [Device.doCtlAdd, Device.onArrive_tookCtl (by rwa [Device.flitPen_tallyAdd hp])]
  simp only [Device.tallyAdd, Device.tookCtl_tallyAt htook, hp, Device.tookCtl_tallyBad htook, Device.tookCtl_tallyGet htook]

/-- Kind 2 stores a value. -/
theorem Device.doCtlSet_took {v : Nat} (htook : d.tookCtl (.tallySet f id v) p.pen? e) :
    d.doCtlSet f id v = e.tallyPut p (BitVec.ofNat 32 v) := by
  rw [Device.doCtlSet, Device.onArrive_tookCtl (by rwa [Device.flitPen_tallySet hp])]
  simp only [Device.tookCtl_tallyAt htook, hp]

end tally

/-- A record's fragment is kept until the last, or the eighth, is there. -/
theorem Device.doEventFrag_took {d e : Device} {n v : Nat} {last : Bool} (htook : d.tookCtl (.eventFrag n v) none e) :
    d.doEventFrag n v last =
      let l := d.fabric.frags
      { e with fabric := { e.fabric with
        frags := if last = true ∨ 7 ≤ (l.filter (·.1 = n)).length then l.filter (·.1 ≠ n) else l ++ [(n, v)] } } := by
  rw [Device.doEventFrag, Device.onArrive_tookCtl htook]
  simp [Device.tookCtl_frags htook]

/-- Settles O18, ring by ring: bulk flits and their transfers, read orders, feed flits, control flits. -/
theorem ringFlitsActAtTheirDestination : Obligations.RingFlitsActAtTheirDestination := by
  unfold Obligations.RingFlitsActAtTheirDestination
  refine ⟨⟨fun s f part d htook => ?lands, fun d part x hx => ⟨Device.partsDone_more hx, Device.partsDone_last hx⟩⟩,
    fun s o es part m src d htook hgood hsrc => ⟨fun k off hdst => ?orderPad, fun a hdst => ?orderLp⟩,
    fun s c => ⟨fun h => ?feedAbsent, fun x l a fd fm h halone hbody hfmt hsent => ?feed⟩,
    fun s => ⟨fun f id inc p e hp htook => ?add, fun f id v p e hp htook => ?set, fun c rd off e htook => ?setupAddr,
      fun c r v e htook => ?setupData, fun n v last e htook => ?fragment⟩⟩
  case lands =>
    rw [exec_bulkWriteFlit, Device.doBulkFlit_took htook, Device.landFlit_eq, Device.tookBulk_lands htook]
    rfl
  case orderPad =>
    refine ⟨by rw [lineFlits_length, stileSplit_length], ?_⟩
    rw [exec_remoteReadOrder, Device.doReadOrder_took htook, Device.serveOrder_pad (by rwa [Device.tookBulk_goodOrder htook])
      (by rwa [Device.tookBulk_place htook]) part es (by rwa [Device.tookBulk_place htook])]
    rfl
  case orderLp =>
    rw [exec_remoteReadOrder, Device.doReadOrder_took htook, Device.serveOrder_lp (by rwa [Device.tookBulk_goodOrder htook])
      (by rwa [Device.tookBulk_place htook]) part es (by rwa [Device.tookBulk_place htook])]
  case feedAbsent => rw [exec_feedFlit, Device.doFeedFlit_absent h]
  case feed => rw [exec_feedFlit, Device.doFeedFlit_arrives h halone hbody hfmt hsent]
  case add => rw [exec_controlTallyAdd, Device.doCtlAdd_took hp htook]
  case set => rw [exec_controlTallySet, Device.doCtlSet_took hp htook]
  case setupAddr => rw [exec_setupAddress, Device.doSetupAddr, Device.onArrive_tookCtl htook]
  case setupData => rw [exec_setupData, Device.doSetupData, Device.onArrive_tookCtl htook]
  case fragment => rw [exec_eventFragment, Device.doEventFrag_took htook]

end Sys2Proof.Machine
end

section
/-!
Upkeep of a paddock, and rows of an accumulator bank that take spares (R149 to R157, R263, R272).
-/
namespace Sys2Proof.Machine

/-! ## Scrubbing and clearing (R149 to R151, R157, R272) -/

/-- A good word leaves the device as it is. -/
theorem Device.scrubWord_good {d : Device} {n : Nat} (hpoison : (d.site n).poison = []) (word : Nat) :
    d.scrubWord n word .ok = d := by
  simp [Device.scrubWord, hpoison]

section scrub
variable {d : Device} {n bank : Nat} (hn : n < 42) (hbank : bank < 64) (hrun : bit d.padScrub 31 = true)
include hn hbank hrun

/-- A good line read moves the bank's scrubber on (R150). -/
theorem Device.doScrub_good (hpoison : (d.site n).poison = []) :
    d.doScrub n bank true [] = (d.wake n).onSite n fun t => { t with
      scrub := sset 0 t.scrub bank ((sget 0 (d.site n).scrub bank + 1) % 16384) } := by
  have hline (words : List Nat) (line : Nat) : words.foldl (fun e i =>
      e.scrubWord n (line * 512 + bank * 8 + i) (([] : List Ecc).getD i .ok)) (d.wake n) = d.wake n :=
    foldl_keeps (· = d.wake n) _ (fun e i he => by rw [he]; exact Device.scrubWord_good (d := d.wake n) hpoison _) _ _ rfl
  have hgoes : ¬(42 ≤ n ∨ 64 ≤ bank ∨ (!bit d.padScrub 31) = true) := by simp [hn, hbank, hrun]
  simp only [Device.doScrub, if_neg hgoes, Bool.not_true, Bool.false_eq_true, if_false, hline]
  rfl

/-- A read that is not granted is counted as deferred (R151). -/
theorem Device.doScrub_deferred (errs : List Ecc) :
    d.doScrub n bank false errs = { d.wake n with deferred := min (d.deferred + 1) (2 ^ 32 - 1) } := by
  have hgoes : ¬(42 ≤ n ∨ 64 ≤ bank ∨ (!bit d.padScrub 31) = true) := by simp [hn, hbank, hrun]
  simp only [Device.doScrub, if_neg hgoes, Bool.not_false, if_true]
  rfl

end scrub

/-- A clear that ends leaves the site cleared and lets its heft follow its limits (R157, R263). -/
theorem Device.doPadClear_ends {d : Device} {n : Nat} (h : (d.site n).clearing = true) :
    d.doPadClear n = ((d.onSite n fun t => { t.cleared with clearing := false }).onHeft n
      fun h => { h with clear := false }.follow).supply := by
  simp only [Device.doPadClear, h, Bool.not_true, Bool.false_eq_true, if_false]

/-! ## Rows of an accumulator bank (R152 to R155) -/

section row
variable {d : Device} {n b row : Nat} (hn : n < d.sites.length)
include hn

/-- A site once the count of one of its rows is set. -/
theorem Device.site_setRowCount_acc (k : Nat) : (d.setRowCount (.acc n b) row k).site n =
    { d.site n with rowErrs := sset 0 (d.site n).rowErrs (RowStore.key (.acc n b) row) k } := by
  rw [Device.setRowCount, Device.site_onSite, if_pos ⟨rfl, hn⟩]

theorem Device.rowCount_setRowCount_acc (k : Nat) : (d.setRowCount (.acc n b) row k).rowCount (.acc n b) row = k := by
  simp only [Device.rowCount, Device.site_setRowCount_acc hn, sget_sset_self]

theorem Device.copyingRow_setRowCount_acc (k : Nat) :
    (d.setRowCount (.acc n b) row k).copyingRow (.acc n b) row = d.copyingRow (.acc n b) row := by
  simp only [Device.copyingRow, Device.site_setRowCount_acc hn]

theorem Device.sparesUsed_setRowCount_acc (k : Nat) :
    (d.setRowCount (.acc n b) row k).sparesUsed (.acc n b) = d.sparesUsed (.acc n b) := by
  simp only [Device.sparesUsed, Device.site_setRowCount_acc hn]

/-- The correctable error with which a row reaches the limit takes a spare, or finds none (R153, R154). -/
theorem Device.rowReport_acc_limit (hlimit : d.hardLimit ≠ 0) (hreached : d.hardLimit ≤ d.rowCount (.acc n b) row + 1)
    (hcopy : d.copyingRow (.acc n b) row = false) : d.rowReport (.acc n b) row .corrected =
      let e := d.setRowCount (.acc n b) row (d.rowCount (.acc n b) row + 1)
      if d.sparesUsed (.acc n b) < RowStore.spares (.acc n b) then e.takeSpare (.acc n b) row
      else e.event .spareExhausted [0, n, b, row] := by
  have hhard (k : Nat) : (d.setRowCount (.acc n b) row k).hardLimit = d.hardLimit := rfl
  simp only [Device.rowReport, reduceCtorEq, if_true, if_false, Device.rowCount_setRowCount_acc hn,
    Device.copyingRow_setRowCount_acc hn, Device.sparesUsed_setRowCount_acc hn, hcopy, hhard, hlimit, true_and,
    Nat.not_lt.mpr hreached, or_false, Bool.false_eq_true]
  rfl

end row

/-- A row of a bank that reports a correctable error is reported as it is. -/
theorem Device.doRowSpare_acc {d : Device} {n b row : Nat} (hn : n < 42) (hb : b < 8) (hrow : row < 1024) :
    d.doRowSpare (.acc n b) row .corrected = d.rowReport (.acc n b) row .corrected := by
  simp [Device.doRowSpare, RowStore.ok, RowStore.rows, hn, hb, hrow]

/-- A copy that ends: the row is spared, and its count starts from zero (R155). -/
theorem Device.doRowRemap_acc {d : Device} {n b row : Nat} (hcopy : d.copyingRow (.acc n b) row = true) :
    d.doRowRemap (.acc n b) row = d.onSite n fun t => { t with
      rowErrs := sset 0 t.rowErrs (RowStore.key (.acc n b) row) 0
      copying := ndel t.copying (RowStore.key (.acc n b) row), spared := nins t.spared (RowStore.key (.acc n b) row) } := by
  simp only [Device.doRowRemap, hcopy, Bool.not_true, Bool.false_eq_true, if_false, Device.setRowCount, Device.onSite_onSite]

/-- Settles O23: the scrubber, the end of a clear, then the error and the copy of a row. -/
theorem paddockUpkeepAndRowSparing : Obligations.PaddockUpkeepAndRowSparing := by
  unfold Obligations.PaddockUpkeepAndRowSparing
  refine ⟨fun s n bank hn hbank => ⟨fun hrun hpoison => ?good, fun errs hrun => ?deferred, fun hclearing => ?clear⟩,
    fun s n b row hn hb hrow hsite => ⟨fun hlimit hreached hcopy => ⟨fun hleft => ?spare, fun hnone => ?exhausted⟩,
      fun hcopy => ?copied⟩⟩
  case good => rw [exec_paddockScrub, Device.doScrub_good hn hbank hrun hpoison]
  case deferred => rw [exec_paddockScrub, Device.doScrub_deferred hn hbank hrun]
  case clear =>
    rw [exec_paddockClear, Device.doPadClear_ends hclearing]
    rfl
  case spare =>
    rw [exec_rowSpare, Device.doRowSpare_acc hn hb hrow, Device.rowReport_acc_limit hsite hlimit hreached hcopy, if_pos hleft]
  case exhausted =>
    rw [exec_rowSpare, Device.doRowSpare_acc hn hb hrow, Device.rowReport_acc_limit hsite hlimit hreached hcopy,
      if_neg (Nat.not_lt.mpr hnone)]
  case copied => rw [exec_rowRemapDone, Device.doRowRemap_acc hcopy]

end Sys2Proof.Machine
end

section
/-!
Steps of a drive, and the reads of its batch DMAs: STEP, STEP_PREPARE, STEP_OPEN, STEP_CLOSE and HOST_READ_COMPLETION (R352 to
R365, R413, R417 to R420).
-/
namespace Sys2Proof.Machine

/-! ## STEP and STEP_PREPARE (R417, R418) -/

/-- The STEP of the next number, with none of its drive before it, starts. -/
theorem Device.doStepDesc_starts {d : Device} {sq idx : Nat} {x : Desc} {v : Drive} (htakes : d.takesUp sq idx 0x11 x)
    (hdrive : d.drive (d.ringFold sq) x.slot = some v) (halign : x.u 8 8 % 64 = 0) (hstop : v.stopped = none)
    (hfirst : d.stepsStarted (d.ringFold sq) x.slot v = []) (hprepared : v.prepared = none)
    (hnumber : x.u 16 8 = (v.last + 1) % 2 ^ 48) : d.doStepDesc sq idx = d.markStarted sq idx := by
  rw [Device.doStepDesc, Device.begin_takesUp htakes]
  simp [hdrive, halign, hstop, hfirst, hprepared, hnumber]

/-- A started STEP whose turn it is, with good blocks, is its drive's prepared step. -/
theorem Device.doStepPrepare_prepares {d : Device} {sq idx : Nat} {x : Desc} {v : Drive} {reads : StepReads} {r : StepRec}
    {ms : List DmaD} (hdesc : d.desc sq idx = some x) (hop : x.op = 0x11) (hstarted : x.started = true)
    (hread : d.mayRead (ownerFn (d.ring sq).owner) = true) (hdrive : d.drive (d.ringFold sq) x.slot = some v)
    (hprepared : v.prepared = none) (hkept : v.abandoned = false)
    (hturn : (d.stepsStarted (d.ringFold sq) x.slot v).head? = some x) (hnumber : x.u 16 8 = (v.last + 1) % 2 ^ 48)
    (hblocks : d.prepStep (d.ringFold sq) v (x.u 16 8) (x.u 24 8) (bit (x.u 32 1) 0) (some (sq, idx)) reads = .ok (r, ms))
    (hdigest : d.digestBad (d.ringFold sq) v r = none) :
    d.doStepPrepare sq idx reads = (d.onDrive (d.ringFold sq) x.slot fun v => { v with
      prepared := some r, last := x.u 16 8, dmas := v.dmas ++ numberDmas (x.u 16 8) ms }).startBatches
        (d.ringFold sq) x.slot := by
  simp only [Device.doStepPrepare, hdesc, hdrive, hop, hstarted, hprepared, hkept, hturn, hread, hblocks, hdigest,
    if_neg (not_not.mpr hnumber), Option.isSome_none, ne_eq, not_true_eq_false, Bool.not_true, Bool.false_eq_true, or_self,
    if_false]

/-! ## STEP_OPEN (R361, R363, R385) -/

/-- The prepared step of an unlogged drive awaits no COMMIT. -/
theorem Device.doStepOpen_unlogged {d : Device} {f slot : Nat} {v : Drive} {r : StepRec} (hdrive : d.drive f slot = some v)
    (hunlogged : v.unlogged = true) (hprepared : v.prepared = some r) (hopened : v.opened = none) (hstop : v.stopped = none)
    (hkept : v.abandoned = false) (hflock : d.flock.state ≠ 3) :
    d.doStepOpen f slot = d.openStep f slot r (false, false) := by
  have hmarks : d.marksHeld v r.number = some (false, false) := by simp [Device.marksHeld, hunlogged]
  simp [Device.doStepOpen, hdrive, hprepared, hopened, hstop, hkept, hflock, hmarks]

/-! ## STEP_CLOSE (R352 to R365, R419) -/

section close
variable {d : Device} {f slot : Nat} {v : Drive} {r : StepRec} (hdrive : d.drive f slot = some v) (hopened : v.opened = some r)
  (hstop : v.stopped = none) (hmay : d.mayClose f slot = true)
include hdrive hopened hstop hmay

/-- The open step of an unlogged drive closes without records. -/
theorem Device.closeStep_unlogged (hunlogged : v.unlogged = true) :
    d.closeStep f slot = (d.onDrive f slot fun v => { v with
      opened := none, closed := some r.number, past := v.past ++ [(r.number, v.chain)] }).completeStep (some r) 0 0 := by
  simp [Device.closeStep, hdrive, hopened, hstop, hmay, hunlogged]

/-- The open step of a logged drive, its seeding sent and no record another than a replay's, closes with its records. -/
theorem Device.closeStep_logged (hlogged : v.unlogged = false) (hsent : d.seedSent v r.number = true)
    (hrecord : d.recordBad f v r = none) :
    d.closeStep f slot = (((d.writeRecords f slot r).onDrive f slot fun v => { v with
      opened := none, closed := some r.number, past := v.past ++ [(r.number, v.chain)] }).completeStep (some r) 0
        ((if r.snap then 1 else 0) + (if r.exp then 2 else 0))).afterClose f slot r := by
  simp [Device.closeStep, hdrive, hopened, hstop, hmay, hlogged, hsent, hrecord]

end close

/-- A correctable error of the studbook buffer is reported before the step closes (R154). -/
theorem Device.doStepClose_corrected (d : Device) (f slot : Nat) {row : Nat} (hrow : row < 2048) :
    d.doStepClose f slot (some (row, .corrected)) = (d.rowReport .studbook row .corrected).closeStep f slot := by
  simp [Device.doStepClose, hrow]

/-! ## HOST_READ_COMPLETION of a batch DMA (R402, R413, R418, R420) -/

section returned
variable {d e : Device} {tag src : Nat} {q : HostReq} (hreturned : d.returned tag src q e)
include hreturned

/-- What a read was for takes its data, once the read's tag is free again. -/
theorem Device.doHostRead_returned {data : HostRead} (hfits : ∀ bs, data = .data bs → bs.length = q.len) :
    d.doHostRead tag data = Device.serveReads 4096 (e.landRead q data) := by
  obtain ⟨htag, rfl⟩ := hreturned
  cases data with
  | data bs => simp [Device.doHostRead, Device.readDone, htag, hfits]
  | abort => simp [Device.doHostRead, Device.readDone, htag]
  | timeout => simp [Device.doHostRead, Device.readDone, htag]

theorem Device.returned_drive (f slot : Nat) : e.drive f slot = d.drive f slot := by
  obtain ⟨-, rfl⟩ := hreturned
  rfl

end returned

/-- A request with which a batch DMA of a drive that has not stopped ends. -/
theorem Device.landRead_batch {d e : Device} {f slot k st detail : Nat} {v : Drive} {m : DmaD} {q : HostReq} {data : HostRead}
    (hjob : q.job = .batch f slot k) (hdrive : d.drive f slot = some v) (hdma : slook v.dmas k = some m)
    (hstop : v.stopped = none) (hends : d.dmaIn f m q data = (e, some (st, detail))) :
    d.landRead q data = e.endBatch f slot k m st := by
  simp only [Device.landRead, hjob, Device.landBatch, hdrive, hstop, hdma, Option.bind_some, Option.isSome_none,
    Bool.false_eq_true, if_false, hends]

/-- The last bytes of a DMA that all land end it (R413). -/
theorem Device.dmaIn_last {d e : Device} {f : Nat} {m : DmaD} {q : HostReq} {bs : List Byte} {n : Nat}
    (hland : d.landPieces f bs (m.loc + q.off) (windowsOf (m.loc + q.off) bs.length) 0 = (e, n, true))
    (hlast : (((d.hport.moves.find? (·.1 = q.job)).map (·.2)).getD (q.len, 0)).1 ≤ bs.length) :
    d.dmaIn f m q (.data bs) = (e, some (0, m.len)) := by
  simp only [Device.dmaIn, hland, if_pos hlast]

/-- A DMA whose last bytes have landed counts its tally. -/
theorem Device.endBatch_ok (d : Device) (f slot k : Nat) (m : DmaD) :
    d.endBatch f slot k m 0 =
      let e := (d.dropJobs fun j => decide (j = .batch f slot k)).onDrive f slot fun v =>
        { v with dmas := v.dmas.filter (·.1 ≠ k) }
      if m.inc ≠ 0 then e.tallyAdd f m.tally m.inc else e := rfl

/-- One that has failed stops its drive with the ring status and a stream address of zero (R420). -/
theorem Device.endBatch_failed (d : Device) (f slot k : Nat) (m : DmaD) {st : Nat} (hst : st ≠ 0) :
    d.endBatch f slot k m st = ((d.dropJobs fun j => decide (j = .batch f slot k)).onDrive f slot fun v =>
      { v with dmas := v.dmas.filter (·.1 ≠ k) }).stopDrive f slot 1 st 0 0 := by
  simp only [Device.endBatch, if_neg hst]

/-- Settles O30: a step is started, prepared and opened; an open step closes, without records and with them; the reads of a
batch DMA land its bytes or stop its drive. -/
theorem stepsOpenAndClose : Obligations.StepsOpenAndClose := by
  unfold Obligations.StepsOpenAndClose
  refine ⟨fun s v => ⟨fun sq idx x htakes hdrive halign hstop hfirst hprepared hnumber => ?start,
      fun sq idx x reads r ms hdesc hop hstarted hread hdrive hprepared hkept hturn hnumber hblocks hdigest => ?prepare,
      fun f slot r hdrive hunlogged hprepared hopened hstop hkept hflock => ?opens,
      fun f slot r hdrive hunlogged hopened hstop hmay => ?closeUnlogged⟩,
    fun s f slot v r => ⟨fun hdrive hlogged hopened hstop hmay hsent hrecord => ?closeLogged, fun row hrow => ?rowError⟩,
    fun s tag src f slot k q d v m hjob hreturned hdrive hdma hstop => ⟨fun bs e n hlen hland hlast => ?lands, ?fails⟩⟩
  case start =>
    rw [exec_stepDescriptor, Device.doStepDesc_starts htakes hdrive halign hstop hfirst hprepared hnumber]
    rfl
  case prepare =>
    rw [exec_stepPrepare, Device.doStepPrepare_prepares hdesc hop hstarted hread hdrive hprepared hkept hturn hnumber hblocks
      hdigest]
  case opens => rw [exec_stepOpen, Device.doStepOpen_unlogged hdrive hunlogged hprepared hopened hstop hkept hflock]
  case closeUnlogged =>
    rw [exec_stepClose, Device.doStepClose, Device.closeStep_unlogged hdrive hopened hstop hmay hunlogged]
  case closeLogged =>
    rw [exec_stepClose, Device.doStepClose, Device.closeStep_logged hdrive hopened hstop hmay hlogged hsent hrecord]
  case rowError => rw [exec_stepClose, exec_stepClose, Device.doStepClose_corrected _ _ _ hrow, Device.doStepClose]
  case lands =>
    have hresident := (Device.returned_drive hreturned f slot).trans hdrive
    have hfits : ∀ bs', HostRead.data bs = .data bs' → bs'.length = q.len := fun _ h => HostRead.data.inj h ▸ hlen
    rw [exec_hostReadCompletion, Device.doHostRead_returned hreturned hfits,
      Device.landRead_batch hjob hresident hdma hstop (Device.dmaIn_last hland hlast), Device.endBatch_ok]
  case fails =>
    have hresident := (Device.returned_drive hreturned f slot).trans hdrive
    rw [exec_hostReadCompletion, Device.doHostRead_returned (data := .abort) hreturned nofun,
      Device.landRead_batch hjob hresident hdma hstop rfl, Device.endBatch_failed _ _ _ _ _ (by decide)]

end Sys2Proof.Machine
end

section
/-!
An increment or a value that arrives for a tally: what it leaves in the tally, and what it leaves alone (R197, R199, R245).
-/
namespace Sys2Proof.Machine

/-- The devices hold the same in every tally but p, in every paddock, in LPDDR5X and in host memory. -/
def Device.sameButTally (d e : Device) (p : TallyAt) : Prop :=
  (∀ q, q ≠ p → e.tallyGet q = d.tallyGet q) ∧ (∀ n, (e.site n).pad = (d.site n).pad) ∧ e.mem = d.mem ∧ e.host = d.host

theorem Device.tallyPut_pad (d : Device) (p : TallyAt) (v : W32) (m : Nat) :
    ((d.tallyPut p v).site m).pad = (d.site m).pad := by
  cases p with
  | pen n t =>
    simp only [Device.tallyPut, Device.site_onSite]
    split
    · next h => rw [h.1]
    · rfl
  | global g => rfl

/-- A tally of an identifier, once set, holds the value, and nothing else has changed. -/
theorem Device.tallyPut_sameButTally {d : Device} {f id : Nat} {p : TallyAt} (hp : d.tallyAt f id = some p) (v : W32) :
    (d.tallyPut p v).tallyGet p = v ∧ d.sameButTally (d.tallyPut p v) p := by
  have hget (q : TallyAt) : (d.tallyPut p v).tallyGet q = if q = p then v else d.tallyGet q :=
    d.tallyGet_tallyPut p q v fun n t hpen => d.tallyAt_pen f id n t (hp.trans (congrArg some hpen))
  obtain ⟨si, g, hput⟩ := d.tallyPut_eq p v
  exact ⟨by rw [hget, if_pos rfl], fun q hq => by rw [hget, if_neg hq], d.tallyPut_pad p v, by rw [hput], by rw [hput]⟩

/-- A flit that has reached its destination has changed no tally and no memory. -/
theorem Device.tookCtl_sameButTally {d e : Device} {c : CtlFlit} {h : Option Nat} (htook : d.tookCtl c h e) (p : TallyAt) :
    d.sameButTally e p := by
  have hget (q : TallyAt) : e.tallyGet q = d.tallyGet q := Device.tookCtl_tallyGet htook q
  have hsite (n : Nat) : e.site n = d.site n := Device.tookCtl_site htook n
  obtain ⟨he, tr, ctl, rfl⟩ := Device.tookCtl_eq htook
  exact ⟨fun q _ => hget q, fun n => by rw [hsite], rfl, rfl⟩

theorem Device.sameButTally_trans {a b c : Device} {p : TallyAt} (h : a.sameButTally b p) (k : b.sameButTally c p) :
    a.sameButTally c p := by
  obtain ⟨htally, hpad, hmem, hhost⟩ := h
  obtain ⟨htally', hpad', hmem', hhost'⟩ := k
  exact ⟨fun q hq => (htally' q hq).trans (htally q hq), fun n => (hpad' n).trans (hpad n), hmem'.trans hmem,
    hhost'.trans hhost⟩

/-- What a flit for a tally stores there on its arrival, and nothing else. -/
theorem Device.tallyPut_took {d e : Device} {f id : Nat} {p : TallyAt} {c : CtlFlit} {h : Option Nat}
    (hp : d.tallyAt f id = some p) (htook : d.tookCtl c h e) (v : W32) :
    (e.tallyPut p v).tallyGet p = v ∧ d.sameButTally (e.tallyPut p v) p := by
  obtain ⟨hget, hrest⟩ := Device.tallyPut_sameButTally ((Device.tookCtl_tallyAt htook f id).trans hp) v
  exact ⟨hget, Device.sameButTally_trans (Device.tookCtl_sameButTally htook p) hrest⟩

/-- Settles O10: the flit's arrival changes no tally, and its effect its own alone. -/
theorem talliesTakeTheirIncrementsOnce : Obligations.TalliesTakeTheirIncrementsOnce := by
  unfold Obligations.TalliesTakeTheirIncrementsOnce
  intro s f id v p e hp behind rest
  have hbehind : behind = p.pen? := by cases p <;> rfl
  rw [hbehind]
  refine ⟨fun htook hgood => ?add, fun htook hbad => ?stop, fun htook => ?set⟩
  case add =>
    obtain ⟨hget, hrest⟩ := Device.tallyPut_took hp htook (s.dev.tallyGet p + BitVec.ofNat 32 v)
    refine ⟨⟨e.tallyPut p (s.dev.tallyGet p + BitVec.ofNat 32 v), s.pending⟩, ?_, rfl, hget, hrest⟩
    rw [exec_controlTallyAdd, Device.doCtlAdd_took hp htook, hgood]
    rfl
  case stop =>
    rw [exec_controlTallyAdd, Device.doCtlAdd_took hp htook, hbad]
    rfl
  case set =>
    obtain ⟨hget, hrest⟩ := Device.tallyPut_took hp htook (BitVec.ofNat 32 v)
    refine ⟨⟨e.tallyPut p (BitVec.ofNat 32 v), s.pending⟩, ?_, rfl, hget, hrest⟩
    rw [exec_controlTallySet, Device.doCtlSet_took hp htook]

end Sys2Proof.Machine
end

section
/-!
Flow commands of a running pen's fetch unit: NOP, JUMP, CALL, RETURN and END (R159, R162, R165, R166, R178, R182).
-/
namespace Sys2Proof.Machine

section flow
variable {d : Device} {n : Nat} {v : Drive} {w : Nat}

/-- A NOP whose words are all there is passed. -/
theorem Device.doNop_passes {k : Nat} (hnext : d.nextWord n = some (v, .nop k, w))
    (hthere : k ≤ (d.site n).seqr.fetched.length) : d.doNop n = (d.skipWords n k).pump n := by
  simp only [Device.doNop, hnext, if_neg (Nat.not_lt.mpr hthere)]

/-- END without a STEP of one queue alone ends the stream, and with the last stream the drive. -/
theorem Device.doEnd_ends (hnext : d.nextWord n = some (v, .stop, w)) (hsteps : (d.site n).seqr.stepF = (d.site n).seqr.stepB) :
    d.doEnd n = ((d.onSite n (Site.onSeqr · fun s => { s with ended := true, fetched := [] })).leftStop n).endCheck
      (d.site n).fold := by
  simp only [Device.doEnd, hnext, hsteps, bne_self_eq_false, Bool.false_eq_true, if_false]

section jump
variable {x : Nat} (hnext : d.nextWord n = some (v, .jump x, w))
include hnext

theorem Device.doJump_goes {l : Nat} (hlimit : d.streamLimit n v x = some l) : d.doJump n = d.goTo n x l := by
  simp only [Device.doJump, hnext, hlimit]

/-- A target outside the drive's streams stops the drive: BAD_STREAM_ADDRESS. -/
theorem Device.doJump_stops (hlimit : d.streamLimit n v x = none) : d.doJump n = d.stopAt n 0x1D (d.site n).seqr.pc := by
  simp only [Device.doJump, hnext, hlimit]

end jump

section call
variable {x : Nat} (hnext : d.nextWord n = some (v, .call x, w))
include hnext

/-- A CALL with room on the return stack pushes the address of the next command and goes on at its target. -/
theorem Device.doCall_pushes {l : Nat} (hlimit : d.streamLimit n v x = some l) (hroom : (d.site n).seqr.stack.length < 8) :
    d.doCall n = d.onSite n fun t => { t with seqr := { t.seqr with
      pc := x, limit := l, fetched := [], stack := (t.seqr.pc + 16) :: t.seqr.stack } } := by
  simp only [Device.doCall, hnext, hlimit, if_neg (Nat.not_le.mpr hroom), Device.goTo, Device.onSite_onSite]
  exact Device.onSite_congr rfl

/-- A CALL that finds eight entries stops the drive: STREAM_DEPTH. -/
theorem Device.doCall_full (hfull : 8 ≤ (d.site n).seqr.stack.length) : d.doCall n = d.stopAt n 0x1C (d.site n).seqr.pc := by
  simp only [Device.doCall, hnext, if_pos hfull]

end call

section ret
variable (hnext : d.nextWord n = some (v, .ret, w))
include hnext

/-- A RETURN goes on at the address on top of the return stack. -/
theorem Device.doRet_pops {x l : Nat} {r : List Nat} (hstack : (d.site n).seqr.stack = x :: r)
    (hlimit : d.streamLimit n v x = some l) :
    d.doRet n = d.onSite n fun t => { t with seqr := { t.seqr with pc := x, limit := l, fetched := [], stack := r } } := by
  simp only [Device.doRet, hnext, hstack, hlimit, Device.goTo, Device.onSite_onSite]
  rfl

/-- A RETURN that finds no entry stops the drive: STREAM_DEPTH. -/
theorem Device.doRet_empty (hstack : (d.site n).seqr.stack = []) : d.doRet n = d.stopAt n 0x1C (d.site n).seqr.pc := by
  simp only [Device.doRet, hnext, hstack]

end ret

end flow

/-- Settles O11, command by command: where the stream goes on, then where the drive stops. -/
theorem flowCommandsFollowTheStream : Obligations.FlowCommandsFollowTheStream := by
  unfold Obligations.FlowCommandsFollowTheStream
  refine ⟨fun s n v w => ⟨fun k hnext hthere => ?nop, fun x l hnext hlimit => ?jump, fun x l hnext hlimit hroom _ => ?call,
      fun x r l hnext hstack hlimit _ => ?ret, fun hnext hsteps => ?stop⟩,
    fun s n v w => ⟨fun x hnext hlimit => ?jumpOut, fun x hnext hfull => ?callFull, fun hnext hstack => ?retEmpty⟩⟩
  case nop =>
    rw [exec_nop, Device.doNop_passes hnext hthere]
    rfl
  case jump =>
    rw [exec_jump, Device.doJump_goes hnext hlimit]
    rfl
  case call => rw [exec_call, Device.doCall_pushes hnext hlimit hroom]
  case ret => rw [exec_ret, Device.doRet_pops hnext hstack hlimit]
  case stop =>
    rw [exec_endStream, Device.doEnd_ends hnext hsteps]
    rfl
  case jumpOut => rw [exec_jump, Device.doJump_stops hnext hlimit]
  case callFull => rw [exec_call, Device.doCall_full hnext hfull]
  case retEmpty => rw [exec_ret, Device.doRet_empty hnext hstack]

end Sys2Proof.Machine
end

section
/-!
The shears: a memory shears' oldest request, and the update of one block of a plan by the link shears (R166, R206, R216, R218,
R222 to R224, R339).
-/
namespace Sys2Proof.Machine

/-! ## MEMORY_SHEARS_UPDATE (R206, R218) -/

section memory
variable {d e : Device} {u : Nat} {r : ShearReq} {rest : List ShearReq} (hqueue : d.shears.mem.getD u [] = r :: rest)
include hqueue

/-- An elementwise request whose blocks are all written counts, and its drive may end. -/
theorem Device.doMemShears_elementwise (hrule : r.cmd.rule = 0 ∨ r.cmd.rule = 1)
    (hwritten : Device.shearBlocks r (if r.cmd.copyWord.pair ∧ r.cmd.copyWord.en then 2 else 1) (r.cmd.count / 2048)
      { d with shears := { d.shears with mem := d.shears.mem.set u rest } } 0 = (e, true)) :
    d.doMemShears u = (e.hubAdd r.fold r.done r.inc).endCheck r.fold := by
  simp only [Device.doMemShears, hqueue, if_pos hrule, hwritten, if_true]

/-- So does a matrix request. -/
theorem Device.doMemShears_matrix (hrule : r.cmd.rule = 2 ∨ r.cmd.rule = 3)
    (hwritten : ({ d with shears := { d.shears with mem := d.shears.mem.set u rest } } : Device).shearMatrix r = (e, true)) :
    d.doMemShears u = (e.hubAdd r.fold r.done r.inc).endCheck r.fold := by
  have hmatrix : ¬(r.cmd.rule = 0 ∨ r.cmd.rule = 1) := by omega
  simp only [Device.doMemShears, hqueue, if_neg hmatrix, hwritten, if_true]

end memory

/-! ## LINK_SHEARS_BLOCK_UPDATE (R216, R222 to R224, R339) -/

/-- The block with which block i forms a pair (R216). -/
def pairMate (i : Nat) : Nat := if i % 2 = 0 then i + 1 else i - 1

/-- Block j of the plan is noted with its request r as the shard's block i, taken from the run and written (R222). -/
def Device.storeUpdated (d : Device) (slot j : Nat) (r : ShearReq) (b0 i : Nat) (new : StateBlock) : Device :=
  (({ d with shears := { d.shears with link := d.shears.link.map fun q =>
    if q = r then { q with blocks := nins r.blocks i } else q } } : Device).onRun slot fun q =>
      { q with blocks := q.blocks.filter (·.1 ≠ j) }).writeUpdated r b0 i new

/-- What is handed on once block i is updated: the block alone, or with its mate once both of the pair are (R216, R223). -/
def Device.handUpdated (d : Device) (slot plan : Nat) (r : ShearReq) (p : PlanE) (b0 i : Nat) (whole : Bool) : Device :=
  if r.cmd.copyWord.pair = false then d.handBlock slot plan r p b0 i whole
  else if r.blocks.contains (pairMate i) then
    (d.handBlock slot plan r p b0 (min i (pairMate i)) whole).handBlock slot plan r p b0 (max i (pairMate i))
      (whole && max i (pairMate i) = min i (pairMate i))
  else d

/-- The first of the blocks handed on takes the mark of a whole shard. -/
theorem Device.handUpdated_eq (d : Device) (slot plan : Nat) (r : ShearReq) (p : PlanE) (b0 i : Nat) (whole : Bool) :
    let ready : List Nat := if !r.cmd.copyWord.pair then [i]
      else if r.blocks.contains (pairMate i) then [min i (pairMate i), max i (pairMate i)] else []
    ready.foldl (fun d q => d.handBlock slot plan r p b0 q (whole && q = ready.headD q)) d =
      d.handUpdated slot plan r p b0 i whole := by
  unfold Device.handUpdated
  cases r.cmd.copyWord.pair with
  | false => simp
  | true => cases r.blocks.contains (pairMate i) <;> simp

section link
variable {d : Device} {k plan j slot per leaf : Nat} {run : RunC} {p : PlanE} {grad : List Byte}
  (hrun : d.runOf plan = some (slot, run)) (hplan : d.planOf plan = some p)
  (hblock : run.blocks.find? (·.1 = j) = some (j, grad)) (hper : max 1 (d.shardSize p / 8192) = per)
  (hleaf : d.leavesHosted.getD (j / per) 64 = leaf)
include hrun hplan hblock hper hleaf

/-- A block without a request waits. -/
theorem Device.doLinkShears_waits (hnone : (d.shears.link.find? fun q => q.cmd.plan = plan && q.leaf = leaf) = none) :
    d.doLinkShears k plan j = d := by
  subst hper hleaf
  simp only [Device.doLinkShears, hrun, hplan, hblock, hnone]

section found
variable {r : ShearReq} (hk : k < 6)
  (hasks : (d.shears.link.find? fun q => q.cmd.plan = plan && q.leaf = leaf) = some r)
include hk hasks

/-- A block beyond the request's count stops its drive: BAD_OPERAND. -/
theorem Device.doLinkShears_beyond (hbeyond : r.cmd.count / 2048 ≤ j % per) :
    d.doLinkShears k plan j = d.stopDrive r.fold r.slot 0 0x03 r.pen r.addr := by
  subst hper hleaf
  simp only [Device.doLinkShears, hrun, hplan, hblock, hasks, if_neg (Nat.not_le.mpr hk), if_pos hbeyond]

/-- A block free of poison is updated, stored and handed on, and the request and the run may end with it. -/
theorem Device.doLinkShears_updates (hwithin : j % per < r.cmd.count / 2048)
    (hgood : (d.transferRead r.fold (r.cmd.state + j % per * blockSize) blockSize []).poisonLocal r.fold
      (r.cmd.state + j % per * blockSize) blockSize = false) :
    d.doLinkShears k plan j =
      let i := j % per
      let x := r.cmd.state + i * blockSize
      let e := d.transferRead r.fold x blockSize []
      let done := nins r.blocks i
      let new := r.cmd.blockRule (wordsOfBytes grad) (e.stateBlock r.fold x)
      (((e.storeUpdated slot j r (leaf * per) i new).handUpdated slot plan r p (leaf * per) i
        ((List.range per).all fun q => done.contains q)).endLinkShear r done.length).endRun slot := by
  subst hper hleaf
  simp only [Device.doLinkShears, hrun, hplan, hblock, hasks, if_neg (Nat.not_le.mpr hk), if_neg (Nat.not_le.mpr hwithin),
    hgood, Bool.false_eq_true, if_false, ← Device.handUpdated_eq]
  rfl

end found

end link

/-- Settles O24: the memory shears by rule, the link shears by what its block finds. -/
theorem shearsCarryOutTheirRequests : Obligations.ShearsCarryOutTheirRequests := by
  unfold Obligations.ShearsCarryOutTheirRequests
  refine ⟨fun s u r rest d hqueue => ⟨fun hrule hwritten => ?elementwise, fun hrule hwritten => ?matrix⟩,
    fun s k plan j slot run p grad hrun hplan hblock => ⟨fun hnone => ?waits, fun r hk hasks hbeyond => ?beyond,
      fun r hk hasks hwithin hgood => ?updates⟩⟩
  case elementwise => rw [exec_memoryShearsUpdate, Device.doMemShears_elementwise hqueue hrule hwritten]
  case matrix => rw [exec_memoryShearsUpdate, Device.doMemShears_matrix hqueue hrule hwritten]
  case waits => rw [exec_linkShearsBlockUpdate, Device.doLinkShears_waits hrun hplan hblock rfl rfl hnone]
  case beyond => rw [exec_linkShearsBlockUpdate, Device.doLinkShears_beyond hrun hplan hblock rfl rfl hk hasks hbeyond]
  case updates =>
    rw [exec_linkShearsBlockUpdate, Device.doLinkShears_updates hrun hplan hblock rfl rfl hk hasks hwithin hgood]
    rfl

end Sys2Proof.Machine
end

section
/-!
Collectives: a COLLECT that starts, packets of a plan's run that land, and the repair of a laggard (R166, R207, R224, R335,
R337, R340, R343 to R346).
-/
namespace Sys2Proof.Machine

/-! ## COLLECTIVE_START (R207, R335 to R340) -/

/-- A COLLECT has taken a plan slot (R340). -/
def Device.takeSlot (d : Device) (slot : Nat) (c : Coll) (rest : List Coll) (p : PlanE) : Device :=
  { d with coll := { d.coll with queue := rest, slots := sput d.coll.slots slot ⟨c, [], d.dueOf p, [], [], [], []⟩ } }

/-- The own shards of an all-gather are written and spread (R337). -/
def Device.startGather (d : Device) (slot : Nat) (c : Coll) (p : PlanE) : Device :=
  let size := d.shardSize p
  d.leavesHosted.zipIdx.foldl (fun d x =>
    let bs := d.readLocal c.fold (c.buf + x.2 * size) size
    let d := d.writeLocal c.fold (p.out + x.1 * size) bs []
    (d.spread slot c.plan x.1 p (x.1 * size) bs true).shardDone slot c.fold x.1 p) d

/-- The bytes of an own root's broadcast are written and spread (R337). -/
def Device.startBroadcast (d : Device) (slot : Nat) (c : Coll) (p : PlanE) : Device :=
  let bs := d.readLocal c.fold c.buf p.size
  ((d.writeLocal c.fold p.out bs []).spread slot c.plan p.root p 0 bs true).shardDone slot c.fold 0 p

/-- The start of a plan by its operation. -/
def Device.startOp (d : Device) (slot : Nat) (c : Coll) (p : PlanE) : Device :=
  if p.op ≤ 1 then d.startReduce slot c p
  else if p.op = 2 then d.startGather slot c p
  else if d.leavesHosted.contains p.root then d.startBroadcast slot c p
  else d

/-- The oldest COLLECT, its buffer free of poison, starts in the lowest free slot; then it counts, and its drive may end. -/
theorem Device.doCollStart_starts {d : Device} {c : Coll} {rest : List Coll} {slot : Nat} {p : PlanE} {errs : List (Nat × Ecc)}
    (hqueue : d.coll.queue = c :: rest) (hslot : [0, 1, 2, 3].find? (fun i => (slook d.coll.slots i).isNone) = some slot)
    (hplan : d.planOf c.plan = some p)
    (hgood : (d.transferRead c.fold c.buf c.bytes errs).poisonWords c.fold c.buf c.bytes = []) :
    d.doCollStart errs = ((((d.transferRead c.fold c.buf c.bytes errs).takeSlot slot c rest p).startOp slot c p).hubAdd
      c.fold c.done c.inc).endCheck c.fold := by
  simp only [Device.doCollStart, hqueue, hslot, hplan, hgood, ne_eq, not_true_eq_false, if_false]
  rfl

/-- The leaves that this device hosts stay when a COLLECT has read its buffer and taken its slot. -/
theorem Device.leavesHosted_takeSlot (d : Device) (f x n : Nat) (errs : List (Nat × Ecc)) (slot : Nat) (c : Coll)
    (rest : List Coll) (p : PlanE) :
    ((d.transferRead f x n errs).takeSlot slot c rest p).leavesHosted = d.leavesHosted := by
  obtain ⟨si, he, me, fr, hread⟩ := d.transferRead_same f x n errs
  rw [hread]
  rfl

section startOp
variable {d : Device} (slot : Nat) (c : Coll) {p : PlanE}

theorem Device.startOp_reduce (hop : p.op ≤ 1) : d.startOp slot c p = d.startReduce slot c p := if_pos hop

theorem Device.startOp_gather (hop : p.op = 2) : d.startOp slot c p = d.startGather slot c p := by
  simp [Device.startOp, hop]

theorem Device.startOp_broadcast (hop : p.op = 3) (hroot : d.leavesHosted.contains p.root = true) :
    d.startOp slot c p = d.startBroadcast slot c p := by
  simp only [Device.startOp, hop, hroot]
  rfl

/-- The broadcast of another device's root waits for its bytes. -/
theorem Device.startOp_waits (hop : p.op = 3) (hroot : d.leavesHosted.contains p.root = false) : d.startOp slot c p = d := by
  simp only [Device.startOp, hop, hroot]
  rfl

end startOp

/-! ## Packets of a plan's run (R224, R335, R337, R345) -/

section packet
variable {d e : Device} {k : Nat} {p : Packet} {pe : PlanE} (hplan : d.planOf p.plan = some pe) (htaken : d.takesIn k p e)
include hplan htaken

section run
variable {slot : Nat} {r : RunC} (hrun : d.runOf p.plan = some (slot, r))
include hrun

/-- A partial for a shard of this device joins the tree. -/
theorem Device.doReduce_joins (hown : d.hostOf (p.offset / d.shardSize pe) = d.flock.rank) :
    d.doReduce k p = ((e.addPartial slot pe ⟨p.leaf, p.node, p.offset, p.data⟩).withhold slot k p).endRun slot := by
  simp only [Device.doReduce, hrun, hplan, if_neg (not_not.mpr hown), Device.deliver_takesIn htaken]

theorem Device.doGather_lands : d.doGather k p = e.landGather slot r.coll.fold pe p := by
  simp only [Device.doGather, hrun, hplan, Device.deliver_takesIn htaken]

/-- The data of a repair lands, and with the end of the run the detachment ends. -/
theorem Device.doRepair_lands {g : Nat} (hdata : p.data ≠ []) (hgroup : p.group = some g) :
    d.doRepair k p =
      let x := e.landGather slot r.coll.fold pe p
      if (x.runOf p.plan).isNone then x.setLag g none else x := by
  simp only [Device.doRepair, hplan, if_neg hdata, hrun, Device.deliver_takesIn htaken, hgroup]

end run

/-- A device that is not itself detached and has ended the run sends the range that a repair without data asks for. -/
theorem Device.doRepair_serves (hdata : p.data = []) (hwith : ∀ g, p.group = some g → d.lagOf g = none)
    (hended : p.tally ≤ sget 0 d.coll.ended p.plan) :
    d.doRepair k p = e.sendRepair pe
      { e.packetTo p.src 3 10 with slot := p.slot, plan := p.plan, group := p.group } p.offset := by
  have hlag : p.group.bind d.lagOf = none := Option.bind_eq_none_iff.mpr hwith
  simp only [Device.doRepair, hplan, if_pos hdata, hlag, Bool.false_eq_true, false_and, if_false,
    if_neg (Nat.not_lt.mpr hended), Device.deliver_takesIn htaken]

end packet

/-! ## MULTICAST_DATA (R343, R344) -/

/-- A packet leaves on the egresses of its group's entry, its credits owed to the port it came by (R318, R343). -/
def Device.forwardFrom (d : Device) (x : GroupE) (k : Nat) (p : Packet) : Device :=
  (x.outs (some k)).foldl (fun d o => d.transmit o { p with cls := d.classOut (some k) p.cls o }) (d.owe k p)

section multicast
variable {d : Device} {k g : Nat} {p : Packet} {x : GroupE}

theorem Device.egressReady_of_all (hready : ∀ o, o ∈ x.outs (some k) →
    (d.link o).maySend { p with cls := d.classOut (some k) p.cls o } = true) : d.egressReady x k p = true :=
  List.all_eq_true.mpr hready

theorem Device.egressReady_of_exists (hlacks : ∃ o, o ∈ x.outs (some k) ∧
    (d.link o).maySend { p with cls := d.classOut (some k) p.cls o } = false) : d.egressReady x k p = false := by
  obtain ⟨o, ho, hsend⟩ := hlacks
  exact List.all_eq_false.mpr ⟨o, ho, by rw [hsend]; decide⟩

/-- Whether a packet of a group is delivered here: the entry delivers, and the member has not detached (R343, R344). -/
def Device.delivers (d : Device) (g : Nat) (x : GroupE) : Bool :=
  x.deliver && !((d.lagOf g).map (·.det)).getD false

theorem Device.delivers_of_attached (hdeliver : x.deliver = true) (hattached : ∀ l, d.lagOf g = some l → l.det = false) :
    d.delivers g x = true := by
  cases hlag : d.lagOf g with
  | none => simp [Device.delivers, hdeliver, hlag]
  | some l => simp [Device.delivers, hdeliver, hlag, hattached l hlag]

theorem Device.delivers_of_detached (hgone : x.deliver = false ∨ ∃ l, d.lagOf g = some l ∧ l.det = true) :
    d.delivers g x = false := by
  rcases hgone with hdeliver | ⟨l, hlag, hdet⟩
  · simp [Device.delivers, hdeliver]
  · simp [Device.delivers, hlag, hdet]

/-- A good packet of a running plan on a keyed port: it stays, is held back, is forwarded, or is forwarded and delivered. -/
theorem Device.doMulticast_good {slot : Nat} {r : RunC} {pe : PlanE} (hrun : d.runOf p.plan = some (slot, r))
    (hplan : d.planOf p.plan = some pe) (hreceives : (d.link k).receives = true) (htag : p.tagOk = true)
    (hmark : bit p.status 7 = false) (hgroup : p.group = some g) (hentry : slook d.coll.groups g = some x) (room : Bool) :
    d.doMulticast k p room =
      if !d.egressReady x k p then d.stopHold g
      else if d.delivers g x ∧ !room then d.holdBack g k p
      else if !d.delivers g x then d.forwardFrom x k p
      else ((d.forwardFrom x k p).stopHold g).landGather slot r.coll.fold pe p := by
  simp only [Device.doMulticast, Device.delivers, Device.forwardFrom, hgroup, hentry, hrun, hplan, hreceives, htag, hmark,
    Option.bind_some, Option.map_some, Option.isNone_some, Bool.not_true, Bool.not_false, Bool.and_false, Bool.and_true,
    Bool.false_eq_true, if_false, false_or]
  cases d.lagOf g <;> rfl

end multicast

/-! ## REPAIR_REQUEST and LAGGARD_FAIL (R345, R346) -/

/-- Whom a detached member asks: its foster, where that is a member of the group, else the group's source (R345). -/
def Device.repairServer (d : Device) (ge : GroupE) : Nat :=
  match d.flock.foster with | some t => if bit ge.mask t then t else ge.src | none => ge.src

section lag
variable {d : Device} {g : Nat} {l : Lag} (hlag : d.lagOf g = some l)
include hlag

/-- A detached member asks once, for each stream offset that it misses. -/
theorem Device.doRepairRequest_asks {slot : Nat} {r : RunC} {pe : PlanE} {ge : GroupE} (hdet : l.det = true)
    (hasked : l.asked = false) (hrun : d.runOf l.plan = some (slot, r)) (hplan : d.planOf l.plan = some pe)
    (hentry : slook d.coll.groups g = some ge) :
    d.doRepairRequest g = (d.missing pe r l.off).foldl (fun e o => e.sendTo { e.packetTo (d.repairServer ge) 3 10 with
      slot := slot, plan := l.plan, group := some g, offset := o, tally := sget 0 e.coll.ended l.plan + 1 })
      (d.setLag g (some { l with asked := true })) := by
  simp only [Device.doRepairRequest, hlag, hdet, hasked, hrun, hplan, hentry, Bool.not_true, Bool.false_eq_true, or_self,
    if_false]
  rfl

/-- A repair not done 1,000,000 ticks after detachment: the device declares itself failed. -/
theorem Device.doLaggardFail_due (hdet : l.det = true) (hdue : l.since + 1000000 ≤ d.watch.age) :
    d.doLaggardFail g = ((d.setLag g none).event .laggardFail [g]).declareFailed := by
  simp only [Device.doLaggardFail, hlag, hdet, Bool.not_true, Bool.false_eq_true, false_or, if_neg (Nat.not_lt.mpr hdue)]

theorem Device.doLaggardFail_early (hearly : d.watch.age < l.since + 1000000) : d.doLaggardFail g = d := by
  simp only [Device.doLaggardFail, hlag, hearly, or_true, if_true]

end lag

/-- Settles O25: the start by the plan's operation, a packet by its kind, a multicast packet by credits and room, a laggard by
what it has asked for and when. -/
theorem collectivesStartLandAndRepair : Obligations.CollectivesStartLandAndRepair := by
  unfold Obligations.CollectivesStartLandAndRepair
  refine ⟨fun s c rest slot p es hqueue hslot hplan hgood => ?start,
    fun s k p slot r e hrun hplan hreceives htag hmark => ⟨fun hdst hown => ?reduce, fun hdst => ?gather,
      fun g hdst hdata hgroup => ?repairLands, fun hdst hdata hwith hended => ?repairServes,
      fun g x room hgroup hentry => ?multicast⟩,
    fun s g l hlag hdet => ⟨fun slot r e ge hasked hrun hplan hentry => ?asks, fun hdue => ?fails, fun hearly => ?early⟩⟩
  case start =>
    have hstart := Device.doCollStart_starts hqueue hslot hplan hgood
    have hleaves := s.dev.leavesHosted_takeSlot c.fold c.buf c.bytes es slot c rest p
    refine ⟨fun hop => ?reduces, fun hop => ?gathers, fun hop hroot => ?broadcasts, fun hop hroot => ?waits⟩
    case reduces =>
      rw [exec_collectiveStart, hstart, Device.startOp_reduce slot c hop]
      rfl
    case gathers =>
      rw [exec_collectiveStart, hstart, Device.startOp_gather slot c hop]
      rfl
    case broadcasts =>
      rw [exec_collectiveStart, hstart, Device.startOp_broadcast slot c hop (by rwa [hleaves])]
      rfl
    case waits =>
      rw [exec_collectiveStart, hstart, Device.startOp_waits slot c hop (by rwa [hleaves])]
      rfl
  case reduce => rw [exec_reduceData, Device.doReduce_joins hplan ⟨hreceives, hdst, hmark, htag, rfl⟩ hrun hown]
  case gather => rw [exec_gatherData, Device.doGather_lands hplan ⟨hreceives, hdst, hmark, htag, rfl⟩ hrun]
  case repairLands =>
    rw [exec_repair, Device.doRepair_lands hplan ⟨hreceives, hdst, hmark, htag, rfl⟩ hrun hdata hgroup]
  case repairServes =>
    rw [exec_repair, Device.doRepair_serves hplan ⟨hreceives, hdst, hmark, htag, rfl⟩ hdata hwith hended]
  case multicast =>
    have hmulticast (room : Bool) := Device.doMulticast_good hrun hplan hreceives htag hmark hgroup hentry room
    refine ⟨fun hlacks => ?stays, fun hready => ⟨fun hgone => ?forwards, fun hdeliver hattached =>
      ⟨fun hroom => ?delivers, fun hroom => ?holdsBack⟩⟩⟩
    case stays =>
      rw [exec_multicastData, hmulticast, Device.egressReady_of_exists hlacks]
      rfl
    case forwards =>
      rw [exec_multicastData, hmulticast, Device.egressReady_of_all hready, Device.delivers_of_detached hgone]
      rfl
    case delivers =>
      rw [exec_multicastData, hmulticast, Device.egressReady_of_all hready, Device.delivers_of_attached hdeliver hattached,
        hroom]
      rfl
    case holdsBack =>
      rw [exec_multicastData, hmulticast, Device.egressReady_of_all hready, Device.delivers_of_attached hdeliver hattached,
        hroom]
      rfl
  case asks =>
    rw [exec_repairRequest, Device.doRepairRequest_asks hlag hdet hasked hrun hplan hentry]
    rfl
  case fails => rw [exec_laggardFail, Device.doLaggardFail_due hlag hdet hdue]
  case early => rw [exec_laggardFail, Device.doLaggardFail_early hlag hearly]

end Sys2Proof.Machine
end

section
/-!
The watch's registers and comparators: a reload, the latched read, a comparator that fires, a WATCH_WAIT that is tried again
(R203, R204, R283, R285, R397, R522).
-/
namespace Sys2Proof.Machine

/-! ## WATCH_CTRL.reload (R283) -/

/-- Without a resident drive and a comparator in use a block that does not run free is unlocked. -/
theorem Device.doReload_unlocks {d : Device} (hnone : d.anyDrive = false) (hcmps : ∀ c ∈ d.watch.cmps, c = none)
    (hlocked : d.watch.free = false) : d.doReload 0 = { d with watch := { d.watch with
      state := 0, flag := false, behind := 0, phase := 0, last := none, row := 0, skewed := false, grown := 0
      fresh := some 0 } } := by
  have hunused : d.watch.cmps.any (·.isSome) = false :=
    List.any_eq_false.mpr fun c hc => by rw [hcmps c hc]; decide
  simp only [Device.doReload, Device.reload, hnone, hunused, hlocked, Bool.false_eq_true, or_self, if_false, if_true]

theorem Device.doReload_refused {d : Device} (hbusy : d.anyDrive = true ∨ ∃ c, c ∈ d.watch.cmps ∧ c ≠ none) :
    d.doReload 0 = d.refuse 0 0x03 0x11010 false := by
  have hused : d.anyDrive = true ∨ d.watch.cmps.any (·.isSome) = true :=
    hbusy.imp_right fun ⟨c, hc, hsome⟩ => List.any_eq_true.mpr ⟨c, hc, Option.isSome_iff_ne_none.mpr hsome⟩
  simp only [Device.doReload, Device.reload, if_pos hused, if_true]

/-! ## WATCH_LO_READ (R397, R522) -/

theorem Device.doWatchLo_latches {d : Device} (hserves : d.recovering = false) : d.doWatchLo 0 =
    ({ d with watch := { d.watch with hiLatch := d.now / 2 ^ 32 % 2 ^ 32 } } : Device).emit
      (.reply (.host 0) (leBytes 4 (d.now % 2 ^ 32))) := by
  have hshut : ¬(0 ≠ 0 ∨ d.sec.state = 3 ∨ d.sec.state = 4) := by simpa [Device.recovering] using hserves
  simp only [Device.doWatchLo, if_neg hshut]

theorem Device.doWatchLo_vf {d : Device} {fn : Nat} (hvf : fn ≠ 0) :
    d.doWatchLo fn = d.emit (.reply (.host fn) (zeros 4)) := if_pos (.inl hvf)

/-! ## COMPARATOR_FIRE (R204, R285) -/

section fire
variable {d : Device} {c : Nat} {x : Comparator} (hcmp : d.watch.cmps.getD c none = some x)
include hcmp

theorem Device.doFire_due (hdue : x.v ≤ d.now) : d.doFire c =
    x.users.foldl (fun d u => d.fire u) { d with watch := { d.watch with cmps := d.watch.cmps.set c none } } := by
  simp only [Device.doFire, hcmp, if_neg (Nat.not_lt.mpr hdue)]

theorem Device.doFire_early (hearly : d.now < x.v) : d.doFire c = d := by
  simp only [Device.doFire, hcmp, if_pos hearly]

end fire

/-! ## WATCH_WAIT_RETRY (R203) -/

section retry
variable {d : Device} {n : Nat} {q : Queue} {v : Nat} {a : Active} {l : Deadline} {t : Nat × Drive} (hgoes : d.goes n = some t)
  (hslot : (d.site n).seqr.slotAt q .sync 0 = some a) (hbody : a.cmd.body = .watchWait l) (hwant : a.want = some v)
  (hjoined : a.joined = false) (hwaits : a.phase = .waiting)
include hgoes hslot hbody hwant hjoined hwaits

/-- A refused WATCH_WAIT is not tried again within 1,024 ticks. -/
theorem Device.doWatchRetry_early (hearly : d.now < a.asked + 1024) : d.doWatchRetry n q = d := by
  simp only [Device.doWatchRetry, hgoes, hslot, hbody, hwant, hjoined, hwaits, if_pos hearly]

/-- Tried again once the count has come it completes. -/
theorem Device.doWatchRetry_completes (hdue : a.asked + 1024 ≤ d.now) (hcome : v ≤ d.now) :
    d.doWatchRetry n q = Device.setDone n d a := by
  simp only [Device.doWatchRetry, hgoes, hslot, hbody, hwant, hjoined, hwaits, if_neg (Nat.not_lt.mpr hdue), if_pos hcome]

/-- Tried again before its count it takes a comparator that is free. -/
theorem Device.doWatchRetry_joins {w : Watch} (hdue : a.asked + 1024 ≤ d.now) (hbefore : d.now < v)
    (hfree : d.watch.join v 2 (d.site n).fold (.wait n (q = .bwd) a.id) = some w) :
    d.doWatchRetry n q = ({ d with watch := w } : Device).onSite n
      (Site.onSeqr · fun s => s.onAct a.id fun a => { a with joined := true }) := by
  simp only [Device.doWatchRetry, hgoes, hslot, hbody, hwant, hjoined, hwaits, hfree, if_neg (Nat.not_lt.mpr hdue),
    if_neg (Nat.not_le.mpr hbefore)]

end retry

/-- Settles O48: the reload and the read by the function and what is in use, the comparator by V, the retry by its 1,024
ticks. -/
theorem watchRegistersAndComparators : Obligations.WatchRegistersAndComparators := by
  unfold Obligations.WatchRegistersAndComparators
  refine fun s => ⟨fun hopen hnone hcmps hlocked => ?unlocks, fun hopen hbusy => ?refused, fun hin hserves => ?latches,
    fun fn hin hvf => ?vf, fun c x hcmp hdue => ?fires, fun c x hcmp hearly => ?early,
    fun n q v a l t hgoes hslot hbody hwant hjoined hwaits => ⟨fun hearly => ?retryEarly, fun hdue hcome => ?completes,
      fun w hdue hbefore hfree => ?joins⟩⟩
  case unlocks => rw [exec_watchReload, Device.fromRegs_open hopen, Device.doReload_unlocks hnone hcmps hlocked]
  case refused => rw [exec_watchReload, Device.fromRegs_open hopen, Device.doReload_refused hbusy]
  case latches => rw [exec_watchLoRead, Device.fromHost_inside hin, Device.doWatchLo_latches hserves]
  case vf => rw [exec_watchLoRead, Device.fromHost_inside hin, Device.doWatchLo_vf hvf]
  case fires => rw [exec_comparatorFire, Device.doFire_due hcmp hdue]
  case early => rw [exec_comparatorFire, Device.doFire_early hcmp hearly]
  case retryEarly =>
    rw [exec_watchWaitRetry, Device.doWatchRetry_early hgoes hslot hbody hwant hjoined hwaits hearly]
  case completes =>
    rw [exec_watchWaitRetry, Device.doWatchRetry_completes hgoes hslot hbody hwant hjoined hwaits hdue hcome]
  case joins =>
    rw [exec_watchWaitRetry, Device.doWatchRetry_joins hgoes hslot hbody hwant hjoined hwaits hdue hbefore hfree]

end Sys2Proof.Machine
end

section
/-!
The lottery of the ring ports: whom a draw grants, at which arbiter, and what a cut takes (R249 to R252, R254, R255).
-/
namespace Sys2Proof.Machine

/-! ## Whom a draw grants (R250, R252) -/

/-- The requesters below 16 that ask, lowest first. -/
def askers (req : List (Nat × Nat)) : List Nat := (List.range 16).filter fun i => req.any (·.1 = i)

/-- Requester i with the beats of its burst. -/
def burstOf (req : List (Nat × Nat)) (i : Nat) : Nat × Nat := (i, ((req.find? (·.1 = i)).map (·.2)).getD 0)

/-- The requesters that ask, each with its tickets. -/
def askersTickets (tickets : List Nat) (req : List (Nat × Nat)) : List (Nat × Nat) :=
  (askers req).map fun i => (i, tickets.getD i 0)

/-- All tickets of the requesters that ask. -/
def ticketTotal (tickets : List Nat) (req : List (Nat × Nat)) : Nat := ((askersTickets tickets req).map (·.2)).sum

theorem mem_askers {req : List (Nat × Nat)} {i : Nat} : i ∈ askers req ↔ i < 16 ∧ ∃ q ∈ req, q.1 = i := by
  simp only [askers, List.mem_filter, List.mem_range, List.any_eq_true, decide_eq_true_eq]

theorem burstOf_mem {req : List (Nat × Nat)} {i : Nat} (hasks : i ∈ askers req) : burstOf req i ∈ req := by
  obtain ⟨-, q, hq, hqi⟩ := mem_askers.mp hasks
  have hsome : (req.find? (·.1 = i)).isSome := List.find?_isSome.mpr ⟨q, hq, decide_eq_true hqi⟩
  obtain ⟨p, hp⟩ := Option.isSome_iff_exists.mp hsome
  obtain rfl : p.1 = i := of_decide_eq_true (List.find?_some (p := fun x : Nat × Nat => decide (x.1 = i)) hp)
  have hburst : burstOf req p.1 = p := by simp only [burstOf, hp, Option.map_some, Option.getD_some]
  rw [hburst]
  exact List.mem_of_find?_eq_some hp

theorem ticketTotal_eq_zero {tickets : List Nat} {req : List (Nat × Nat)} :
    ticketTotal tickets req = 0 ↔ ∀ i ∈ askers req, tickets.getD i 0 = 0 := by
  simp only [ticketTotal, askersTickets, List.map_map, List.sum_eq_zero_iff, List.mem_map, Function.comp_apply,
    forall_exists_index, and_imp, forall_apply_eq_imp_iff₂]

/-- A number from sum on below the sum of all falls to a requester of the list with tickets of its own. -/
theorem winner_of_lt {r : Nat} : ∀ {sum : Nat} {l : List (Nat × Nat)}, sum ≤ r → r < sum + (l.map (·.2)).sum →
    ∃ x ∈ l, 0 < x.2 ∧ winner r sum l = some x.1
  | sum, [], hle, hlt => absurd hlt (Nat.not_lt.mpr hle)
  | sum, (i, t) :: l, hle, hlt => by
    by_cases hhere : r < sum + t
    · exact ⟨(i, t), List.mem_cons_self, by dsimp only; omega, if_pos hhere⟩
    · have hrest : r < sum + t + (l.map (·.2)).sum := by simpa only [List.map_cons, List.sum_cons, Nat.add_assoc] using hlt
      obtain ⟨x, hx, hpos, hwins⟩ := winner_of_lt (Nat.not_lt.mp hhere) hrest
      exact ⟨x, List.mem_cons_of_mem _ hx, hpos, (if_neg hhere).trans hwins⟩

/-- The number drawn, the high half of the generator scaled to the tickets, is below their total. -/
theorem scaled_draw_lt (g : W32) {total : Nat} (hpos : 0 < total) : g.toNat / 65536 * total / 65536 < total := by
  have hhalf : g.toNat / 65536 < 65536 := Nat.div_lt_of_lt_mul g.isLt
  exact Nat.div_lt_of_lt_mul (Nat.mul_lt_mul_of_pos_right hhalf hpos)

/-- With tickets among those that ask one that holds some is granted; whose turn it is stays. -/
theorem Arbiter.draw_by_tickets (a : Arbiter) {tickets : List Nat} {req : List (Nat × Nat)}
    (hpos : 0 < ticketTotal tickets req) : ∃ i ∈ askers req, 0 < tickets.getD i 0 ∧
      a.draw tickets req = { a with gen := lfsr a.gen, holder := some (burstOf req i) } := by
  obtain ⟨x, hx, hheld, hwins⟩ := winner_of_lt (Nat.zero_le _)
    ((scaled_draw_lt (lfsr a.gen) hpos).trans_eq (Nat.zero_add _).symm)
  obtain ⟨i, hasks, rfl⟩ := List.mem_map.mp hx
  have hdraw : a.draw tickets req = { a with
      gen := lfsr a.gen
      holder := (winner ((lfsr a.gen).toNat / 65536 * ticketTotal tickets req / 65536) 0
        (askersTickets tickets req)).map (burstOf req) } := if_pos hpos
  exact ⟨i, hasks, hheld, by rw [hdraw, hwins, Option.map_some]⟩

/-- The requester whose turn it is behind the last one: the next that asks, or the lowest (R252). -/
def nextInTurn (last : Nat) (req : List (Nat × Nat)) : Option Nat :=
  (askers req).find? (last < ·) <|> (askers req).head?

theorem nextInTurn_of_asked (last : Nat) {req : List (Nat × Nat)} (hsome : askers req ≠ []) :
    ∃ i ∈ askers req, nextInTurn last req = some i := by
  unfold nextInTurn
  cases hnext : (askers req).find? (last < ·) with
  | some i => exact ⟨i, List.mem_of_find?_eq_some hnext, rfl⟩
  | none => exact ⟨_, List.head_mem hsome, List.head?_eq_some_head hsome⟩

/-- Without tickets among those that ask one of them is granted and was the last in turn; the generator stays. -/
theorem Arbiter.draw_in_turn (a : Arbiter) {tickets : List Nat} {req : List (Nat × Nat)}
    (hzero : ticketTotal tickets req = 0) (hsome : askers req ≠ []) : ∃ i ∈ askers req,
      a.draw tickets req = { a with last := i, holder := some (burstOf req i) } := by
  obtain ⟨i, hasks, hnext⟩ := nextInTurn_of_asked a.last hsome
  have hdraw : a.draw tickets req = match nextInTurn a.last req with
      | some i => { a with last := i, holder := some (burstOf req i) }
      | none => { a with holder := none } := if_neg (Nat.not_lt.mpr hzero.le)
  exact ⟨i, hasks, by rw [hdraw, hnext]⟩

/-- Settles O21: by tickets where the tickets of those that ask are more than none, in turn where they are none. -/
theorem drawGrantsAnAskingRequester : Obligations.DrawGrantsAnAskingRequester := by
  unfold Obligations.DrawGrantsAnAskingRequester
  intro a tickets req ⟨q, hq, hbelow⟩
  have hasks {q : Nat × Nat} (hq : q ∈ req) (hbelow : q.1 < 16) : q.1 ∈ askers req := mem_askers.mpr ⟨hbelow, q, hq, rfl⟩
  rcases Nat.eq_zero_or_pos (ticketTotal tickets req) with hzero | hpos
  · have hnone := ticketTotal_eq_zero.mp hzero
    obtain ⟨i, hi, hdraw⟩ := a.draw_in_turn hzero (List.ne_nil_of_mem (hasks hq hbelow))
    rw [hdraw]
    exact ⟨burstOf req i, rfl, burstOf_mem hi, (mem_askers.mp hi).1,
      fun _ => ⟨fun q hq hbelow => hnone _ (hasks hq hbelow), rfl, rfl⟩, fun hheld => absurd (hnone i hi) hheld⟩
  · obtain ⟨i, hi, hheld, hdraw⟩ := a.draw_by_tickets hpos
    rw [hdraw]
    exact ⟨burstOf req i, rfl, burstOf_mem hi, (mem_askers.mp hi).1,
      fun hnone => absurd hnone (Nat.ne_of_gt hheld), fun _ => rfl⟩

/-! ## ARBITER_DRAW (R249 to R252) -/

/-- The requests whose bursts are within the port's largest (R250). -/
def withinLargest (a : Nat) (req : List (Nat × Nat)) : List (Nat × Nat) :=
  req.filter fun x => 1 ≤ x.2 && x.2 ≤ largestBurst a

/-- The tickets by which a bank arbiter draws: those for writes or for reads of its site (R251). -/
def Device.bankArbTickets (d : Device) (a : Nat) : List Nat :=
  let site := d.site ((a - 0x100) / 0x80)
  bankTickets (if (a - 0x100) % 0x80 / 0x40 = 1 then site.arbWr else site.arbRd)

theorem Device.doDraw_shared (d : Device) {a : Nat} (hshared : a < 18) (req : List (Nat × Nat)) :
    d.doDraw a req = { d with fabric := { d.fabric with
      arbs := d.fabric.arbs.modify a fun x => x.draw x.tickets (withinLargest a req) } } := if_pos hshared

theorem not_shared_of_isBank {a : Nat} (hbank : isBank a = true) : ¬a < 18 := by
  simp only [isBank, Bool.and_eq_true, decide_eq_true_eq] at hbank
  omega

theorem Device.doDraw_bank (d : Device) {a : Nat} (hbank : isBank a = true) (req : List (Nat × Nat)) :
    d.doDraw a req = { d with fabric := { d.fabric with
      banks := sput d.fabric.banks a (((slook d.fabric.banks a).getD (.reset a)).draw (d.bankArbTickets a)
        ((withinLargest a req).filter (·.1 < 4))) } } :=
  (if_neg (not_shared_of_isBank hbank)).trans (if_pos hbank)

/-! ## CUT (R254, R255) -/

/-- Requester r loses the grant of shared arbiter a and its tickets there; the cut is counted and recorded with its beats. -/
def Device.takeGrant (d : Device) (a r beats : Nat) : Device := { d with fabric := { d.fabric with
  arbs := d.fabric.arbs.modify a fun (x : Arbiter) => { x with tickets := x.tickets.set r 0, holder := none }
  cutValid := true, cutArb := a, cutReq := r, cutBeats := beats % 1024, cutCount := satAdd 32 d.fabric.cutCount 1 } }

theorem Device.doCut_holder {d : Device} {a beats burst : Nat} {o : CutOwner} (hshared : a < 18) (hpart : beats < burst)
    (hholds : (d.fabric.arbs.getD a (.reset a)).holder = some (d.ownerIndex o, burst)) :
    d.doCut a beats o = ((d.takeGrant a (d.ownerIndex o) beats).event .cut [a, d.ownerIndex o, beats]).endCut o := by
  have hcuts : ¬(18 ≤ a ∨ d.ownerIndex o ≠ d.ownerIndex o ∨ burst ≤ beats) := by omega
  simp only [Device.doCut, hholds, if_neg hcuts]
  rfl

/-- Settles O20: a draw by the kind of its arbiter, a cut of the holder before its burst is whole. -/
theorem arbitersDrawAndCut : Obligations.ArbitersDrawAndCut := by
  unfold Obligations.ArbitersDrawAndCut
  refine ⟨fun s a req => ⟨fun hshared => ?shared, fun hbank => ?bank⟩,
    fun s a beats burst o hshared hpart hholds => ?cut⟩
  case shared =>
    rw [exec_arbiterDraw, Device.doDraw_shared _ hshared]
    rfl
  case bank =>
    rw [exec_arbiterDraw, Device.doDraw_bank _ hbank]
    rfl
  case cut =>
    rw [exec_cut, Device.doCut_holder hshared hpart hholds]
    rfl

end Sys2Proof.Machine
end

section
/-!
An access cut at the multiples of a size, as the gate rings and the stiles cut it, and the hops between stations (R240, R241,
R246, R248).
-/
namespace Sys2Proof.Machine

/-! ## Pieces of an access, each within one aligned block of w bytes -/

/-- Piece i of an access: what of it lies in the i-th block from its first one on. -/
def alignedPiece (w a n i : Nat) : Nat × Nat :=
  let b := a / w * w + w * i
  (max a b, min (a + n) (b + w) - max a b)

/-- How many blocks an access touches. -/
def pieceCount (w a n : Nat) : Nat := (a % w + n + (w - 1)) / w

/-- The pieces of an access, in order. -/
def alignedPieces (w a n : Nat) : List (Nat × Nat) := (List.range (pieceCount w a n)).map (alignedPiece w a n)

theorem gateBlocks_eq (a n : Nat) : gateBlocks a n = alignedPieces 256 a n := rfl

theorem stileSplit_eq (b : Nat × Nat) : stileSplit b = alignedPieces 64 b.1 b.2 := rfl

section pieces
variable {w a n i : Nat} (hw : 0 < w)
include hw

theorem lt_pieceCount : i < pieceCount w a n ↔ w * i < a % w + n := by
  rw [pieceCount, Nat.lt_iff_add_one_le, Nat.le_div_iff_mul_le hw, Nat.add_one_mul, Nat.mul_comm i w]
  omega

/-- A block that is counted begins before the access ends. -/
theorem block_lt_end (hi : i < pieceCount w a n) : a / w * w + w * i < a + n := by
  have hlt := (lt_pieceCount hw).mp hi
  have hsplit := Nat.div_add_mod' a w
  omega

/-- Every block from the second on begins behind the first byte. -/
theorem block_zero_or_ge (a i : Nat) : w * i = 0 ∨ a < a / w * w + w * i := by
  rcases Nat.eq_zero_or_pos i with rfl | hpos
  · exact .inl (Nat.mul_zero w)
  · have hblock : w ≤ w * i := Nat.le_mul_of_pos_right w hpos
    have hin := Nat.lt_div_mul_add hw (a := a)
    exact .inr (by omega)

/-- The first i pieces reach to the i-th block, or to the access's end. -/
theorem sum_first_pieces (hn : 0 < n) (hi : i ≤ pieceCount w a n) :
    ((List.range i).map fun j => (alignedPiece w a n j).2).sum = min (a + n) (a / w * w + w * i) - a := by
  have hfirst := Nat.div_mul_le_self a w
  induction i with
  | zero => simp only [List.range_zero, List.map_nil, List.sum_nil]; omega
  | succ i ih =>
    have hbefore := block_lt_end hw hi
    have hplace := block_zero_or_ge hw a i
    have hin := Nat.lt_div_mul_add hw (a := a)
    rw [List.sum_range_succ, ih (Nat.le_of_succ_le hi), Nat.mul_add_one]
    simp only [alignedPiece]
    omega

theorem alignedPieces_sum (hn : 0 < n) : ((alignedPieces w a n).map (·.2)).sum = n := by
  have hlast : a % w + n ≤ w * pieceCount w a n := Nat.not_lt.mp (mt (lt_pieceCount hw).mpr (Nat.lt_irrefl _))
  have hsplit := Nat.div_add_mod' a w
  have hsum := sum_first_pieces hw hn (Nat.le_refl (pieceCount w a n))
  rw [alignedPieces, List.map_map]
  refine hsum.trans ?_
  omega

/-- Each piece begins where those before it end. -/
theorem alignedPieces_start (hn : 0 < n) (hi : i < (alignedPieces w a n).length) :
    ((alignedPieces w a n).getD i (0, 0)).1 = a + (((alignedPieces w a n).take i).map (·.2)).sum := by
  rw [alignedPieces, List.length_map, List.length_range] at hi
  have hbefore := block_lt_end hw hi
  have htake : ((alignedPieces w a n).take i).map (·.2) = (List.range i).map fun j => (alignedPiece w a n j).2 := by
    rw [alignedPieces, ← List.map_take, List.take_range, Nat.min_eq_left hi.le, List.map_map]
    rfl
  have hget : (alignedPieces w a n).getD i (0, 0) = alignedPiece w a n i := by
    simp [alignedPieces, hi]
  rw [htake, hget, sum_first_pieces hw hn hi.le]
  simp only [alignedPiece]
  omega

theorem alignedPieces_within {x : Nat × Nat} (hn : 0 < n) (hx : x ∈ alignedPieces w a n) : 0 < x.2 ∧ x.1 % w + x.2 ≤ w := by
  obtain ⟨i, hi, rfl⟩ := List.mem_map.mp hx
  have hbefore := block_lt_end hw (List.mem_range.mp hi)
  have hin := Nat.lt_div_mul_add hw (a := a)
  simp only [alignedPiece]
  generalize hb : a / w * w + w * i = b at hbefore
  have hlow : a < b + w := by omega
  have hmod : max a b % w = max a b - b := by
    have haligned : b = w * (a / w + i) := by rw [← hb, Nat.mul_add, Nat.mul_comm w (a / w)]
    have hoff : max a b - b < w := by omega
    calc max a b % w = (w * (a / w + i) + (max a b - b)) % w := by rw [← haligned]; congr 1; omega
      _ = max a b - b := by rw [Nat.mul_add_mod, Nat.mod_eq_of_lt hoff]
  rw [hmod]
  omega

end pieces

/-- A gate flit lies within one block of 256 bytes and so touches at most four lines (R248). -/
theorem stileSplit_length_le {b : Nat × Nat} (hwithin : b.1 % 256 + b.2 ≤ 256) : (stileSplit b).length ≤ 4 := by
  rw [stileSplit_length]
  omega

/-! ## Hops (R240) -/

theorem hops_le (a b : Nat) : hops a b ≤ 20 := by
  simp only [hops]
  omega

theorem hops_comm (a b : Nat) : hops a b = hops b a := by
  simp only [hops]
  split <;> split <;> omega

theorem hops_eq_zero {a b : Nat} (ha : a < 40) (hb : b < 40) : hops a b = 0 ↔ a = b := by
  simp only [hops]
  split <;> omega

/-- Settles O9: both cuts are the same one, by blocks of 256 and by lines of 64 bytes. -/
theorem accessesSplitIntoFlits : Obligations.AccessesSplitIntoFlits := by
  unfold Obligations.AccessesSplitIntoFlits
  refine ⟨fun a n hn => ?gate, fun b hn hwithin => ?stile, fun a b ha hb => ⟨hops_le a b, hops_comm a b, hops_eq_zero ha hb⟩⟩
  case gate =>
    rw [gateBlocks_eq]
    have hw : 0 < 256 := by decide
    exact ⟨alignedPieces_sum hw hn, fun i hi => alignedPieces_start hw hn hi, fun x hx => alignedPieces_within hw hn hx⟩
  case stile =>
    have hlength := stileSplit_length_le hwithin
    rw [stileSplit_eq] at hlength ⊢
    have hw : 0 < 64 := by decide
    exact ⟨alignedPieces_sum hw hn, hlength, fun i hi => alignedPieces_start hw hn hi,
      fun x hx => alignedPieces_within hw hn hx⟩

end Sys2Proof.Machine
end

section
/-!
The step: the command at the front of the queue, or a tick of the device where none waits (log entry 4).
-/
namespace Sys2Proof.Machine

/-- Where no drive is resident no batch DMA waits to start (R418). -/
theorem Device.batchesStart_of_vacant {d : Device} (hvacant : ∀ f, f < 8 → (d.fold f).drives = []) :
    d.batchesStart = d := by
  refine List.foldlRecOn (motive := (· = d)) (List.range 8) _ rfl ?_
  rintro _ rfl f hf
  rw [hvacant f (List.mem_range.mp hf)]
  rfl

/-- Settles O1: the queue's front command by `exec`, the empty queue by the tick, of which no batch DMA is part. -/
theorem stepRunsTheFrontCommand : Obligations.StepRunsTheFrontCommand := by
  unfold Obligations.StepRunsTheFrontCommand
  refine ⟨fun c rest d => step_cons d c rest, fun d hvacant => ?tick⟩
  case tick =>
    rw [step_nil, Device.tick, Device.batchesStart_of_vacant]
    exact hvacant

end Sys2Proof.Machine
end

section
/-!
Memory quarters: lines read and written, patrol, refresh, retraining and power states (R271, R272, R290, R295 to R311).
-/
namespace Sys2Proof.Machine

/-! ## What an access leaves of the poison (R295, R303, R304) -/

/-- The use of a check line poisons nothing and cleans nothing. -/
theorem Device.useCheck_poison (d : Device) (chunk : Nat) (wr : Bool) : (d.useCheck chunk wr).mem.poison = d.mem.poison := by
  unfold Device.useCheck
  extract_lets q l
  split
  · split <;> rfl
  · split <;> rfl

theorem Device.touchChunk_poison (d : Device) (chunk : Nat) (wr : Bool) :
    (d.touchChunk chunk wr).mem.poison = d.mem.poison := by
  unfold Device.touchChunk
  extract_lets q m awake running
  have hrunning : running.mem.poison = d.mem.poison := by
    simp only [running]
    split <;> rfl
  exact (Device.useCheck_poison ..).trans hrunning

theorem Device.touchMem_poison (d : Device) (a n : Nat) (wr : Bool) : (d.touchMem a n wr).mem.poison = d.mem.poison := by
  unfold Device.touchMem
  split
  · rfl
  · exact foldl_keeps (fun (e : Device) => e.mem.poison = d.mem.poison) _
      (fun e c h => (e.touchChunk_poison c wr).trans h) _ _ rfl

/-- A line lies within one chunk of 15 lines (R296). -/
theorem Device.touchMem_line (d : Device) (a : Nat) (wr : Bool) :
    d.touchMem (a / 64 * 64) 64 wr = d.touchChunk (a / 960) wr := by
  have hone : (a / 64 * 64 % 960 + 64 + 959) / 960 = 1 := by omega
  have hchunk : a / 64 * 64 / 960 = a / 960 := by omega
  simp [Device.touchMem, hone, hchunk]

/-- An insertion puts one number into a rising list and no other. -/
theorem contains_nins_of_ne {j k : Nat} (hother : j ≠ k) (l : List Nat) : (nins l k).contains j = l.contains j := by
  have hbeq : (j == k) = false := beq_false_of_ne hother
  induction l with
  | nil => simp only [nins, List.contains_cons, hbeq, Bool.false_or]
  | cons i l ih =>
    rw [nins]
    split
    · rw [List.contains_cons, hbeq, Bool.false_or]
    · split
      · rfl
      · rw [List.contains_cons, List.contains_cons, ih]

/-! ## The check of a half of a line (R303, R304, R311) -/

section half
variable {d : Device} {a half : Nat} (kind : Nat)

theorem Device.checkHalf_poisoned (hpoisoned : d.mem.poison.contains (a / 64 * 2 + half) = true) (e : Ecc) :
    d.checkHalf a half kind e = d.onQuarter (quarterOf a) (·.describe a half 2) := if_pos hpoisoned

variable (hgood : d.mem.poison.contains (a / 64 * 2 + half) = false)
include hgood

theorem Device.checkHalf_ok : d.checkHalf a half kind .ok = d := by
  simp only [Device.checkHalf, hgood, Bool.false_eq_true, if_false]

theorem Device.checkHalf_uncorrectable : d.checkHalf a half kind .uncorrectable =
    let e := d.onQuarter (quarterOf a) fun x => { x.describe a half kind with ue := satAdd 16 x.ue 1 }
    { e with mem := { e.mem with poison := nins d.mem.poison (a / 64 * 2 + half) } } := by
  simp only [Device.checkHalf, hgood, Bool.false_eq_true, if_false]
  rfl

end half

/-- Where nothing is poisoned a good half is checked without a trace. -/
theorem Device.checkHalf_clean {d : Device} (hclean : d.mem.poison = []) (a half kind : Nat) :
    d.checkHalf a half kind .ok = d :=
  Device.checkHalf_ok kind (by rw [hclean]; rfl)

/-! ## MEMORY_READ and MEMORY_WRITE (R295 to R304) -/

theorem Device.doMemRead_served {d : Device} {a : Nat} (hserves : d.serves a = true) (lo hi : Ecc) :
    d.doMemRead a lo hi = ((d.touchChunk (a / 960) false).checkHalf a 0 0 lo).checkHalf a 1 0 hi := by
  rw [Device.doMemRead, hserves, Device.touchMem_line]
  rfl

section read
variable {d : Device} {a : Nat} (hserves : d.serves a = true)
include hserves

section good
variable (hlo : d.mem.poison.contains (a / 64 * 2) = false) (hhi : d.mem.poison.contains (a / 64 * 2 + 1) = false)
include hlo hhi

theorem Device.doMemRead_good : d.doMemRead a .ok .ok = d.touchChunk (a / 960) false := by
  have hpoison := d.touchChunk_poison (a / 960) false
  rw [Device.doMemRead_served hserves, Device.checkHalf_ok (half := 0) 0 (by rwa [hpoison]),
    Device.checkHalf_ok 0 (by rwa [hpoison])]

theorem Device.doMemRead_uncorrectable : d.doMemRead a .uncorrectable .ok =
    let e := (d.touchChunk (a / 960) false).onQuarter (quarterOf a) fun x =>
      { x.describe a 0 0 with ue := satAdd 16 x.ue 1 }
    { e with mem := { e.mem with poison := nins d.mem.poison (a / 64 * 2) } } := by
  have hpoison := d.touchChunk_poison (a / 960) false
  have hother : (nins d.mem.poison (a / 64 * 2)).contains (a / 64 * 2 + 1) = false := by
    rw [contains_nins_of_ne (by omega), hhi]
  rw [Device.doMemRead_served hserves, Device.checkHalf_uncorrectable (half := 0) 0 (by rwa [hpoison]), hpoison]
  exact Device.checkHalf_ok 0 hother

end good

theorem Device.doMemRead_poisoned (hlo : d.mem.poison.contains (a / 64 * 2) = true)
    (hhi : d.mem.poison.contains (a / 64 * 2 + 1) = false) (e : Ecc) :
    d.doMemRead a e .ok = (d.touchChunk (a / 960) false).onQuarter (quarterOf a) (·.describe a 0 2) := by
  have hpoison := d.touchChunk_poison (a / 960) false
  rw [Device.doMemRead_served hserves, Device.checkHalf_poisoned (half := 0) 0 (by rwa [hpoison])]
  exact Device.checkHalf_ok 0 ((congrArg (·.contains (a / 64 * 2 + 1)) hpoison).trans hhi)

end read

theorem Device.doMemWrite_served {d : Device} {f x : Nat} {bs : List Byte} (hfold : f < d.foldCount)
    (hshare : x + bs.length ≤ d.share) (hsome : bs ≠ []) (hline : x % 64 + bs.length ≤ 64)
    (hserves : d.serves (f * d.share + x) = true) :
    d.doMemWrite f x bs = d.memWrite (d.fold f).key (f * d.share + x) bs [] := by
  have hwrites : ¬(d.foldCount ≤ f ∨ d.share < x + bs.length ∨ bs = [] ∨ 64 < x % 64 + bs.length ∨
      (!d.serves (f * d.share + x)) = true) := by
    rw [hserves]
    simp only [hsome, Bool.not_true, Bool.false_eq_true, false_or, or_false]
    omega
  exact if_neg hwrites

/-- Where nothing is poisoned a write stores its bytes and checks no half (R304). -/
theorem Device.memWrite_clean {d : Device} (hclean : d.mem.poison = []) (k : Key) (a : Nat) (bs : List Byte) :
    d.memWrite k a bs [] =
      let e := d.touchMem a bs.length true
      { e with mem := e.mem.write k a bs } := by
  have hpoison := (d.touchMem_poison a bs.length true).trans hclean
  simp only [Device.memWrite, if_pos hpoison]
  rfl

/-! ## MEM_PATROL (R305) -/

theorem Device.doPatrol_good {d : Device} {ch : Nat} (hch : ch < 32) (hscrub : bit d.mem.scrub 31 = true)
    (htrained : d.mem.state = 2) (hawake : (d.quarter (ch / 8)).selfRef = false) (hclean : d.mem.poison = []) :
    let u := d.mem.patrol.getD ch 0
    let e := d.useCheck (u * 32 + ch % 8 * 4 + ch / 8) false
    d.doPatrol ch [] = { e with mem := { e.mem with
      patrol := e.mem.patrol.set ch ((u + 1) % e.channelChunks), down := e.mem.down.set ch false } } := by
  intro u e
  have hpatrols : ¬(32 ≤ ch ∨ (!bit d.mem.scrub 31) = true ∨ d.mem.state ≠ 2 ∨
      (d.quarter (ch / 8)).selfRef = true) := by
    simp [hscrub, htrained, hawake, hch]
  have hgood : e.mem.poison = [] := (Device.useCheck_poison ..).trans hclean
  have hlines (c : Nat) : (List.range 15).foldl (fun x j =>
      (x.checkHalf ((c * 15 + j) * 64) 0 1 .ok).checkHalf ((c * 15 + j) * 64) 1 1 .ok) e = e := by
    refine List.foldlRecOn (motive := (· = e)) _ _ rfl ?_
    rintro _ rfl j -
    rw [Device.checkHalf_clean hgood, Device.checkHalf_clean hgood]
  refine (if_neg hpatrols).trans ?_
  simp only [List.getD_nil]
  rw [hlines]

/-! ## Refresh, retraining and power states (R271, R272, R290, R306 to R308) -/

section mr4
variable {d : Device} {q : Nat} (hq : q < 4)
include hq

theorem Device.readMr4_cool : d.readMr4 q (false, false) = d.onQuarter q fun x => { x with hot := (false, false) } :=
  (if_neg (Nat.not_le.mpr hq)).trans (if_neg Bool.false_ne_true)

variable {hot : Bool × Bool} (hhot : hot ≠ (false, false))
include hhot

/-- A report above the rated range is recorded the first time (R306). -/
theorem Device.readMr4_first (hlast : (d.quarter q).lastHot = none) : d.readMr4 q hot =
    (d.onQuarter q fun x => { x with hot := hot, lastHot := some d.watch.age }).event .memHot [q] := by
  have hany : (hot.1 || hot.2) = true := by simpa [Prod.ext_iff, or_iff_not_imp_left] using hhot
  simp only [Device.readMr4, hlast, hany, if_neg (Nat.not_le.mpr hq), Bool.and_self, if_true]

/-- Later ones are recorded at most once a second. -/
theorem Device.readMr4_later {t : Nat} (hlast : (d.quarter q).lastHot = some t) : d.readMr4 q hot =
    if t + 100000000 ≤ d.watch.age then
      (d.onQuarter q fun x => { x with hot := hot, lastHot := some d.watch.age }).event .memHot [q]
    else d.onQuarter q fun x => { x with hot := hot } := by
  have hany : (hot.1 || hot.2) = true := by simpa [Prod.ext_iff, or_iff_not_imp_left] using hhot
  simp only [Device.readMr4, hlast, hany, if_neg (Nat.not_le.mpr hq), Bool.true_and, decide_eq_true_eq]

end mr4

theorem Device.doSelfRefIn_idle {d : Device} {q : Nat} (hq : q < 4) (hidleSr : d.mem.idleSr = true)
    (hvacant : d.anyDrive = false) (hawake : (d.quarter q).selfRef = false)
    (hidle : (d.quarter q).used + 65536 ≤ d.watch.age) : d.doSelfRefIn q =
      (d.onQuarter q fun x => { x with selfRef := true }).onHeft (42 + q) fun h => { h with stopped := h.gateEn } := by
  have henters : ¬(4 ≤ q ∨ (!d.mem.idleSr) = true ∨ d.anyDrive = true ∨ (d.quarter q).selfRef = true ∨
      d.watch.age < (d.quarter q).used + 65536) := by
    simp only [hidleSr, hvacant, hawake, Bool.not_true, Bool.false_eq_true, false_or]
    omega
  exact if_neg henters

theorem Device.doSelfRefOut_asleep {d : Device} {q : Nat} (hasleep : (d.quarter q).selfRef = true) :
    d.doSelfRefOut q = (d.onQuarter q fun x => { x with selfRef := false, used := d.watch.age }).onHeft (42 + q)
      fun h => { h with stopped := false } := by
  simp only [Device.doSelfRefOut, hasleep, Bool.not_true, Bool.false_eq_true, if_false]

/-- Settles O22: the lines by the poison of their halves, the patrol of a clean channel, then refresh by what MR4 reports, and
the power states. -/
theorem memoryQuarterCommandsComplete : Obligations.MemoryQuarterCommandsComplete := by
  unfold Obligations.MemoryQuarterCommandsComplete
  refine ⟨fun s => ⟨fun a hserves => ⟨fun hlo hhi => ⟨?good, ?uncorrectable⟩, fun e hlo hhi => ?poisoned⟩,
      fun f x bs hfold hshare hsome hline hserves => ⟨?write, fun hclean => ?cleanWrite⟩⟩,
    fun s ch hch hscrub htrained hawake hclean => ?patrol,
    fun s q hq => ⟨fun hot => ⟨?cool, fun hhot hlast => ?firstHot, fun t hhot hlast => ?laterHot⟩, fun ch hch => ?retrain,
      fun ch hch hawake => ?powerDown, fun hidleSr hvacant hawake hidle => ?selfRefresh, fun hasleep => ?selfRefreshEnds⟩⟩
  case good => rw [exec_memoryRead, Device.doMemRead_good hserves hlo hhi]
  case uncorrectable =>
    rw [exec_memoryRead, Device.doMemRead_uncorrectable hserves hlo hhi]
    rfl
  case poisoned =>
    rw [exec_memoryRead, Device.doMemRead_poisoned hserves hlo hhi]
    rfl
  case write => rw [exec_memoryWrite, Device.doMemWrite_served hfold hshare hsome hline hserves]
  case cleanWrite =>
    rw [exec_memoryWrite, Device.doMemWrite_served hfold hshare hsome hline hserves, Device.memWrite_clean hclean]
  case patrol => rw [exec_memPatrol, Device.doPatrol_good hch hscrub htrained hawake hclean]
  case cool =>
    rintro rfl
    rw [exec_refresh, exec_rfm, Device.doRefresh, Device.doRfm, Device.readMr4_cool hq]
    exact ⟨rfl, rfl⟩
  case firstHot =>
    rw [exec_refresh, exec_rfm, Device.doRefresh, Device.doRfm, Device.readMr4_first hq hhot hlast]
    exact ⟨rfl, rfl⟩
  case laterHot =>
    rw [exec_refresh, exec_rfm, Device.doRefresh, Device.doRfm, Device.readMr4_later hq hhot hlast]
    exact ⟨rfl, rfl⟩
  case retrain => rw [exec_wck2dqCheck, Device.doWck, if_pos ⟨hq, hch, rfl⟩]
  case powerDown => rw [exec_channelPowerDown, Device.doChannelDown, hawake, if_neg Bool.false_ne_true]
  case selfRefresh => rw [exec_selfRefreshEntry, Device.doSelfRefIn_idle hq hidleSr hvacant hawake hidle]
  case selfRefreshEnds => rw [exec_selfRefreshExit, Device.doSelfRefOut_asleep hasleep]

end Sys2Proof.Machine
end

section
/-!
Recovery registers that start something, seals, cote drains and the journal (R285, R365, R366, R375 to R378, R390, R495, R497).
-/
namespace Sys2Proof.Machine

/-! ## Registers of recovery (R285, R378, R390, R495) -/

theorem Device.doExportDone_outsideRecovery {d : Device} (houtside : d.flock.state ≠ 3) :
    d.doExportDone 0 = { d with recov := { d.recov with exportReady := false, exporting := [] } } := by
  have hloads : ¬(d.flock.state = 3 ∧ d.recov.layer = 3 ∧ d.recov.state = 2) := fun h => houtside h.1
  simp only [Device.doExportDone, ne_eq, not_true_eq_false, if_false, if_neg hloads]

/-- A rank with a leaf beside its own has leaves to hand over (R390). -/
theorem Device.doHandover_adopted {d : Device} {rank : Nat} (hleads : d.leads = true)
    (hadopted : 2 ≤ (d.flock.leaves.filter (·.1 = rank)).length) :
    d.doHandover 0 rank = { d with recov := { d.recov with handover := some rank } } := by
  have hhands : ¬(0 ≠ 0 ∨ (!d.leads) = true ∨ (d.flock.leaves.filter (·.1 = rank)).length < 2) := by
    simp only [ne_eq, not_true_eq_false, hleads, Bool.not_true, Bool.false_eq_true, false_or]
    exact Nat.not_lt.mpr hadopted
  exact if_neg hhands

theorem Device.doSignArm_pf0 (d : Device) (v : Nat) :
    d.doSignArm 0 v = ({ d with recov := { d.recov with signHi := v % 2 ^ 32 } } : Device).armPoint
      .sign 4 (v % 2 ^ 32 * 2 ^ 32 + d.recov.signLo) := if_neg (not_not_intro rfl)

/-- The device that gives its own commits, or the flock's, arms a comparator (R362, R364). -/
theorem Device.doSnapatArm_commits {d : Device} (hcommits : d.flock.isBell = true ∨ d.active = false) (v : Nat) :
    d.doSnapatArm 0 v = ({ d with recov := { d.recov with snapHi := v % 2 ^ 32 } } : Device).armPoint
      .snapshot 3 (v % 2 ^ 32 * 2 ^ 32 + d.recov.snapLo) := by
  have harms : d.flock.isBell = true ∨ (!d.active) = true := hcommits.imp_right fun h => by rw [h]; rfl
  exact (if_neg (not_not_intro rfl)).trans (if_pos harms)

/-! ## Seals (R365, R366) -/

theorem Device.doSeal_closed {d : Device} {f n : Nat} {rest : List (Nat × Nat)} {v : Drive}
    (hdue : d.recov.sealDue = (f, n) :: rest) (hdrive : d.drive f n = some v) (hlogged : v.unlogged = false)
    (hclosed : v.closed.isSome = true) :
    let e : Device := { d with recov := { d.recov with sealDue := rest } }
    d.doSeal = (e.writeEntry f n (e.sealBytes v)).draw.draw := by
  intro e
  have hdrive' : e.drive f n = some v := hdrive
  have hseals : ¬(v.unlogged = true ∨ v.closed.isNone = true) := by
    simp [hlogged, Option.isSome_iff_ne_none.mp hclosed]
  simp only [Device.doSeal, hdue]
  simp only [e, hdrive', if_neg hseals]

/-! ## Cote drains and the journal (R375 to R377, R497) -/

/-- The 4 KiB units of an image that are still to be drained. -/
def CoteImage.unitsLeft (i : CoteImage) (done : Nat) : Nat := (i.size + 4095) / 4096 - done

/-- The bytes that the next units bring: the last one ends with the image. -/
def CoteImage.nextBytes (i : CoteImage) (done units : Nat) : Nat :=
  min (min units (i.unitsLeft done) * 4096) (i.size - done * 4096)

/-- The image with the next units of the fold's snapshot. -/
def Device.withUnits (d : Device) (f units done src : Nat) (i : CoteImage) : CoteImage :=
  { i with bytes := i.bytes.store (done * 4096) (d.readLocal f (src + done * 4096) (i.nextBytes done units)) }

/-- A drain step that goes ahead: no recovery load reads the cote, and the next units of the image under way are clean. -/
structure Device.Drains (d : Device) (f units slot done src : Nat) (i : CoteImage) : Prop where
  unread : d.loadsCote = false
  underWay : slook d.cote.drain f = some (slot, done, src, i)
  clean : d.poisonLocal f (src + done * 4096) (i.nextBytes done units) = false

section drain
variable {d : Device} {f units slot done src : Nat} {i : CoteImage} (h : d.Drains f units slot done src i)
include h

theorem Device.Drains.doDrain : d.doDrain f units =
    if min units (i.unitsLeft done) < i.unitsLeft done then { d with cote := { d.cote with
      drain := sput d.cote.drain f (slot, done + min units (i.unitsLeft done), src, d.withUnits f units done src i) } }
    else { d with
      cote := { d.cote with
        drain := sdel d.cote.drain f
        slots := sput d.cote.slots slot { d.withUnits f units done src i with
          digest := sha512 ((d.withUnits f units done src i).bytes.bytes 0 i.size) } }
      recov := { d.recov with draining := ndel d.recov.draining f, imageValid := true, imageStep := i.step } } := by
  obtain ⟨hunread, hunderWay, hclean⟩ := h
  simp only [CoteImage.nextBytes, CoteImage.unitsLeft] at hclean
  simp only [Device.doDrain, hunread, hunderWay, hclean, Bool.false_eq_true, if_false]
  rfl

theorem Device.Drains.goes_on (hleft : units < i.unitsLeft done) :
    d.doDrain f units = { d with cote := { d.cote with
      drain := sput d.cote.drain f (slot, done + units, src, d.withUnits f units done src i) } } := by
  rw [h.doDrain, Nat.min_eq_left hleft.le, if_pos hleft]

theorem Device.Drains.ends (hlast : i.unitsLeft done ≤ units) :
    d.doDrain f units = { d with
      cote := { d.cote with
        drain := sdel d.cote.drain f
        slots := sput d.cote.slots slot { d.withUnits f units done src i with
          digest := sha512 ((d.withUnits f units done src i).bytes.bytes 0 i.size) } }
      recov := { d.recov with draining := ndel d.recov.draining f, imageValid := true, imageStep := i.step } } := by
  rw [h.doDrain, Nat.min_eq_right hlast, if_neg (Nat.lt_irrefl _)]

end drain

/-- The fold's part of the journal with room for one entry more: its oldest one gives way where the part is full (R377). -/
def Device.journalRoom (d : Device) (f : Nat) : List (Key × List Byte) :=
  match d.cote.journal.find? fun x => x.1.foldOf = f with
  | some x => if d.journalSize ≤ (d.cote.journal.filter fun x => x.1.foldOf = f).length then d.cote.journal.erase x
    else d.cote.journal
  | none => d.cote.journal

theorem Device.doJournal_appends {d : Device} {f : Nat} {e : Nat × List Byte} (hunread : d.loadsCote = false)
    (hwaits : d.cote.waiting.find? (·.1 = f) = some e) : d.doJournal f = { d with cote := { d.cote with
      waiting := d.cote.waiting.erase e, journal := d.journalRoom f ++ [(d.coteKey f, e.2)] } } := by
  simp only [Device.doJournal, hunread, hwaits, Bool.false_eq_true, if_false, Device.journalRoom]
  cases d.cote.journal.find? fun x => x.1.foldOf = f with
  | some x => rfl
  | none => simp only [ite_self]

/-- Settles O42: the registers through an open PF0, then the seal, the drain by the units left, and the journal. -/
theorem sealsSnapshotsAndJournalComplete : Obligations.SealsSnapshotsAndJournalComplete := by
  unfold Obligations.SealsSnapshotsAndJournalComplete
  refine fun s => ⟨fun hopen => ⟨fun houtside => ?exportDone, fun rank hleads hadopted => ?handover, fun v => ?signArm,
      fun v hcommits => ?snapatArm⟩,
    fun f n rest v hdue hdrive hlogged hclosed => ?sealed,
    fun hunread => ⟨fun f units slot done src i hentry hclean => ⟨fun hleft => ?goesOn, fun hlast => ?ends⟩,
      fun f e hwaits => ?journal⟩⟩
  case exportDone => rw [exec_exportDone, Device.fromRegs_open hopen, Device.doExportDone_outsideRecovery houtside]
  case handover => rw [exec_recovHandover, Device.fromRegs_open hopen, Device.doHandover_adopted hleads hadopted]
  case signArm => rw [exec_recovSignArm, Device.fromRegs_open hopen, Device.doSignArm_pf0]
  case snapatArm => rw [exec_recovSnapatArm, Device.fromRegs_open hopen, Device.doSnapatArm_commits hcommits]
  case sealed => rw [exec_seal, Device.doSeal_closed hdue hdrive hlogged hclosed]
  case goesOn => rw [exec_coteDrain, Device.Drains.goes_on ⟨hunread, hentry, hclean⟩ hleft]; rfl
  case ends => rw [exec_coteDrain, Device.Drains.ends ⟨hunread, hentry, hclean⟩ hlast]; rfl
  case journal => rw [exec_journalAppend, Device.doJournal_appends hunread hwaits]; rfl

end Sys2Proof.Machine
end

section
/-!
Hefts that slew, stretch, realign, stop and wake, and the reset of a unit (R262 to R272, R476, R493).
-/
namespace Sys2Proof.Machine

/-! ## Hefts (R262 to R268, R271, R272) -/

/-- Changes of a heft that agree on it as it is are one. -/
theorem Device.onHeft_congr {d : Device} {h : Nat} {g g' : Heft → Heft} (hagree : g (d.heft h) = g' (d.heft h)) :
    d.onHeft h g = d.onHeft h g' := by
  have hmodify : d.hefts.modify h g = d.hefts.modify h g' := by
    rw [List.modify_eq_set_getElem?, List.modify_eq_set_getElem?]
    cases hget : d.hefts[h]? with
    | none => rfl
    | some x =>
      have hheft : d.heft h = x := by simp only [Device.heft, List.getD_eq_getElem?_getD, hget, Option.getD_some]
      change d.hefts.set h (g x) = d.hefts.set h (g' x)
      rw [← hheft, hagree]
  rw [Device.onHeft, Device.onHeft, hmodify]

/-- A heft outside holdover follows limits that ask for another step (R263). -/
theorem Heft.follow_slews {x : Heft} (hlocked : x.holdover = false) (hother : x.step ≠ x.target) :
    x.follow = { x with step := x.target, slewing := true, aligned := [] } := by
  simp only [Heft.follow, hlocked, hother, Bool.false_eq_true, or_self, if_false]

theorem Device.doHeftSlew_slews {d : Device} {h : Nat} (hlocked : (d.heft h).holdover = false)
    (hother : (d.heft h).step ≠ (d.heft h).target) : d.doHeftSlew h =
      (d.onHeft h fun x => { x with step := (d.heft h).target, slewing := true, aligned := [] }).supply :=
  congrArg Device.supply (Device.onHeft_congr (Heft.follow_slews hlocked hother))

/-- Outside a relock nothing follows the end of a slew (R277). -/
theorem Device.doSlewEnd_locked {d : Device} (hlocked : d.ref.state ≠ 2) (h : Nat) :
    d.doSlewEnd h = d.onHeft h fun x => { x with slewing := false } := if_pos (.inl hlocked)

/-- Neither slewing nor in holdover. -/
def Heft.steady (x : Heft) : Prop := x.slewing = false ∧ x.holdover = false

section realign
variable {d : Device} {h g : Nat}

/-- Whether the queues of the crossing may measure their phase (R267, R268). -/
def Device.aligns (d : Device) (h g : Nat) : Prop :=
  crosses h g = true ∧ (d.heft h).steady ∧ (d.heft g).steady ∧ (d.heft h).step = (d.heft g).step ∧
    d.crossingEmpty h g = true

theorem Device.doRealign_aligns (haligns : d.aligns h g) : d.doRealign h g =
    (d.onHeft h fun x => { x with aligned := nins x.aligned g }).onHeft g fun x => { x with aligned := nins x.aligned h } := by
  obtain ⟨hcross, ⟨hslew, hhold⟩, ⟨hslew', hhold'⟩, hstep, hempty⟩ := haligns
  simp [Device.doRealign, hcross, hslew, hhold, hslew', hhold', hstep, hempty]

theorem Device.doRealign_waits (hwaits : ¬d.aligns h g) : d.doRealign h g = d := by
  refine if_neg fun hok => hwaits ?_
  simpa [Device.aligns, Heft.steady, and_assoc] using hok

end realign

theorem Device.doClockStop_quiet {d : Device} {h : Nat} (hpen : h < 42) (hgate : (d.heft h).gateEn = true)
    (hlevel : (d.site h).level = 0) (hramp : (d.site h).ramp = none) (hquiet : d.quiet h = true) :
    d.doClockStop h = d.onHeft h fun x => { x with stopped := true, copy := d.now } :=
  if_pos ⟨hpen, hgate, hlevel, by rw [hramp]; rfl, hquiet⟩

/-- Settles O46: the hefts' commands, then a unit's reset by its kind. -/
theorem heftAndUnitCommandsComplete : Obligations.HeftAndUnitCommandsComplete := by
  unfold Obligations.HeftAndUnitCommandsComplete
  refine ⟨fun s h g => ⟨fun hlocked hother => ?slew, fun hlocked => ?slewEnd, ?stretch,
      fun hcross => ⟨fun hsteady hsteady' hstep hempty => ?aligns, fun hnot => ?waits⟩,
      fun hpen hgate hlevel hramp hquiet => ?stop, fun hpen => ?wake, ?handshake⟩,
    fun s => ⟨fun n hn hretired houtside => ?site, fun q hq htrains => ?quarter, fun k hk hdown => ?link⟩⟩
  case slew => rw [exec_heftSlew, Device.doHeftSlew_slews hlocked hother]
  case slewEnd => rw [exec_heftSlewEnd, Device.doSlewEnd_locked hlocked]
  case stretch => rfl
  case aligns => rw [exec_queueRealign, Device.doRealign_aligns ⟨hcross, hsteady, hsteady', hstep, hempty⟩]
  case waits =>
    rw [exec_queueRealign, Device.doRealign_waits]
    rintro ⟨-, hsteady, hsteady', hstep, hempty⟩
    rcases hnot with hslew | hslew | hother | hfull
    · exact hslew hsteady
    · exact hslew hsteady'
    · exact hother hstep
    · exact Bool.false_ne_true (hfull.symm.trans hempty)
  case stop => rw [exec_heftClockStop, Device.doClockStop_quiet hpen hgate hlevel hramp hquiet]
  case wake =>
    rw [exec_heftWake, Device.doWake, if_pos hpen]
    rfl
  case handshake => rfl
  case site =>
    have hresets : ¬(42 ≤ n ∨ (s.dev.site n).state ≠ 2 ∨ (s.dev.site n).logical < 40) := by omega
    rw [exec_unitReset, Device.doUnitReset, if_neg hresets]
    rfl
  case quarter =>
    have hresets : ¬(4 ≤ q ∨ s.dev.mem.state ≠ 1) := by omega
    rw [exec_unitReset, Device.doUnitReset, if_neg hresets]
  case link =>
    have hresets : ¬(6 ≤ k ∨ (s.dev.link k).up = true) := by simp [hdown, hk]
    rw [exec_unitReset, Device.doUnitReset, if_neg hresets]

end Sys2Proof.Machine
end

section
/-!
REFCLK lost, restored and failed; frames of the watch, its losses and its skew (R275 to R288).
-/
namespace Sys2Proof.Machine

/-! ## REFCLK (R275, R277, R278) -/

/-- An alert leaves the pens in service as they are. -/
theorem Device.penSites_alert (d : Device) (b : Nat) : (d.alert b).penSites = d.penSites := by
  obtain ⟨po, halert⟩ := d.alert_eq b
  rw [halert]
  rfl

theorem Device.doRefLoss_running {d : Device} (hruns : d.ref.state = 0 ∨ d.ref.state = 2) :
    d.doRefLoss = d.penSites.foldl (fun d n => d.stopPen n .refclk) ((({ d with
      ref := { d.ref with state := 1, failed := false, losses := satAdd 16 d.ref.losses 1, lostAt := d.watch.age, hold := 0 }
      hefts := d.hefts.map fun (h : Heft) => { h with holdover := true, slewing := false, aligned := [] } } : Device).event
        .refLoss []).alert 3) := by
  have hloses : ¬(d.ref.state = 1 ∨ d.ref.state = 3) := by omega
  simp only [Device.doRefLoss, if_neg hloses, Device.penSites_alert]
  rfl

/-- A heft as it leaves holdover, and follows its limits. -/
def Heft.relock (x : Heft) : Heft := ({ x with holdover := false } : Heft).follow

theorem Heft.relock_eq (x : Heft) : x.relock =
    if x.step = x.target then { x with holdover := false }
    else { x with holdover := false, step := x.target, slewing := true, aligned := [] } := by
  have htarget : ({ x with holdover := false } : Heft).target = x.target := rfl
  simp only [Heft.relock, Heft.follow, htarget, Bool.false_eq_true, false_or]

theorem Heft.relock_locked (x : Heft) : x.relock.holdover = false ∧ x.relock.step = x.relock.target := by
  rw [Heft.relock_eq]
  split
  · next hstep => exact ⟨rfl, hstep⟩
  · exact ⟨rfl, rfl⟩

theorem Heft.relock_slewing {x : Heft} (hother : x.step ≠ x.target) : x.relock.slewing = true := by
  rw [Heft.relock_eq, if_neg hother]

/-- A relock changes the hefts, each on its own, and the supply. -/
theorem Device.relock_hefts (d : Device) : d.relock.hefts = d.hefts.map Heft.relock := by
  unfold Device.relock Device.supply
  split <;> rfl

theorem Device.relock_ref (d : Device) : d.relock.ref = d.ref := by
  unfold Device.relock Device.supply
  split <;> rfl

theorem Device.doRefRestored_passes {d : Device}
    (hpasses : (d.ref.state = 1 ∧ d.watch.age ≤ d.ref.lostAt + 10000000) ∨ d.ref.state = 3) :
    d.doRefRestored = ({ d with ref := { d.ref with state := 2 } } : Device).relock.relocked := if_pos hpasses

/-- The relock goes on while a heft slews (R277). -/
theorem Device.relocked_slewing {d : Device} (hslews : ∃ h, h ∈ d.hefts ∧ h.slewing = true) : d.relocked = d :=
  if_pos (.inr (List.any_eq_true.mpr hslews))

/-- With the last slew of a relock REFCLK is restored and the pens are released. -/
theorem Device.doSlewEnd_last {d : Device} {h : Nat} (hrelocks : d.ref.state = 2) (hgood : d.ref.failed = false)
    (hdone : ∀ x, x ∈ (d.onHeft h fun x => { x with slewing := false }).hefts → x.slewing = false) :
    let e := d.onHeft h fun x => { x with slewing := false }
    d.doSlewEnd h = d.penSites.foldl (fun d n => d.resumePen n .refclk)
      (({ e with ref := { e.ref with state := 0, hold := d.refHold } } : Device).event .refRestored []) := by
  intro e
  have hstill : e.hefts.any (·.slewing) = false := List.any_eq_false.mpr fun x hx => by rw [hdone x hx]; decide
  have hends : ¬(e.ref.state ≠ 2 ∨ e.hefts.any (·.slewing) = true) := by
    rw [hstill]
    exact fun hgoes => hgoes.elim (· hrelocks) Bool.false_ne_true
  have hruns : ¬e.ref.failed = true := by
    change ¬d.ref.failed = true
    rw [hgood]
    decide
  exact (if_neg hends).trans (if_neg hruns)

theorem Device.doRefFail_due {d : Device} (hlost : d.ref.state = 1) (hdue : d.ref.lostAt + 10000000 ≤ d.watch.age) :
    d.doRefFail = ((({ d with ref := { d.ref with state := 3, hold := d.refHold, failed := true } } : Device).event
      .refFail []).haltFolds).declareFailed := if_neg (by omega)

theorem Device.doRefFail_early {d : Device} (hearly : d.watch.age < d.ref.lostAt + 10000000) : d.doRefFail = d :=
  if_pos (.inr hearly)

/-! ## WATCH_FRAME (R280 to R283, R286, R288) -/

/-- A frame's value and low time are good: 64 low ticks, all since the last reload, and a multiple of 65,536 (R280, R283). -/
def Watch.valid (w : Watch) (v low : Nat) : Prop :=
  64 ≤ low ∧ (∀ n, w.fresh = some n → 64 ≤ n) ∧ v % 65536 = 0 ∧ v < 2 ^ 64

theorem Watch.low_iff (w : Watch) (low : Nat) :
    64 ≤ min low (w.fresh.getD low) ↔ 64 ≤ low ∧ ∀ n, w.fresh = some n → 64 ≤ n := by
  cases w.fresh with
  | none => simp
  | some n => simp

section frame
variable {d : Device} {v low : Nat}

theorem Device.doWatchFrame_valid (hvalid : d.watch.valid v low) (hfollows : d.watch.state ≠ 4) :
    d.doWatchFrame v (frameCheck v) low = d.useFrame v := by
  obtain ⟨hlow, hfresh, haligned, hword⟩ := hvalid
  exact (if_neg hfollows).trans (if_pos ⟨(d.watch.low_iff low).mpr ⟨hlow, hfresh⟩, rfl, haligned, hword⟩)

theorem Device.doWatchFrame_invalid {c : Nat} (hbad : ¬d.watch.valid v low ∨ c ≠ frameCheck v)
    (hfollows : d.watch.state ≠ 4) :
    let x : Device := { d with watch := { d.watch with bad := satAdd 16 d.watch.bad 1, row := d.watch.row + 1, last := none } }
    d.doWatchFrame v c low = if 3 ≤ d.watch.row + 1 ∧ d.watch.state ≠ 3 then x.watchHold .watchLoss else x := by
  refine (if_neg hfollows).trans (if_neg ?_)
  rintro ⟨hlow, hcheck, haligned, hword⟩
  obtain ⟨hlow, hfresh⟩ := (d.watch.low_iff low).mp hlow
  exact hbad.elim (· ⟨hlow, hfresh, haligned, hword⟩) (· hcheck)

theorem Device.doWatchFrame_free (hfree : d.watch.state = 4) (c : Nat) : d.doWatchFrame v c low = d := if_pos hfree

/-- The second of two frames 65,536 ticks apart locks an unlocked watch (R280). -/
theorem Device.useFrame_locks {c : Nat} (hunlocked : d.watch.state = 0) (hlast : d.watch.last = some (v - 65536, c))
    (hlater : 65536 ≤ v) (hcount : d.watch.count = c + 65536) :
    d.useFrame v = { d with watch := { d.watch with
      row := 0, state := 1, count := v + d.watch.delay, flag := false, last := none, behind := 0, phase := 0 } } := by
  have hapart : v = v - 65536 + 65536 := by omega
  simp only [Device.useFrame, if_pos hunlocked, hlast, if_pos (And.intro hapart hcount)]

theorem Device.useFrame_first (hunlocked : d.watch.state = 0) (hlast : d.watch.last = none) :
    d.useFrame v = { d with watch := { d.watch with row := 0, last := some (v, d.watch.count) } } := by
  simp only [Device.useFrame, if_pos hunlocked, hlast]

section locked
variable (hlocked : d.watch.state ≠ 0)
include hlocked

theorem Device.useFrame_right (hright : v + d.watch.delay = d.watch.count) :
    d.useFrame v = { d with watch := { d.watch with row := 0, state := 1, flag := false, behind := 0 } } := by
  have hzero : ((v + d.watch.delay : Nat) : Int) - (d.watch.count : Int) = 0 := by omega
  simp only [Device.useFrame, if_neg hlocked, if_pos hzero]

theorem Device.useFrame_far (hfar : d.watch.count + 1024 < v + d.watch.delay ∨ v + d.watch.delay + 1024 < d.watch.count) :
    d.useFrame v = ({ d with watch := { d.watch with row := 0 } } : Device).watchHold .watchJump := by
  have hother : ((v + d.watch.delay : Nat) : Int) - (d.watch.count : Int) ≠ 0 := by omega
  have hjumps : ¬(((v + d.watch.delay : Nat) : Int) - (d.watch.count : Int)).natAbs ≤ 1024 := by omega
  simp only [Device.useFrame, if_neg hlocked, if_neg hother, if_neg hjumps]

variable (hwrong : v + d.watch.delay ≠ d.watch.count)
include hwrong

theorem Device.useFrame_near (hbehind : v + d.watch.delay ≤ d.watch.count + 1024)
    (hahead : d.watch.count ≤ v + d.watch.delay + 1024) :
    d.useFrame v = { d with watch := { d.watch with
      row := 0, state := 2, behind := (v + d.watch.delay : Int) - (d.watch.count : Int)
      slips := satAdd 16 d.watch.slips 1 } } := by
  have hother : ((v + d.watch.delay : Nat) : Int) - (d.watch.count : Int) ≠ 0 := by omega
  have hnear : (((v + d.watch.delay : Nat) : Int) - (d.watch.count : Int)).natAbs ≤ 1024 := by omega
  simp only [Device.useFrame, if_neg hlocked, if_neg hother, if_pos hnear]
  rfl

end locked
end frame

/-- Settles O47: REFCLK by its state and the 10,000,000 ticks, then a frame by its validity, the watch's state and how far it
is off. -/
theorem refclkAndWatchFrames : Obligations.RefclkAndWatchFrames := by
  unfold Obligations.RefclkAndWatchFrames
  refine ⟨fun s => ⟨fun hruns => ?refLoss, fun hpasses => ⟨?restored, ?relocks, fun h hh => ?hefts, fun hslews => ?slews⟩,
      fun h hrelocks hgood hdone => ?released, fun hlost hdue => ?refFail, fun hlost hearly => ?early⟩,
    fun s v low => ⟨fun hvalid hunlocked c hlast hlater hcount => ?locks, fun hvalid hunlocked hlast => ?first,
      fun hvalid hstate hright => ?right, fun hvalid hstate hwrong hbehind hahead => ?near, fun hvalid hstate hfar => ?far,
      fun c hfollows hbad => ?invalid, fun hfree c => ?free, fun hstate => ?watchLoss, fun hholds hlimit hnew => ?skew⟩⟩
  case refLoss => rw [exec_refLoss, Device.doRefLoss_running hruns]
  case restored => rw [exec_refRestored, Device.doRefRestored_passes hpasses]
  case relocks => rw [Device.relock_ref]
  case hefts =>
    rw [Device.relock_hefts] at hh
    obtain ⟨x, -, rfl⟩ := List.mem_map.mp hh
    exact x.relock_locked
  case slews =>
    obtain ⟨x, hx, hother⟩ := hslews
    refine Device.relocked_slewing ⟨x.relock, ?_, Heft.relock_slewing hother⟩
    rw [Device.relock_hefts]
    exact List.mem_map_of_mem hx
  case released => rw [exec_heftSlewEnd, Device.doSlewEnd_last hrelocks hgood hdone]
  case refFail => rw [exec_refFail, Device.doRefFail_due hlost hdue]
  case early => rw [exec_refFail, Device.doRefFail_early hearly]
  case locks =>
    rw [exec_watchFrame, Device.doWatchFrame_valid hvalid (by omega), Device.useFrame_locks hunlocked hlast hlater hcount]
  case first => rw [exec_watchFrame, Device.doWatchFrame_valid hvalid (by omega), Device.useFrame_first hunlocked hlast]
  case right =>
    rw [exec_watchFrame, Device.doWatchFrame_valid hvalid (by omega), Device.useFrame_right (by omega) hright]
  case near =>
    rw [exec_watchFrame, Device.doWatchFrame_valid hvalid (by omega), Device.useFrame_near (by omega) hwrong hbehind hahead]
  case far =>
    rw [exec_watchFrame, Device.doWatchFrame_valid hvalid (by omega), Device.useFrame_far (by omega) hfar]
  case invalid =>
    rw [exec_watchFrame, Device.doWatchFrame_invalid hbad hfollows]
    simp only [Nat.reduceLeDiff]
  case free => rw [exec_watchFrame, Device.doWatchFrame_free hfree]
  case watchLoss => rw [exec_watchLoss, Device.doWatchLoss, if_pos hstate]
  case skew =>
    rw [exec_watchSkew, Device.doWatchSkew, if_pos ⟨hholds, hlimit, by rw [hnew]; rfl⟩]

end Sys2Proof.Machine
end

section
/-!
The power governor and the temperature monitor (R264, R485 to R489).
-/
namespace Sys2Proof.Machine

/-! ## How long a condition has held (R485 to R488) -/

/-- A condition has held for n ticks. -/
def stoodFor (now : Nat) (since : Option Nat) (n : Nat) : Prop := ∃ t, since = some t ∧ t + n ≤ now

theorem lasted_iff {now from_ n : Nat} {since : Option Nat} :
    lasted now since from_ n = true ↔ stoodFor now since n ∧ from_ + n ≤ now := by
  cases since with
  | none => simp [lasted, stoodFor]
  | some t =>
    simp only [lasted, stoodFor, decide_eq_true_eq, Option.some.injEq, exists_eq_left']
    omega

theorem lasted_iff_stoodFor {now n : Nat} {since : Option Nat} : lasted now since 0 n = true ↔ stoodFor now since n := by
  rw [lasted_iff, and_iff_left_iff_imp]
  rintro ⟨t, -, ht⟩
  omega

theorem not_stoodFor_of_lt {now t n : Nat} {since : Option Nat} (hsince : since = some t) (hearly : now < t + n) :
    ¬stoodFor now since n := by
  rintro ⟨t', hsince', hdue⟩
  cases hsince.symm.trans hsince'
  omega

theorem not_stoodFor_of_none {since : Option Nat} (hnone : since = none) (now n : Nat) : ¬stoodFor now since n :=
  fun ⟨_, hsince, _⟩ => Option.some_ne_none _ (hsince.symm.trans hnone)

theorem spell_decide (now : Nat) (was : Option Nat) (c : Prop) [Decidable c] :
    spell now was (decide c) = if c then some (was.getD now) else none := by
  simp only [spell, decide_eq_true_eq]

/-! ## The governor (R485 to R487) -/

section governor
variable {d : Device}

theorem Device.doMeasure_powered (hstage : 2 ≤ d.bring.stage) (last fast slow : Nat) :
    let p := d.power
    let now := d.watch.age
    let e : Device := { d with power := { p with
      last := last, fast := fast, slow := slow
      slowOver := spell now p.slowOver (p.watts < slow), slowLow := spell now p.slowLow (slow * 100 < p.watts * 95)
      fastOver := spell now p.fastOver (p.watts < fast), fastLow := spell now p.fastLow (fast * 10 < p.watts * 9) } }
    d.doMeasure last fast slow = if p.watts < slow then e.alert 1 else e := if_neg (Nat.not_lt.mpr hstage)

theorem Device.doGovDown_due (hstage : 2 ≤ d.bring.stage) (hstands : stoodFor d.watch.age d.power.slowOver 100000)
    (hspaced : d.power.downAt + 100000 ≤ d.watch.age) : d.doGovDown =
      { d.govern (min 4 (d.power.step + 1)) with
        power := { d.power with step := min 4 (d.power.step + 1), downAt := d.watch.age } } :=
  if_pos ⟨lasted_iff.mpr ⟨hstands, hspaced⟩, hstage⟩

theorem Device.doGovDown_early
    (hearly : ¬stoodFor d.watch.age d.power.slowOver 100000 ∨ d.watch.age < d.power.downAt + 100000) : d.doGovDown = d := by
  refine if_neg fun ⟨hlasted, _⟩ => ?_
  obtain ⟨hstands, hspaced⟩ := lasted_iff.mp hlasted
  exact hearly.elim (· hstands) (Nat.not_lt.mpr hspaced)

theorem Device.doGovUp_due (hstage : 2 ≤ d.bring.stage) (hstands : stoodFor d.watch.age d.power.slowLow 1000000)
    (hspaced : d.power.upAt + 1000000 ≤ d.watch.age) (hunguarded : d.power.guard = false) : d.doGovUp =
      { d.govern (d.power.step - 1) with power := { d.power with step := d.power.step - 1, upAt := d.watch.age } } :=
  if_pos ⟨lasted_iff.mpr ⟨hstands, hspaced⟩, by rw [hunguarded]; rfl, hstage⟩

theorem Device.doGovUp_early (hearly : ¬stoodFor d.watch.age d.power.slowLow 1000000 ∨
    d.watch.age < d.power.upAt + 1000000 ∨ d.power.guard = true) : d.doGovUp = d := by
  refine if_neg fun ⟨hlasted, hunguarded, _⟩ => ?_
  obtain ⟨hstands, hspaced⟩ := lasted_iff.mp hlasted
  rcases hearly with hshort | hsoon | hguard
  · exact hshort hstands
  · exact Nat.not_lt.mpr hspaced hsoon
  · rw [hguard] at hunguarded
    exact Bool.false_ne_true hunguarded

theorem Device.doGuard_enters (hstage : 2 ≤ d.bring.stage)
    (hexceeds : 2000 < d.power.last ∨ stoodFor d.watch.age d.power.fastOver 1000000) (hunguarded : d.power.guard = false) :
    d.doGuard = ({ d.govern 4 with
      power := { d.power with step := 4, guard := true, guardAt := d.watch.age } } : Device).alert 2 :=
  if_pos ⟨hexceeds.imp_right lasted_iff_stoodFor.mpr, by rw [hunguarded]; rfl, hstage⟩

theorem Device.doGuard_within (hlast : d.power.last ≤ 2000) (hshort : ¬stoodFor d.watch.age d.power.fastOver 1000000) :
    d.doGuard = d :=
  if_neg fun ⟨hexceeds, _⟩ => hexceeds.elim (Nat.not_lt.mpr hlast) fun hlasted => hshort (lasted_iff_stoodFor.mp hlasted)

theorem Device.doGovPause_due (hguard : d.power.guard = true) (hdue : d.power.guardAt + 100000 ≤ d.watch.age)
    (hover : d.power.watts < d.power.fast) : d.doGovPause =
      ((d.penSites.filter fun n => !(d.site n).stops.contains .governor).reverse.take 4).foldl
        (fun d n => d.stopPen n .governor) d := if_pos ⟨hguard, hdue, hover⟩

theorem Device.doLeaveGuard_due (hguard : d.power.guard = true) (hstands : stoodFor d.watch.age d.power.fastLow 100000) :
    d.doLeaveGuard = d.penSites.foldl (fun d n => d.resumePen n .governor)
      { d with power := { d.power with guard := false } } :=
  if_pos ⟨hguard, lasted_iff_stoodFor.mpr hstands⟩

end governor

/-! ## Temperature (R264, R488, R489) -/

section sensor
variable {d : Device} {h t : Nat}

/-- A reading is kept, with since when it has been at 95 °C or more or below 90; at 90 or more it raises alert 0. -/
theorem Device.sense_eq (d : Device) (h t : Nat) : d.sense h t =
    let now := d.watch.age
    let read := d.onHeft h fun x => { x with
      temp := t, hotAt := if 95 ≤ t then some ((d.heft h).hotAt.getD now) else none
      coolAt := if t < 90 then some ((d.heft h).coolAt.getD now) else none }
    if 90 ≤ t then read.alert 0 else read := by
  have hread (now : Nat) : d.onHeft h (fun x => { x with
        temp := t, hotAt := if 95 ≤ t then some (x.hotAt.getD now) else none
        coolAt := if t < 90 then some (x.coolAt.getD now) else none }) =
      d.onHeft h fun x => { x with
        temp := t, hotAt := if 95 ≤ t then some ((d.heft h).hotAt.getD now) else none
        coolAt := if t < 90 then some ((d.heft h).coolAt.getD now) else none } :=
    Device.onHeft_congr rfl
  simp only [Device.sense, spell_decide, hread]

/-- Beside the heft a reading changes the alerts at most. -/
theorem Device.sense_parts (d : Device) (h t : Nat) : ∃ po, d.sense h t = { d.onHeft h fun x => { x with
    temp := t, hotAt := spell d.watch.age x.hotAt (95 ≤ t)
    coolAt := spell d.watch.age x.coolAt (t < 90) } with power := po } := by
  unfold Device.sense
  extract_lets now read
  split
  · exact read.alert_eq 0
  · exact ⟨_, rfl⟩

theorem Device.sense_watch : (d.sense h t).watch = d.watch := by
  obtain ⟨po, hsense⟩ := d.sense_parts h t
  rw [hsense]
  rfl

theorem Device.heft_sense (hh : h < d.hefts.length) : (d.sense h t).heft h = { d.heft h with
    temp := t, hotAt := spell d.watch.age (d.heft h).hotAt (95 ≤ t)
    coolAt := spell d.watch.age (d.heft h).coolAt (t < 90) } := by
  obtain ⟨po, hsense⟩ := d.sense_parts h t
  rw [hsense]
  exact (Device.heft_onHeft ..).trans (if_pos ⟨rfl, hh⟩)

section monitor
variable (hlow : h < 49) (hh : h < d.hefts.length) (hstage : 2 ≤ d.bring.stage)
include hlow hh hstage

theorem Device.doThermDown_powered : d.doThermDown h t =
    if lasted d.watch.age (spell d.watch.age (d.heft h).hotAt (95 ≤ t)) 0 100000 then
      (d.sense h t).onHeft h fun x => { x with monitor := min 4 (max x.target (x.monitor + 1)), hotAt := some d.watch.age }
    else d.sense h t := by
  have hsenses : ¬(49 ≤ h ∨ d.bring.stage < 2) := by omega
  simp only [Device.doThermDown, if_neg hsenses, Device.sense_watch, Device.heft_sense hh]

theorem Device.doThermUp_powered : d.doThermUp h t =
    if lasted d.watch.age (spell d.watch.age (d.heft h).coolAt (t < 90)) 0 1000000 then
      (d.sense h t).onHeft h fun x => { x with monitor := x.monitor - 1, coolAt := some d.watch.age }
    else d.sense h t := by
  have hsenses : ¬(49 ≤ h ∨ d.bring.stage < 2) := by omega
  simp only [Device.doThermUp, if_neg hsenses, Device.sense_watch, Device.heft_sense hh]

theorem Device.doThermDown_due (hstands : stoodFor d.watch.age (spell d.watch.age (d.heft h).hotAt (95 ≤ t)) 100000) :
    d.doThermDown h t = (d.sense h t).onHeft h fun x =>
      { x with monitor := min 4 (max x.target (x.monitor + 1)), hotAt := some d.watch.age } := by
  rw [Device.doThermDown_powered hlow hh hstage, if_pos (lasted_iff_stoodFor.mpr hstands)]

theorem Device.doThermDown_early (hshort : ¬stoodFor d.watch.age (spell d.watch.age (d.heft h).hotAt (95 ≤ t)) 100000) :
    d.doThermDown h t = d.sense h t := by
  rw [Device.doThermDown_powered hlow hh hstage, if_neg (mt lasted_iff_stoodFor.mp hshort)]

theorem Device.doThermUp_due (hstands : stoodFor d.watch.age (spell d.watch.age (d.heft h).coolAt (t < 90)) 1000000) :
    d.doThermUp h t = (d.sense h t).onHeft h fun x => { x with monitor := x.monitor - 1, coolAt := some d.watch.age } := by
  rw [Device.doThermUp_powered hlow hh hstage, if_pos (lasted_iff_stoodFor.mpr hstands)]

theorem Device.doThermUp_early (hshort : ¬stoodFor d.watch.age (spell d.watch.age (d.heft h).coolAt (t < 90)) 1000000) :
    d.doThermUp h t = d.sense h t := by
  rw [Device.doThermUp_powered hlow hh hstage, if_neg (mt lasted_iff_stoodFor.mp hshort)]

end monitor

theorem Device.doThermtrip_hot (hlow : h < 49) (hstage : 2 ≤ d.bring.stage) (hhot : 105 ≤ t) :
    let e := d.sense h t
    d.doThermtrip h t = ({ e with
      pins := { e.pins with thermtrip := true, fault := true }
      persist := { e.persist with trips := e.persist.trips + 1 } } : Device).dropRails 5 :=
  if_neg (by omega)

end sensor

/-- Settles O57: the governor's commands by how long the averages have stood, the monitor's by how long the reading has. -/
theorem governorAndTemperature : Obligations.GovernorAndTemperature := by
  unfold Obligations.GovernorAndTemperature
  refine ⟨fun s hstage => ⟨fun last fast slow => ?measure, fun hstands hspaced => ?stepDown, fun hearly => ?downEarly,
      fun hstands hspaced hunguarded => ?stepUp, fun hearly => ?upEarly, fun hexceeds hunguarded => ?excursion,
      fun hlast hshort => ?within, fun hguard hdue hover => ?pause, fun hguard hstands => ?leave⟩,
    fun s h t hlow hh hstage => ⟨fun n hhot => ⟨fun hdue => ?hot, fun hearly => ?hotEarly⟩,
      fun n hcool => ⟨fun hdue => ?cool, fun hearly => ?coolEarly⟩, fun hnone => ?notHot, fun hnone => ?notCool,
      fun htrip => ?trip⟩⟩
  case measure =>
    rw [exec_powerMeasurement, Device.doMeasure_powered hstage]
    simp only [spell_decide]
    rfl
  case stepDown => rw [exec_governorStepDown, Device.doGovDown_due hstage hstands hspaced]
  case downEarly => rw [exec_governorStepDown, Device.doGovDown_early hearly]
  case stepUp => rw [exec_governorStepUp, Device.doGovUp_due hstage hstands hspaced hunguarded]
  case upEarly => rw [exec_governorStepUp, Device.doGovUp_early hearly]
  case excursion => rw [exec_excursionGuard, Device.doGuard_enters hstage hexceeds hunguarded]
  case within => rw [exec_excursionGuard, Device.doGuard_within hlast hshort]
  case pause => rw [exec_governorPause, Device.doGovPause_due hguard hdue hover]
  case leave => rw [exec_leaveGuard, Device.doLeaveGuard_due hguard hstands]
  case hot =>
    have hstands : stoodFor _ _ 100000 := ⟨n, (spell_decide ..).trans hhot, hdue⟩
    rw [exec_thermalStepDown, Device.doThermDown_due hlow hh hstage hstands, Device.sense_eq]
  case hotEarly =>
    have hshort := not_stoodFor_of_lt ((spell_decide ..).trans hhot) hearly
    rw [exec_thermalStepDown, Device.doThermDown_early hlow hh hstage hshort, Device.sense_eq]
  case cool =>
    have hstands : stoodFor _ _ 1000000 := ⟨n, (spell_decide ..).trans hcool, hdue⟩
    rw [exec_thermalStepUp, Device.doThermUp_due hlow hh hstage hstands, Device.sense_eq]
  case coolEarly =>
    have hshort := not_stoodFor_of_lt ((spell_decide ..).trans hcool) hearly
    rw [exec_thermalStepUp, Device.doThermUp_early hlow hh hstage hshort, Device.sense_eq]
  case notHot =>
    have hshort := not_stoodFor_of_none ((spell_decide ..).trans hnone) s.dev.watch.age 100000
    rw [exec_thermalStepDown, Device.doThermDown_early hlow hh hstage hshort, Device.sense_eq]
  case notCool =>
    have hshort := not_stoodFor_of_none ((spell_decide ..).trans hnone) s.dev.watch.age 1000000
    rw [exec_thermalStepUp, Device.doThermUp_early hlow hh hstage hshort, Device.sense_eq]
  case trip => rw [exec_thermtrip, Device.doThermtrip_hot hlow hstage htrip, Device.sense_eq]

end Sys2Proof.Machine
end

section
/-!
Places of data addresses in the LPDDR5X packages, and the check lines of their chunks (R290, R293, R294, R296).
-/
namespace Sys2Proof.Machine

/-! ## Fields of a number, put together and shifted -/

/-- A field extends what is known of the bits below it: the converse of `bits_congr`, one field at a time. -/
theorem mod_two_pow_eq_of_bits_eq {v w lo hi : Nat} (hle : lo ≤ hi + 1) (hlow : v % 2 ^ lo = w % 2 ^ lo)
    (hfield : bits v hi lo = bits w hi lo) : v % 2 ^ (hi + 1) = w % 2 ^ (hi + 1) := by
  simp only [bits, Nat.shiftRight_eq_div_pow] at hfield
  rw [← Nat.add_sub_cancel' hle, Nat.pow_add, Nat.mod_mul, Nat.mod_mul, hlow, hfield]

/-- A field of the upper of two parts. -/
theorem bits_add_two_pow_mul {x k : Nat} (hx : x < 2 ^ k) (y hi lo : Nat) :
    bits (x + 2 ^ k * y) (k + hi) (k + lo) = bits y hi lo := by
  have hshift : (x + 2 ^ k * y) >>> k = y := by
    rw [Nat.shiftRight_eq_div_pow, Nat.add_mul_div_left _ _ (Nat.two_pow_pos k), Nat.div_eq_of_lt hx, Nat.zero_add]
  rw [bits, bits, Nat.shiftRight_add, hshift, show k + hi + 1 - (k + lo) = hi + 1 - lo by omega]

theorem bits_eq_zero_of_lt {v lo : Nat} (hv : v < 2 ^ lo) (hi : Nat) : bits v hi lo = 0 := by
  rw [bits, Nat.shiftRight_eq_div_pow, Nat.div_eq_of_lt hv, Nat.zero_mod]

/-! ## Channels and channel addresses (R290, R296) -/

theorem channelAddr_div (a : Nat) : channelAddr a / 1024 = a / 64 / 15 / 32 := by
  unfold channelAddr
  omega

theorem channelAddr_mod (a : Nat) : channelAddr a % 1024 = a / 64 % 15 * 64 + a % 64 := by
  unfold channelAddr
  omega

theorem checkAddr_div (a : Nat) : checkAddr a / 1024 = a / 64 / 15 / 32 := by
  unfold checkAddr
  omega

theorem checkAddr_mod (a : Nat) : checkAddr a % 1024 = 960 + 4 * (a / 64 % 15) := by
  unfold checkAddr
  omega

theorem channelOf_eq (a : Nat) : channelOf a = 8 * (a / 64 / 15 % 4) + a / 64 / 15 / 4 % 8 := rfl

theorem channelOf_lt (a : Nat) : channelOf a < 32 := by
  rw [channelOf_eq]
  omega

theorem channelOf_div (a : Nat) : channelOf a / 8 = quarterOf a := by
  rw [channelOf_eq, quarterOf]
  omega

/-- The channel tells which of 32 chunks in a row the address is in. -/
theorem chunk_mod_eq_of_channelOf_eq {a b : Nat} (h : channelOf a = channelOf b) : a / 64 / 15 % 32 = b / 64 / 15 % 32 := by
  rw [channelOf_eq, channelOf_eq] at h
  have hquarter : a / 64 / 15 % 4 = b / 64 / 15 % 4 := by omega
  have hchannel : a / 64 / 15 / 4 % 8 = b / 64 / 15 / 4 % 8 := by omega
  rw [show 32 = 4 * 8 from rfl, Nat.mod_mul, Nat.mod_mul, hquarter, hchannel]

/-- Channel and channel address give the data address back: the chunk from the channel and the bits from 10 up, the line and the
byte in it from the rest. -/
theorem eq_of_channelOf_eq_of_channelAddr_eq {a b : Nat} (hchannel : channelOf a = channelOf b)
    (haddr : channelAddr a = channelAddr b) : a = b := by
  have hlow : a / 64 / 15 % 32 = b / 64 / 15 % 32 := chunk_mod_eq_of_channelOf_eq hchannel
  have hhigh : a / 64 / 15 / 32 = b / 64 / 15 / 32 := by rw [← channelAddr_div, haddr, channelAddr_div]
  have hrest : a / 64 % 15 * 64 + a % 64 = b / 64 % 15 * 64 + b % 64 := by rw [← channelAddr_mod, haddr, channelAddr_mod]
  have hchunk : a / 64 / 15 = b / 64 / 15 := by omega
  have hline : a / 64 = b / 64 := by omega
  omega

/-! ## Place of a channel address (R296) -/

/-- The highest bit of a channel address: the rank bit. -/
def rankBit (l512 : Bool) : Nat := if l512 then 33 else 32

theorem rowOf_eq (l512 : Bool) (x : Nat) : rowOf l512 x = bits x (rankBit l512 - 1) 15 := by cases l512 <;> rfl

theorem rankOf_eq (l512 : Bool) (x : Nat) : rankOf l512 x = bits x (rankBit l512) (rankBit l512) := rfl

theorem rankBit_ge (l512 : Bool) : 32 ≤ rankBit l512 := by cases l512 <;> decide

/-- A data address within the largest capacity has a channel address that ends with the rank bit. -/
theorem channelAddr_lt {l512 : Bool} {a : Nat} (ha : a < if l512 then 15 * 2 ^ 35 else 15 * 2 ^ 34) :
    channelAddr a < 2 ^ (rankBit l512 + 1) := by
  have hdiv := channelAddr_div a
  cases l512 with
  | false =>
    change a < 15 * 2 ^ 34 at ha
    change channelAddr a < 2 ^ 33
    omega
  | true =>
    change a < 15 * 2 ^ 35 at ha
    change channelAddr a < 2 ^ 34
    omega

/-- Column, bank, row and rank give every bit of a channel address up to the rank bit, field by field from the lowest. -/
theorem mod_eq_of_place_eq {l512 : Bool} {x y : Nat} (hrank : rankOf l512 x = rankOf l512 y) (hrow : rowOf l512 x = rowOf l512 y)
    (hbank : bankOf x = bankOf y) (hcolumn : columnOf x = columnOf y) :
    x % 2 ^ (rankBit l512 + 1) = y % 2 ^ (rankBit l512 + 1) := by
  obtain ⟨hgroup, hbank⟩ := Prod.mk.inj hbank
  have hge := rankBit_ge l512
  rw [rowOf_eq, rowOf_eq] at hrow
  rw [rankOf_eq, rankOf_eq] at hrank
  have h11 : x % 2 ^ 11 = y % 2 ^ 11 := mod_two_pow_eq_of_bits_eq (by omega) (by omega) hcolumn
  have h13 : x % 2 ^ 13 = y % 2 ^ 13 := mod_two_pow_eq_of_bits_eq (by omega) h11 hgroup
  have h15 : x % 2 ^ 15 = y % 2 ^ 15 := mod_two_pow_eq_of_bits_eq (by omega) h13 hbank
  have hrows := mod_two_pow_eq_of_bits_eq (by omega) h15 hrow
  rw [Nat.sub_add_cancel (by omega)] at hrows
  exact mod_two_pow_eq_of_bits_eq (by omega) hrows hrank

/-! ## Check lines (R293) -/

/-- Pieces of one length k, one after the other: piece j stands at k * j, whatever follows. -/
theorem take_drop_flatMap {α β : Type} {f : α → List β} {k : Nat} (hlen : ∀ x, (f x).length = k) (t : List β) {l : List α}
    {j : Nat} (hj : j < l.length) : ((l.flatMap f ++ t).drop (k * j)).take k = f l[j] := by
  induction l generalizing j with
  | nil => simp at hj
  | cons x xs ih =>
    rw [List.flatMap_cons, List.append_assoc]
    cases j with
    | zero => exact List.take_left' (hlen x)
    | succ j =>
      rw [Nat.mul_succ, Nat.add_comm, ← List.drop_drop, List.drop_left' (hlen x)]
      exact ih (Nat.lt_of_succ_lt_succ hj)

/-- The 15 fields of a check line take its first 60 bytes. -/
theorem Mem.checkFields_length (m : Mem) (c : Nat) :
    ((List.range 15).flatMap fun j => leBytes 4 (m.checkField (15 * c + j))).length = 60 := by
  simp [List.length_flatMap, leBytes_length]

theorem Mem.checkLine_length (m : Mem) (c : Nat) : (m.checkLine c).length = 64 := by
  rw [Mem.checkLine, List.length_append, m.checkFields_length, List.length_replicate]

theorem Mem.checkLine_drop (m : Mem) (c : Nat) : (m.checkLine c).drop 60 = List.replicate 4 0#8 :=
  List.drop_left' (m.checkFields_length c)

theorem Mem.checkLine_field (m : Mem) (c : Nat) {j : Nat} (hj : j < 15) :
    ((m.checkLine c).drop (4 * j)).take 4 = leBytes 4 (m.checkField (15 * c + j)) := by
  have hpiece := take_drop_flatMap (f := fun i => leBytes 4 (m.checkField (15 * c + i))) (fun _ => leBytes_length 4 _)
    (List.replicate 4 0#8) (l := List.range 15) (by simpa using hj)
  rwa [List.getElem_range] at hpiece

/-! ## Check fields (R293, R294) -/

/-- What a check field holds of half h of a line: its check bits, and 3 above them where it is poisoned. -/
def Mem.halfField (m : Mem) (line h : Nat) : Nat :=
  Config.secded (sget .none m.lineKey line) (m.bytes.bytes (64 * line + 32 * h) 32) (channelAddr (64 * line) / 64) % 2 ^ 10 +
    2 ^ 10 * if m.poison.contains (2 * line + h) then 3 else 0

theorem Mem.checkField_eq (m : Mem) (line : Nat) :
    m.checkField line = m.halfField line 0 + 2 ^ 16 * m.halfField line 1 := by
  simp only [Mem.checkField, Mem.halfField, mul_ite, Nat.mul_zero, Nat.mul_comm 3]

theorem Mem.bits_halfField (m : Mem) (line h : Nat) :
    bits (m.halfField line h) 11 10 = if m.poison.contains (2 * line + h) then 3 else 0 := by
  rw [Mem.halfField, bits_add_two_pow_mul (Nat.mod_lt _ (Nat.two_pow_pos 10)) _ 1 0]
  split <;> rfl

theorem Mem.halfField_lt (m : Mem) (line h : Nat) : m.halfField line h < 2 ^ 12 := by
  unfold Mem.halfField
  split <;> omega

/-- A field of the lower half of a check field. -/
theorem Mem.bits_checkField_low (m : Mem) (line lo : Nat) {hi : Nat} (hhi : hi < 16) :
    bits (m.checkField line) hi lo = bits (m.halfField line 0) hi lo := by
  rw [m.checkField_eq]
  exact bits_congr (Nat.add_mul_mod_self_left ..) hhi lo

/-- A field of the upper half of a check field. -/
theorem Mem.bits_checkField_high (m : Mem) (line hi lo : Nat) :
    bits (m.checkField line) (16 + hi) (16 + lo) = bits (m.halfField line 1) hi lo := by
  rw [m.checkField_eq]
  exact bits_add_two_pow_mul ((m.halfField_lt line 0).trans (by decide)) ..

theorem Mem.checkField_lt (m : Mem) (line : Nat) : m.checkField line < 2 ^ 28 := by
  have hlow := m.halfField_lt line 0
  have hhigh := m.halfField_lt line 1
  rw [m.checkField_eq]
  omega

/-- Settles O8: an address from its channel and the fields of its channel address, a check line by its fields, and a check field
by its halves. -/
theorem dataAddressesHaveTheirOwnPlaces : Obligations.DataAddressesHaveTheirOwnPlaces := by
  unfold Obligations.DataAddressesHaveTheirOwnPlaces
  refine ⟨fun l512 a b ha hb => ?place, fun a => ?channel, fun m c => ?line, fun m l => ?field⟩
  case place =>
    intro place hplace
    simp only [place, Prod.mk.injEq] at hplace
    obtain ⟨hchannel, hrank, hrow, hbank, hcolumn⟩ := hplace
    have hmod := mod_eq_of_place_eq hrank hrow hbank hcolumn
    rw [Nat.mod_eq_of_lt (channelAddr_lt ha), Nat.mod_eq_of_lt (channelAddr_lt hb)] at hmod
    exact eq_of_channelOf_eq_of_channelAddr_eq hchannel hmod
  case channel =>
    have hpackage : packageOf (channelOf a) < 8 := Nat.div_lt_of_lt_mul (channelOf_lt a)
    rw [channelAddr_mod, checkAddr_mod]
    exact ⟨channelOf_lt a, channelOf_div a, hpackage, by rw [checkAddr_div, channelAddr_div], by omega, by omega, by omega⟩
  case line => exact ⟨m.checkLine_length c, m.checkLine_drop c, fun j hj => m.checkLine_field c hj⟩
  case field =>
    refine ⟨?_, ?_, ?_, m.checkField_lt l⟩
    · rw [m.bits_checkField_low l 10 (by decide), m.bits_halfField]; rfl
    · exact (m.bits_checkField_high l 11 10).trans (m.bits_halfField l 1)
    · rw [m.bits_checkField_low l 12 (by decide), bits_eq_zero_of_lt (m.halfField_lt l 0)]

end Sys2Proof.Machine
end

section
/-!
Descriptors fetched and completed: the completion entry reserved for a fetch, and used up by the completion (R400, R408 to
R411, R425).
-/
namespace Sys2Proof.Machine

/-- Two devices that are the same answer the same next state. -/
theorem next_congr {d e : Device} {q : List Instr} (h : d = e) :
    (.next ⟨d, q⟩ : Host.Outcome State Fault Refusal) = .next ⟨e, q⟩ := by rw [h]

/-! ## Reads of host memory that leave at once (R402) -/

theorem Device.serveReads_idle {d : Device} (hidle : d.hport.waiting = []) (n : Nat) : Device.serveReads n d = d := by
  cases n with
  | zero => rfl
  | succ n =>
    have hnone : d.hport.nextSource = none := by simp [HostPort.nextSource, hidle]
    simp only [Device.serveReads, hnone]

/-- A source that waits alone is served next, if it may have one more read. -/
theorem HostPort.nextSource_alone {p : HostPort} {q : HostReq} (hwaiting : p.waiting = [q]) (hmay : p.may q.src = true) :
    p.nextSource = some q.src := by
  by_cases hturn : p.turn < q.src <;> simp [HostPort.nextSource, hwaiting, hmay, hturn]

/-- One turn: the oldest read of the source whose turn it is leaves. -/
theorem Device.serveReads_turn {d : Device} {src : Nat} {q : HostReq} {rest : List HostReq}
    (hnext : d.hport.nextSource = some src) (htake : takeWaiting d.hport.maxRead src d.hport.waiting = some (q, rest)) (n : Nat) :
    Device.serveReads (n + 1) d = Device.serveReads n (({ d with hport := { d.hport with
      tags := d.hport.tags ++ [(d.hport.freeTag, src, some q)], waiting := rest, turn := src } } : Device).readOut
        d.hport.freeTag q) := by
  simp only [Device.serveReads, hnext, htake]

theorem Device.readOut_hport (d : Device) (tag : Nat) (q : HostReq) : (d.readOut tag q).hport = d.hport := by
  unfold Device.readOut
  split
  · obtain ⟨li, ou, h⟩ := d.sendTo_same
      { d.packetTo d.bellRank 1 4 with tally := tag, data := leBytes 8 q.addr ++ leBytes 8 q.len }
    rw [h]
  · rfl

/-- A read asked for where none waits leaves under the free tag, if its source may have one more. -/
theorem Device.askRead_at_once {d : Device} {src : Nat} (hidle : d.hport.waiting = []) (hmay : d.hport.may src = true)
    {len : Nat} (hlen : len ≤ d.hport.maxRead) (job : Job) (addr : Nat) :
    d.askRead src job addr len =
      ({ d with hport := { d.hport with
        tags := d.hport.tags ++ [(d.hport.freeTag, src, some ⟨src, job, 0, addr, len⟩)], turn := src } } : Device).readOut
          d.hport.freeTag ⟨src, job, 0, addr, len⟩ := by
  have hnext : ({ d.hport with waiting := [⟨src, job, 0, addr, len⟩] } : HostPort).nextSource = some src :=
    HostPort.nextSource_alone (q := ⟨src, job, 0, addr, len⟩) rfl hmay
  have htake : takeWaiting d.hport.maxRead src [⟨src, job, 0, addr, len⟩] = some (⟨src, job, 0, addr, len⟩, []) := by
    simp [takeWaiting, hlen]
  rw [Device.askRead, hidle]
  refine (Device.serveReads_turn hnext htake 4095).trans ?_
  rw [Device.serveReads_idle (by rw [Device.readOut_hport]), ← hidle]
  rfl

/-! ## DESCRIPTOR_FETCH (R400, R408, R409) -/

/-- One entry of the CQ is reserved, and the SQ's next entry is asked for. -/
theorem Device.doFetchDesc_asks {d : Device} {sq : Nat} (hsq : sq < 512) (hstate : (d.ring sq).state = 1)
    (hcovered : (d.ring sq).pos ≠ (d.ring sq).host) (hcq : (d.ring (512 + (d.ring sq).link)).state = 1)
    (hroom : (d.ring (512 + (d.ring sq).link)).room ≠ 0) (hfetch : d.hport.fetching sq = false) :
    d.doFetchDesc sq =
      let r := d.ring sq
      let cq := d.ring (512 + r.link)
      (d.setRing (512 + r.link) { cq with reserved := cq.reserved + 1 }).askRead (ownerFn r.owner) (.fetch sq)
        (r.base + 64 * r.index r.pos) 64 := by
  simp (disch := omega) [Device.doFetchDesc, hstate, hcovered, hcq, hroom, hfetch, if_neg]

section returned
variable {d e : Device} {tag src sq : Nat} {q : HostReq} (hreturned : d.returned tag src q e) (hjob : q.job = .fetch sq)
include hreturned

theorem Device.returned_ring (n : Nat) : e.ring n = d.ring n := by
  obtain ⟨-, rfl⟩ := hreturned
  rfl

include hjob

/-- The entry that comes is a descriptor in progress, and the head moves on (R408). -/
theorem Device.doHostRead_fetched {bs : List Byte} (hlen : bs.length = q.len) :
    d.doHostRead tag (.data bs) = Device.serveReads 4096 (Device.sweepGo 16 ({ e with
      descs := e.descs ++ [(⟨sq, (d.ring sq).pos % 2 ^ (d.ring sq).size, bs, e.fetchOrder, false, 0⟩ : Desc)]
      fetchOrder := e.fetchOrder + 1 }.setRing sq
        { d.ring sq with pos := ((d.ring sq).pos + 1) % (2 * 2 ^ (d.ring sq).size) }) sq) := by
  rw [Device.doHostRead_returned hreturned fun _ h => by cases h; exact hlen, Device.landRead, hjob,
    ← Device.returned_ring hreturned]
  rfl

/-- A failed fetch frees its reserved entry and halts the SQ (R425). -/
theorem Device.doHostRead_fetchFails :
    d.doHostRead tag .abort = Device.serveReads 4096
      (let c := 512 + (d.ring sq).link
       (e.setRing c { d.ring c with reserved := (d.ring c).reserved - 1 }).haltRing sq 2) := by
  rw [Device.doHostRead_returned (data := .abort) hreturned (fun _ h => nomatch h), Device.landRead, hjob]
  simp only [← Device.returned_ring hreturned]
  rfl

end returned

/-! ## What writes of host memory and interrupts leave (R350) -/

/-- e is d but for host memory, the link ports and the outputs. -/
def Device.sameButHost (d e : Device) : Prop := ∃ ho li ou, e = { d with host := ho, links := li, out := ou }

theorem Device.sameButHost_trans {a b c : Device} (h : a.sameButHost b) (k : b.sameButHost c) : a.sameButHost c := by
  obtain ⟨_, _, _, rfl⟩ := h
  obtain ⟨_, _, _, rfl⟩ := k
  exact ⟨_, _, _, rfl⟩

theorem Device.sameButHost_of_sent {d e : Device} (h : d.sameButSent e) : d.sameButHost e := by
  obtain ⟨_, _, rfl⟩ := h
  exact ⟨_, _, _, rfl⟩

theorem Device.sameButHost_setRing {d e : Device} (h : d.sameButHost e) (n : Nat) (r : Ring) :
    (d.setRing n r).sameButHost (e.setRing n r) := by
  obtain ⟨_, _, _, rfl⟩ := h
  exact ⟨_, _, _, rfl⟩

theorem Device.hostWrite_sameButHost (d : Device) (a : Nat) (bs : List Byte) : d.sameButHost (d.hostWrite a bs) := by
  unfold Device.hostWrite
  split
  · exact foldl_keeps (fun e : Device => d.sameButHost e) _
      (fun e _ h => Device.sameButHost_trans h (Device.sameButHost_of_sent (e.sendTo_same _))) _ _ ⟨_, _, _, rfl⟩
  · exact ⟨_, _, _, rfl⟩

theorem Device.msix_sameButHost (d : Device) (r : Ring) : d.sameButHost (d.msix r) := by
  unfold Device.msix
  split
  · exact Device.sameButHost_of_sent (d.sendTo_same _)
  · exact ⟨_, _, _, rfl⟩

/-- On a device whose port is its own, the interrupt is a message of the owner's function (R410). -/
theorem Device.msix_own {d : Device} (hown : d.tunnelled = false) (r : Ring) :
    d.msix r = d.emit (.msix (ownerFn r.owner) r.link) := by simp [Device.msix, hown]

/-! ## An entry written to a CQ (R409, R410) -/

/-- Tail, reserved entries and arming of a CQ after a completion is written to it. -/
def Ring.posted (r : Ring) : Ring := { r with pos := (r.pos + 1) % (2 * r.entries), reserved := r.reserved - 1, arm := false }

section post
variable {d : Device} {x : Desc} {c : Nat} (hc : c = 512 + (d.ring x.sq).link) (hcq : (d.ring c).state = 1)
include hc hcq

/-- The entry is written at the tail of an enabled CQ, and an armed CQ interrupts. -/
theorem Device.post_enabled (status detail : Nat) :
    d.post x status detail =
      let e := (d.hostWrite ((d.ring c).base + 16 * ((d.ring c).pos % 2 ^ (d.ring c).size))
        (cqEntry x ((d.ring x.sq).pos % 2 ^ (d.ring x.sq).size) detail status
          (1 - (d.ring c).pos / 2 ^ (d.ring c).size % 2))).setRing c (d.ring c).posted
      if (d.ring c).arm then e.msix (d.ring c) else e := by
  subst hc
  simp only [Device.post, if_neg (not_not.mpr hcq)]
  rfl

/-- But for host memory, the link ports and the outputs, the CQ's own state is all that changes. -/
theorem Device.post_sameButHost (status detail : Nat) :
    (d.setRing c (d.ring c).posted).sameButHost (d.post x status detail) := by
  rw [Device.post_enabled hc hcq]
  extract_lets e
  have he : (d.setRing c (d.ring c).posted).sameButHost e :=
    Device.sameButHost_setRing (d.hostWrite_sameButHost ..) c _
  split
  · exact Device.sameButHost_trans he (e.msix_sameButHost _)
  · exact he

theorem Device.post_ring (status detail m : Nat) :
    (d.post x status detail).ring m = if m = c then (d.ring c).posted else d.ring m := by
  obtain ⟨_, _, _, h⟩ := Device.post_sameButHost hc hcq status detail
  rw [h, ← d.ring_setRing c m]
  rfl

theorem Device.post_descs (status detail : Nat) : (d.post x status detail).descs = d.descs := by
  obtain ⟨_, _, _, h⟩ := Device.post_sameButHost hc hcq status detail
  rw [h]
  rfl

/-- On a device whose port is its own, the entry is in host memory. -/
theorem Device.post_host (hown : d.tunnelled = false) (status detail : Nat) :
    (d.post x status detail).host = d.host.store ((d.ring c).base + 16 * ((d.ring c).pos % 2 ^ (d.ring c).size))
      (cqEntry x ((d.ring x.sq).pos % 2 ^ (d.ring x.sq).size) detail status (1 - (d.ring c).pos / 2 ^ (d.ring c).size % 2)) := by
  rw [Device.post_enabled hc hcq, Device.hostWrite_own _ _ _ hown]
  extract_lets e
  have howns : e.tunnelled = false := hown
  split
  · rw [Device.msix_own howns]
    rfl
  · rfl

theorem Device.post_out (hown : d.tunnelled = false) (status detail : Nat) :
    (d.post x status detail).out =
      if (d.ring c).arm then d.out ++ [.msix (ownerFn (d.ring c).owner) (d.ring c).link] else d.out := by
  rw [Device.post_enabled hc hcq, Device.hostWrite_own _ _ _ hown]
  extract_lets e
  have howns : e.tunnelled = false := hown
  split
  · rw [Device.msix_own howns]
    rfl
  · rfl

end post

/-! ## Completion of a descriptor in progress (R405, R409) -/

/-- The device with the descriptors of an SQ entry in progress no more, and nothing waiting for their reads. -/
def Device.unlist (d : Device) (sq idx : Nat) : Device :=
  { d.dropJobs fun j => decide (j = .ring sq idx) with descs := d.descs.filter fun y => !(y.sq = sq ∧ y.idx = idx) }

/-- An enabled SQ is not draining. -/
theorem Device.drained_enabled {d : Device} {sq : Nat} (hstate : (d.ring sq).state = 1) : d.drained sq = d := by
  simp [Device.drained, hstate]

section finish
variable {d : Device} {sq idx : Nat} {x : Desc} (hdesc : d.desc sq idx = some x) (hxsq : x.sq = sq) (hsq : sq < 512)
  (hstate : (d.ring sq).state = 1)
include hdesc hsq hstate

/-- A quiet completion with OK frees the reserved entry alone. -/
theorem Device.finish_quiet (hquiet : x.quiet = true) (detail : Nat) :
    d.finish sq idx 0 detail =
      let c := 512 + (d.ring sq).link
      (d.unlist sq idx).setRing c { d.ring c with reserved := (d.ring c).reserved - 1 } := by
  have hdrained : ((d.unlist sq idx).setRing (512 + (d.ring sq).link) { d.ring (512 + (d.ring sq).link) with
      reserved := (d.ring (512 + (d.ring sq).link)).reserved - 1 }).drained sq = _ :=
    Device.drained_enabled (by rw [Device.ring_setRing, if_neg (by omega)]; exact hstate)
  simp only [Device.finish, hdesc, hquiet, and_self, if_true]
  exact hdrained

include hxsq

/-- Any other is written to the CQ. -/
theorem Device.finish_posts {status : Nat} (hposts : x.quiet = false ∨ status ≠ 0)
    (hcq : (d.ring (512 + (d.ring sq).link)).state = 1) (detail : Nat) :
    d.finish sq idx status detail = (d.unlist sq idx).post x status detail := by
  subst hxsq
  have hdrained : ((d.unlist x.sq idx).post x status detail).drained x.sq = _ :=
    Device.drained_enabled (by
      rw [Device.post_ring (d := d.unlist x.sq idx) rfl hcq, if_neg (by omega)]
      exact hstate)
  have hloud : ¬(x.quiet = true ∧ status = 0) := by
    rcases hposts with hquiet | hstatus
    · simp [hquiet]
    · simp [hstatus]
  simp only [Device.finish, hdesc, if_neg hloud]
  exact hdrained

end finish

/-- Settles O27: the fetch and its return, then the completion, quiet or written. -/
theorem descriptorsReserveAndUseOneEntry : Obligations.DescriptorsReserveAndUseOneEntry := by
  unfold Obligations.DescriptorsReserveAndUseOneEntry
  refine ⟨fun s sq hsq => ⟨?fetch, fun tag src q d hjob hreturned => ⟨fun bs hlen => ?comes, ?fails⟩⟩, ?completion⟩
  case fetch =>
    intro hstate hcovered hcq hroom hfetch hidle hmay hmax q tag d
    rw [exec_descriptorFetch, Device.doFetchDesc_asks hsq hstate hcovered hcq hroom hfetch]
    exact next_congr (Device.askRead_at_once (d := d) hidle hmay hmax ..)
  case comes => rw [exec_hostReadCompletion, Device.doHostRead_fetched hreturned hjob hlen]
  case fails => rw [exec_hostReadCompletion, Device.doHostRead_fetchFails hreturned hjob]
  case completion =>
    intro d sq idx status detail x hsq hdesc hxsq hstate c cq hcq e
    obtain ⟨_, _, _, _, _, _, hsame⟩ := d.finish_same sq idx status detail
    have hrest : e.sites = d.sites ∧ e.folds = d.folds ∧ e.mem = d.mem ∧ e.gtally = d.gtally := by
      simp only [e, hsame, and_self]
    obtain ⟨hsites, hfolds, hmem, hgtally⟩ := hrest
    by_cases hquiet : x.quiet = true ∧ status = 0
    case pos =>
      obtain ⟨hquiet, rfl⟩ := hquiet
      have hfinish := Device.finish_quiet hdesc hsq hstate hquiet detail
      have hring (m : Nat) : e.ring m = if m = c then { cq with reserved := cq.reserved - 1 } else d.ring m := by
        simp only [e, hfinish, Device.ring_setRing]
        rfl
      refine ⟨by simp only [e, hfinish]; rfl, by rw [hring, if_pos rfl], fun _ _ => ?quiet, fun hposts => ?loud, hsites, hfolds,
        hmem, hgtally, fun m hm => by rw [hring, if_neg hm]⟩
      case quiet => exact ⟨by simp only [e, hfinish]; rfl, by rw [hring, if_pos rfl], by simp only [e, hfinish]; rfl⟩
      case loud => simp [hquiet] at hposts
    case neg =>
      have hposts : x.quiet = false ∨ status ≠ 0 := by
        rwa [not_and_or, Bool.not_eq_true] at hquiet
      have hfinish : e = (d.unlist sq idx).post x status detail :=
        Device.finish_posts hdesc hxsq hsq hstate hposts hcq detail
      have hc : c = 512 + ((d.unlist sq idx).ring x.sq).link := by rw [hxsq]; rfl
      have hring (m : Nat) : e.ring m = if m = c then cq.posted else d.ring m :=
        hfinish ▸ Device.post_ring (d := d.unlist sq idx) hc hcq status detail m
      have hout (hown : d.tunnelled = false) :
          e.out = if cq.arm then d.out ++ [.msix (ownerFn cq.owner) cq.link] else d.out :=
        hfinish ▸ Device.post_out (d := d.unlist sq idx) hc hcq hown status detail
      refine ⟨hfinish ▸ Device.post_descs (d := d.unlist sq idx) hc hcq status detail, by rw [hring, if_pos rfl]; rfl,
        fun hq hs => absurd ⟨hq, hs⟩ hquiet, fun _ => ⟨fun hown => ?host, by rw [hring, if_pos rfl]; rfl,
          by rw [hring, if_pos rfl]; rfl, fun harm hown => by simp [hout hown, harm], fun harm hown => by simp [hout hown, harm]⟩,
        hsites, hfolds, hmem, hgtally, fun m hm => by rw [hring, if_neg hm]⟩
      case host =>
        rw [hfinish, Device.post_host (d := d.unlist sq idx) hc hcq hown, hxsq]
        rfl

end Sys2Proof.Machine
end

section
/-!
Formation of a flock: what its bellwether decides from the devices discovered, and the leaves dealt to the active ranks (R330 to
R333, R441).
-/
namespace Sys2Proof.Machine

/-! ## The start of a formation, and the devices turned away (R330, R331) -/

/-- The device as it forms: forming already, or cleared of its last flock and forming from now on. -/
def Device.startForming (d : Device) : Device :=
  if d.flock.state = 1 then d
  else
    let c := d.clearFlock
    ({ c with flock := { c.flock with state := 1, since := d.watch.age, isBell := true } } : Device).checkAll

/-- FLOCK_CTRL.form on the device that FLOCK_CFG names, where no flock is formed or recovering. -/
theorem Device.doFlockForm_forms {d : Device} (hfull : d.full = true) (hnamed : d.bellRank = d.flock.rank)
    (hunformed : d.flock.state ≠ 2) (hunlost : d.flock.state ≠ 3) (ms : List MemberInfo) :
    d.doFlockForm 0 ms = d.startForming.form ms := by
  simp [Device.doFlockForm, Device.startForming, hfull, hnamed, hunformed, hunlost]

/-- Each device turned away named in an event. -/
def Device.refuseAll (d : Device) (ms : List MemberInfo) : Device := ms.foldl (fun d m => d.event .flockRefused [m.rank]) d

theorem Device.refuseAll_eq (d : Device) (ms : List MemberInfo) :
    d.refuseAll ms = { d with events := d.events ++ ms.map fun m => (⟨.flockRefused, [m.rank], d.now⟩ : Event) } := by
  induction ms generalizing d with
  | nil => simp [Device.refuseAll]
  | cons m ms ih =>
    have hcons : d.refuseAll (m :: ms) = (d.event .flockRefused [m.rank]).refuseAll ms := rfl
    rw [hcons, ih]
    simp [Device.event]

/-- The devices admitted, of those discovered (R331). -/
def Device.admitted (d : Device) (ms : List MemberInfo) : List MemberInfo := (d.sortMembers ms).1

/-- The device once those turned away are named. -/
def Device.said (d : Device) (ms : List MemberInfo) : Device := d.refuseAll (d.sortMembers ms).2

theorem Device.said_eq (d : Device) (ms : List MemberInfo) : d.said ms = { d with
    events := d.events ++ (d.sortMembers ms).2.map fun m => (⟨.flockRefused, [m.rank], d.now⟩ : Event) } :=
  d.refuseAll_eq _

theorem Device.said_flock (d : Device) (ms : List MemberInfo) : (d.said ms).flock = d.flock := by rw [Device.said_eq]

theorem Device.mem_said_events {d : Device} {ms : List MemberInfo} {m : MemberInfo} (hm : m ∈ (d.sortMembers ms).2) :
    (⟨.flockRefused, [m.rank], d.now⟩ : Event) ∈ (d.said ms).events := by
  rw [Device.said_eq]
  exact List.mem_append_right _ (List.mem_map_of_mem (f := fun m : MemberInfo => (⟨.flockRefused, [m.rank], d.now⟩ : Event)) hm)

/-! ## What stops a formation (R330, R331, R441) -/

/-- FLOCK_CFG names 16 to 64 leaves and a size of 1, 2 or 4 in each dimension. -/
def Device.legalCfg (d : Device) : Prop :=
  16 ≤ bits d.flock.cfg 12 6 ∧ bits d.flock.cfg 12 6 ≤ 64 ∧ bits d.flock.cfg 5 4 ≠ 3 ∧ bits d.flock.cfg 3 2 ≠ 3 ∧
    bits d.flock.cfg 1 0 ≠ 3

/-- The ranks that host leaves: admitted, with a fold count of 1, and no standby (R333). -/
def Device.activesOf (d : Device) (ok : List MemberInfo) : List Nat :=
  (List.range 64).filter fun r =>
    ok.any (fun m => m.rank = r && m.folds = 1) && !bit (d.flock.standbyHi * 2 ^ 32 + d.flock.standbyLo) r

/-- The device with the devices admitted as its members. -/
def Device.withMembers (d : Device) (ok : List MemberInfo) : Device :=
  { d with flock := { d.flock with members := (ok.map fun (m : MemberInfo) => 2 ^ m.rank).sum } }

theorem Device.form_illegal {d : Device} (hillegal : ¬d.legalCfg) (ms : List MemberInfo) : d.form ms = d.formFailed 8 := by
  refine if_pos ?_
  unfold Device.legalCfg at hillegal
  omega

section legal
variable {d : Device} (hlegal : d.legalCfg) {ms : List MemberInfo}
include hlegal

/-- Until it has discovered itself it goes on forming (R330). -/
theorem Device.form_undiscovered (hnone : ms.find? (·.rank = d.flock.rank) = none) : d.form ms = d := by
  unfold Device.legalCfg at hlegal
  simp only [Device.form, hnone]
  exact if_neg (by omega)

section discovered
variable {own : MemberInfo} (hown : ms.find? (·.rank = d.flock.rank) = some own)
include hown

/-- With itself discovered, the first of the conditions that fails ends the formation with its reason. -/
theorem Device.form_discovered : d.form ms =
    if ¬(own.watchLocked = true ∨ (own.watchFree = true ∧ d.aloneIn ms = true)) then (d.said ms).formFailed 7
    else if d.reportOk own.report = false then (d.said ms).formFailed 4
    else if ¬∃ m, m ∈ d.admitted ms ∧ m.rank = d.flock.rank then (d.said ms).formFailed 2
    else if ¬∀ m, m ∈ d.admitted ms → m.keysOk = true then (d.said ms).formFailed 5
    else if ¬∀ m, m ∈ d.admitted ms → (((d.said ms).withMembers (d.admitted ms)).routeOf d.flock.rank m.rank).valid = true then
      (d.said ms).formFailed 6
    else if d.activesOf (d.admitted ms) = [] then (d.said ms).formFailed 3
    else (d.said ms).formWith (d.admitted ms) (d.activesOf (d.admitted ms)) := by
  have hfields : ¬(bits d.flock.cfg 12 6 < 16 ∨ 64 < bits d.flock.cfg 12 6 ∨ bits d.flock.cfg 5 4 = 3 ∨
      bits d.flock.cfg 3 2 = 3 ∨ bits d.flock.cfg 1 0 = 3) := by
    unfold Device.legalCfg at hlegal
    omega
  have hsaid := d.said_eq ms
  have halone : (d.said ms).aloneIn ms = d.aloneIn ms := by rw [hsaid]; rfl
  have hreport : (d.said ms).reportOk own.report = d.reportOk own.report := by rw [hsaid]; rfl
  rw [Device.form, if_neg hfields]
  simp only [hown]
  rw [← Device.refuseAll, ← Device.said, ← Device.admitted]
  simp only [halone, hreport, Device.said_flock, Device.activesOf, Device.withMembers]
  refine if_congr (by simp [imp_iff_not_or]) rfl (if_congr (by simp) rfl (if_congr (by simp) rfl (if_congr (by simp) rfl
    (if_congr (by simp) rfl rfl))))

theorem Device.form_unwatched (hunwatched : ¬(own.watchLocked = true ∨ (own.watchFree = true ∧ d.aloneIn ms = true))) :
    d.form ms = (d.said ms).formFailed 7 := by
  rw [Device.form_discovered hlegal hown, if_pos hunwatched]

variable (hwatched : own.watchLocked = true ∨ (own.watchFree = true ∧ d.aloneIn ms = true))
include hwatched

theorem Device.form_reportRefused (hrefused : d.reportOk own.report = false) : d.form ms = (d.said ms).formFailed 4 := by
  rw [Device.form_discovered hlegal hown, if_neg (not_not.mpr hwatched), if_pos hrefused]

variable (hreport : d.reportOk own.report = true)
include hreport

/-- What is left once the device's own watch and report have passed. -/
theorem Device.form_vouched : d.form ms =
    if ¬∃ m, m ∈ d.admitted ms ∧ m.rank = d.flock.rank then (d.said ms).formFailed 2
    else if ¬∀ m, m ∈ d.admitted ms → m.keysOk = true then (d.said ms).formFailed 5
    else if ¬∀ m, m ∈ d.admitted ms → (((d.said ms).withMembers (d.admitted ms)).routeOf d.flock.rank m.rank).valid = true then
      (d.said ms).formFailed 6
    else if d.activesOf (d.admitted ms) = [] then (d.said ms).formFailed 3
    else (d.said ms).formWith (d.admitted ms) (d.activesOf (d.admitted ms)) := by
  rw [Device.form_discovered hlegal hown, if_neg (not_not.mpr hwatched), if_neg (ne_false_of_eq_true hreport)]

theorem Device.form_unadmitted (habsent : ¬∃ m, m ∈ d.admitted ms ∧ m.rank = d.flock.rank) :
    d.form ms = (d.said ms).formFailed 2 := by
  rw [Device.form_vouched hlegal hown hwatched hreport, if_pos habsent]

variable (hmine : ∃ m, m ∈ d.admitted ms ∧ m.rank = d.flock.rank)
include hmine

theorem Device.form_unkeyed (hunkeyed : ¬∀ m, m ∈ d.admitted ms → m.keysOk = true) :
    d.form ms = (d.said ms).formFailed 5 := by
  rw [Device.form_vouched hlegal hown hwatched hreport, if_neg (not_not.mpr hmine), if_pos hunkeyed]

variable (hkeyed : ∀ m, m ∈ d.admitted ms → m.keysOk = true)
include hkeyed

theorem Device.form_unrouted (hunrouted : ¬∀ m, m ∈ d.admitted ms →
    (((d.said ms).withMembers (d.admitted ms)).routeOf d.flock.rank m.rank).valid = true) :
    d.form ms = (d.said ms).formFailed 6 := by
  rw [Device.form_vouched hlegal hown hwatched hreport, if_neg (not_not.mpr hmine), if_neg (not_not.mpr hkeyed),
    if_pos hunrouted]

variable (hrouted : ∀ m, m ∈ d.admitted ms →
  (((d.said ms).withMembers (d.admitted ms)).routeOf d.flock.rank m.rank).valid = true)
include hrouted

theorem Device.form_inactive (hnone : d.activesOf (d.admitted ms) = []) : d.form ms = (d.said ms).formFailed 3 := by
  rw [Device.form_vouched hlegal hown hwatched hreport, if_neg (not_not.mpr hmine), if_neg (not_not.mpr hkeyed),
    if_neg (not_not.mpr hrouted), if_pos hnone]

theorem Device.form_forms (hsome : d.activesOf (d.admitted ms) ≠ []) :
    d.form ms = (d.said ms).formWith (d.admitted ms) (d.activesOf (d.admitted ms)) := by
  rw [Device.form_vouched hlegal hown hwatched hreport, if_neg (not_not.mpr hmine), if_neg (not_not.mpr hkeyed),
    if_neg (not_not.mpr hrouted), if_neg hsome]

end discovered

end legal

/-! ## What a formation leaves of the flock it forms (R330, R332) -/

/-- The flock's state, bellwether, members and leaves are e's too, and so are the events. -/
def Device.keepsFlock (d e : Device) : Prop :=
  e.flock.state = d.flock.state ∧ e.flock.isBell = d.flock.isBell ∧ e.flock.members = d.flock.members ∧
    e.flock.leaves = d.flock.leaves ∧ e.events = d.events

theorem Device.keepsFlock_refl (d : Device) : d.keepsFlock d := ⟨rfl, rfl, rfl, rfl, rfl⟩

theorem Device.keepsFlock_trans {a b c : Device} (h : a.keepsFlock b) (k : b.keepsFlock c) : a.keepsFlock c := by
  obtain ⟨hstate, hbell, hmembers, hleaves, hevents⟩ := h
  obtain ⟨kstate, kbell, kmembers, kleaves, kevents⟩ := k
  exact ⟨kstate.trans hstate, kbell.trans hbell, kmembers.trans hmembers, kleaves.trans hleaves, kevents.trans hevents⟩

theorem Device.tell_keepsFlock (d : Device) (rank : Nat) (m : Vc0) : d.keepsFlock (d.tell rank m) := by
  obtain ⟨_, _, h⟩ := d.tell_same rank m
  rw [h]
  exact d.keepsFlock_refl

theorem Device.tellMembers_keepsFlock (d : Device) (g : Nat → Option FlockMsg) : d.keepsFlock (d.tellMembers g) := by
  refine foldl_keeps (fun e : Device => d.keepsFlock e) _ (fun e r he => ?_) _ _ d.keepsFlock_refl
  split
  · exact Device.keepsFlock_trans he (e.tell_keepsFlock ..)
  · exact he

theorem Device.writeRoutes_keepsFlock (d : Device) : d.keepsFlock d.writeRoutes :=
  foldl_keeps (fun e : Device => d.keepsFlock e) _
    (fun _ _ he => foldl_keeps (fun e : Device => d.keepsFlock e) _
      (fun e _ he => Device.keepsFlock_trans he (e.tell_keepsFlock ..)) _ _ he)
    _ _ d.keepsFlock_refl

theorem Device.writeLeaves_keepsFlock (d : Device) : d.keepsFlock d.writeLeaves :=
  Device.keepsFlock_trans (Device.keepsFlock_trans (Device.keepsFlock_trans (d.tellMembers_keepsFlock _)
    (Device.tellMembers_keepsFlock ..)) (Device.tellMembers_keepsFlock ..)) ⟨rfl, rfl, rfl, rfl, rfl⟩

/-- The device as its flock begins: these ranks admitted, and the leaves dealt to the active ones (R332, R333). -/
def Device.begun (d : Device) (ok : List MemberInfo) (actives : List Nat) : Device :=
  { d with
    coll := .reset
    flock := { d.flock with
      isBell := true, state := 2, reason := 0
      members := (ok.map fun (m : MemberInfo) => 2 ^ m.rank).sum
      folds := ok.foldl (fun (l : Sparse Nat) (m : MemberInfo) => sput l m.rank m.folds) []
      heard := ok.foldl (fun (l : Sparse Nat) (m : MemberInfo) => sput l m.rank d.watch.age) []
      leaves := leafRuns (bits d.flock.cfg 12 6) actives, failed := [], silent := [], zeroised := false, declared := false } }

/-- What the others of a flock that begins are told. -/
def Device.tellBegun (d : Device) : Device :=
  (d.ownRoutes.tellMembers fun _ => some (.config d.flock.cfg d.recov.cfg)).writeRoutes.writeLeaves.tellMembers
    fun _ => some (.state 2 0)

theorem Device.tellBegun_keepsFlock (d : Device) : d.keepsFlock d.tellBegun :=
  Device.keepsFlock_trans (Device.keepsFlock_trans (Device.keepsFlock_trans (Device.tellMembers_keepsFlock d.ownRoutes _)
    (Device.writeRoutes_keepsFlock _)) (Device.writeLeaves_keepsFlock _)) (Device.tellMembers_keepsFlock ..)

theorem Device.formWith_eq (d : Device) (ok : List MemberInfo) (actives : List Nat) :
    d.formWith ok actives =
      ((d.begun ok actives).tellBegun.event .flockFormed [d.flock.rank]).measure 5
        [d.flock.rank, (d.begun ok actives).tellBegun.flock.cfg] := rfl

/-- The flock formed with the ranks admitted and the leaves dealt; its event comes behind those of the devices turned away. -/
theorem Device.formWith_forms (d : Device) (ok : List MemberInfo) (actives : List Nat) :
    let e := d.formWith ok actives
    e.flock.state = 2 ∧ e.flock.isBell = true ∧ e.flock.members = (ok.map fun (m : MemberInfo) => 2 ^ m.rank).sum ∧
      e.flock.leaves = leafRuns (bits d.flock.cfg 12 6) actives ∧ ∀ v ∈ d.events, v ∈ e.events := by
  obtain ⟨hstate, hbell, hmembers, hleaves, hevents⟩ := (d.begun ok actives).tellBegun_keepsFlock
  rw [Device.formWith_eq]
  exact ⟨hstate, hbell, hmembers, hleaves, fun v hv => List.mem_append_left _ (hevents ▸ hv)⟩

/-! ## The leaves dealt (R333) -/

/-- Leaves of the i-th of `a` active ranks: the first l mod a host one more. -/
def runSize (l a i : Nat) : Nat := if i < l % a then l / a + 1 else l / a

theorem sum_runSize (l a i : Nat) : ((List.range i).map (runSize l a)).sum = i * (l / a) + min i (l % a) := by
  induction i with
  | zero => simp
  | succ i ih =>
    rw [List.range_succ, List.map_append, List.sum_append, ih, Nat.succ_mul]
    simp only [List.map_cons, List.map_nil, List.sum_cons, List.sum_nil, runSize]
    split <;> omega

section runs
variable (l : Nat) (ranks : List Nat)

theorem leafRuns_eq : leafRuns l ranks = (ranks.take l).zipIdx.map fun x =>
    (x.1, x.2 * (l / min l ranks.length) + min x.2 (l % min l ranks.length), runSize l (min l ranks.length) x.2) := by
  simp only [leafRuns, List.length_take, runSize]

theorem leafRuns_ranks : (leafRuns l ranks).map (·.1) = ranks.take l := by
  rw [leafRuns_eq, List.map_map]
  exact List.zipIdx_map_fst ..

theorem leafRuns_sizes :
    (leafRuns l ranks).map (·.2.2) = (List.range (min l ranks.length)).map (runSize l (min l ranks.length)) := by
  have hindices : (ranks.take l).zipIdx.map (·.2) = List.range (min l ranks.length) := by
    rw [List.zipIdx_map_snd, List.length_take, List.range_eq_range']
  rw [leafRuns_eq, List.map_map, ← hindices, List.map_map]
  rfl

theorem leafRuns_length : (leafRuns l ranks).length = min l ranks.length := by
  rw [leafRuns_eq, List.length_map, List.length_zipIdx, List.length_take]

variable {l ranks} {i : Nat} (hi : i < min l ranks.length)
include hi

theorem leafRuns_getD : ∃ r, (leafRuns l ranks).getD i (0, 0, 0) =
    (r, i * (l / min l ranks.length) + min i (l % min l ranks.length), runSize l (min l ranks.length) i) := by
  have hrank : i < (ranks.take l).length := by rwa [List.length_take]
  refine ⟨(ranks.take l)[i], ?_⟩
  rw [leafRuns_eq, List.getD_eq_getElem?_getD, List.getElem?_map, List.getElem?_zipIdx, List.getElem?_eq_getElem hrank]
  simp

theorem leafRuns_getD_size : ((leafRuns l ranks).getD i (0, 0, 0)).2.2 = runSize l (min l ranks.length) i := by
  obtain ⟨_, hrun⟩ := leafRuns_getD hi
  rw [hrun]

/-- A run begins where the run before it ends. -/
theorem leafRuns_getD_first :
    ((leafRuns l ranks).getD i (0, 0, 0)).2.1 = (((leafRuns l ranks).take i).map (·.2.2)).sum := by
  obtain ⟨_, hrun⟩ := leafRuns_getD hi
  rw [hrun, List.map_take, leafRuns_sizes, ← List.map_take, List.take_range, Nat.min_eq_left (Nat.le_of_lt hi), sum_runSize]

end runs

/-- The runs make up all the leaves. -/
theorem leafRuns_total (l : Nat) {ranks : List Nat} (hranks : ranks ≠ []) : ((leafRuns l ranks).map (·.2.2)).sum = l := by
  have hpos : 0 < ranks.length := List.length_pos_of_ne_nil hranks
  rw [leafRuns_sizes, sum_runSize]
  rcases Nat.eq_zero_or_pos l with rfl | hl
  · simp
  · have hrest : l % min l ranks.length < min l ranks.length := Nat.mod_lt _ (by omega)
    rw [Nat.min_eq_right (Nat.le_of_lt hrest)]
    exact Nat.div_add_mod ..

/-- Settles O38: the formation by the first condition that fails, and the leaves dealt by the runs' sizes. -/
theorem flockFormsAndDealsItsLeaves : Obligations.FlockFormsAndDealsItsLeaves := by
  unfold Obligations.FlockFormsAndDealsItsLeaves
  refine ⟨fun s ms => ⟨?form, ?timeout⟩, fun l ranks hranks => ?runs⟩
  case form =>
    intro hopen hfull hnamed hunformed hunlost
    have hform : exec (.flockForm 0 ms) s = .next ⟨s.dev.startForming.form ms, s.pending⟩ := by
      rw [exec_flockForm, Device.fromRegs_open hopen, Device.doFlockForm_forms hfull hnamed hunformed hunlost]
    rw [hform]
    refine ⟨fun hillegal => next_congr (Device.form_illegal (d := s.dev.startForming) hillegal ms),
      fun hlegal hnone => next_congr (Device.form_undiscovered (d := s.dev.startForming) hlegal hnone), fun own hlegal hown => ?_⟩
    refine ⟨fun hunwatched => next_congr (Device.form_unwatched (d := s.dev.startForming) hlegal hown hunwatched),
      fun hw hrefused => next_congr (Device.form_reportRefused (d := s.dev.startForming) hlegal hown hw hrefused),
      fun hw hr habsent => next_congr (Device.form_unadmitted (d := s.dev.startForming) hlegal hown hw hr habsent),
      fun hw hr hm hunkeyed => next_congr (Device.form_unkeyed (d := s.dev.startForming) hlegal hown hw hr hm hunkeyed),
      fun hw hr hm hk hunrouted =>
        next_congr (Device.form_unrouted (d := s.dev.startForming) hlegal hown hw hr hm hk hunrouted),
      fun hw hr hm hk ht hnone => next_congr (Device.form_inactive (d := s.dev.startForming) hlegal hown hw hr hm hk ht hnone),
      fun hw hr hm hk ht hsome =>
        ⟨_, next_congr (Device.form_forms (d := s.dev.startForming) hlegal hown hw hr hm hk ht hsome), rfl, ?formed⟩⟩
    case formed =>
      obtain ⟨hstate, hbell, hmembers, hleaves, hevents⟩ := (s.dev.startForming.said ms).formWith_forms
        (s.dev.startForming.admitted ms) (s.dev.startForming.activesOf (s.dev.startForming.admitted ms))
      rw [Device.said_flock] at hleaves
      exact ⟨hstate, hbell, hmembers, hleaves, fun m hm => hevents _ (Device.mem_said_events hm)⟩
  case timeout =>
    intro hforming hbell hdue
    rw [exec_formationTimeout, Device.doFormTimeout, if_pos ⟨hforming, hbell, hdue⟩]
    rfl
  case runs =>
    rw [Nat.min_comm]
    exact ⟨leafRuns_ranks l ranks, leafRuns_length l ranks, fun i hi => ⟨leafRuns_getD_size hi, leafRuns_getD_first hi⟩,
      leafRuns_total l hranks⟩

end Sys2Proof.Machine
end

section
/-!
The symbols of a frame and the bytes of its slots: how many there are, how large, and on which lane (R314, R318, R321, R322).
-/
namespace Sys2Proof.Machine

/-! ## Frames as symbols (R314) -/

theorem frameMessage_length (control : Nat) (slots : List Byte) : (frameMessage control slots).length = 514 := by
  rw [frameMessage, List.length_map, List.length_range]

theorem codeword_length (message : List Nat) : (codeword message).length = message.length + 30 := by
  simp [codeword]

/-- The symbols of a codeword have ten bits where those of its message do. -/
theorem codeword_lt {message : List Nat} (hmessage : ∀ x ∈ message, x < 1024) : ∀ x ∈ codeword message, x < 1024 := by
  intro x hx
  rcases List.mem_append.mp hx with hx | hx
  · exact hmessage x hx
  · obtain ⟨i, -, rfl⟩ := List.mem_map.mp hx
    exact Nat.mod_lt _ (by decide)

theorem frameMessage_lt (control : Nat) (slots : List Byte) : ∀ x ∈ frameMessage control slots, x < 1024 := by
  intro x hx
  obtain ⟨i, -, rfl⟩ := List.mem_map.mp hx
  exact Nat.mod_lt _ (by decide)

/-- The codeword that a frame of the replay buffer goes out as. -/
def Device.codewordOn (d : Device) (k : Nat) (f : Nat × TxFrame) : List Nat :=
  let b := frameBody k (d.link k).epoch (d.link k).keyed f.2
  codeword (frameMessage (frameControl b.1 f.1 b.2.1) b.2.2)

theorem Device.codewordOn_length (d : Device) (k : Nat) (f : Nat × TxFrame) : (d.codewordOn k f).length = 544 := by
  rw [Device.codewordOn, codeword_length, frameMessage_length]

theorem Device.frameOn_eq (d : Device) (k : Nat) (f : Nat × TxFrame) :
    d.frameOn k f = (d.codewordOn k f).zipIdx.map fun x => (laneOf (d.link k).lanes x.2, x.1) := rfl

theorem Device.frameOn_length (d : Device) (k : Nat) (f : Nat × TxFrame) : (d.frameOn k f).length = 544 := by
  rw [Device.frameOn_eq, List.length_map, List.length_zipIdx, Device.codewordOn_length]

theorem Device.frameOn_lt (d : Device) (k : Nat) (f : Nat × TxFrame) : ∀ x ∈ d.frameOn k f, x.2 < 1024 := by
  intro x hx
  obtain ⟨y, hy, rfl⟩ := List.mem_map.mp (d.frameOn_eq k f ▸ hx)
  exact codeword_lt (frameMessage_lt _ _) _ (List.fst_mem_of_mem_zipIdx hy)

/-- Symbol i of a frame goes on the lane of its number. -/
theorem Device.frameOn_lane (d : Device) (k : Nat) (f : Nat × TxFrame) {i : Nat} (hi : i < 544) :
    ((d.frameOn k f).getD i (0, 0)).1 = laneOf (d.link k).lanes i := by
  have hword : i < (d.codewordOn k f).length := by rwa [Device.codewordOn_length]
  simp [Device.frameOn_eq, List.getD_eq_getElem?_getD, hword]

theorem laneOf_eq (lanes i : Nat) :
    laneOf lanes i = if lanes = 0xFF then i % 8 else if lanes = 0xF0 then 4 + i % 4 else i % 4 := by
  unfold laneOf
  split_ifs <;> omega

/-- The fields of frame control lie side by side in 20 bits. -/
theorem frameControl_fields (kind seq count : Nat) :
    frameControl kind seq count < 2 ^ 20 ∧ frameControl kind seq count / 2 ^ 18 = kind % 4 ∧
      frameControl kind seq count / 2 ^ 8 % 1024 = seq % 1024 ∧ frameControl kind seq count / 2 ^ 4 % 16 = count % 16 := by
  unfold frameControl
  omega

/-! ## Slots as bytes (R318, R321, R322) -/

theorem zeros_length (n : Nat) : (zeros n).length = n := List.length_replicate

theorem controlSlot_length (port epoch : Nat) (c : CtlSlot) : (controlSlot port epoch c).length = 64 := by
  have hcredits : ((c.credits.take 8).flatMap fun e => leBytes 2 (e.1 % 16 * 2 ^ 12 + e.2 % 2 ^ 12)).length ≤ 16 := by
    rw [List.length_flatMap]
    simp only [leBytes_length, List.map_const', List.sum_replicate, smul_eq_mul, List.length_take]
    omega
  have htag (body : List Byte) :
      (if c.tagOk then (List.range 16).map (Config.gcmTag port epoch 0 0 body) else zeros 16).length = 16 := by
    split <;> simp [zeros_length]
  simp only [controlSlot, List.length_append, leBytes_length, zeros_length, htag]
  omega

/-- Data slots are whole: header and tag aside, they are those that the packet counts. -/
theorem dataSlots_length (p : Packet) : (dataSlots p).length = 64 * (p.slots - 2) := by
  cases hmsg : p.msg with
  | some m => simp [dataSlots, Packet.slots, hmsg]
  | none =>
    simp only [dataSlots, Packet.slots, hmsg, List.length_append, zeros_length, Option.isSome_none, Bool.false_eq_true, if_false]
    omega

theorem packetSlots_length (port epoch : Nat) (keyed : Bool) (p : Packet) :
    (packetSlots port epoch keyed p).length = 64 * p.slots := by
  have hcipher (clear : List Byte) : (if keyed then clear.zipIdx.map fun x => x.1 ^^^ Config.keystream port epoch p.ctr x.2
      else clear).length = clear.length := by
    split <;> simp
  have htag (auth : Nat) (cipher : List Byte) : (if bit p.status 7 || !keyed then zeros 16
      else (List.range 16).map (Config.gcmTag port epoch p.ctr auth cipher)).length = 16 := by
    split <;> simp [zeros_length]
  have hslots : 2 ≤ p.slots := Nat.le_add_right ..
  simp only [packetSlots, List.length_append, List.length_drop, leBytes_length, zeros_length, hcipher, htag, dataSlots_length]
  omega

/-- Settles O44: a frame symbol by symbol, then the bytes that its slots take. -/
theorem framesAreCodewords : Obligations.FramesAreCodewords := by
  unfold Obligations.FramesAreCodewords
  refine ⟨fun d k f => ⟨d.frameOn_length k f, d.frameOn_lt k f, fun i hi => ?lane⟩, frameMessage_length, frameControl_fields,
    controlSlot_length, packetSlots_length⟩
  case lane => rw [d.frameOn_lane k f hi, laneOf_eq]

end Sys2Proof.Machine
end

section
/-!
Resets of the module and of the always-on island (R324, R475, R490 to R494).
-/
namespace Sys2Proof.Machine

/-- MOD_RESET_N on a powered module. -/
theorem Device.doModuleReset_powered {d : Device} (hpowered : d.bring.stage ≠ 0) (n : Nat) :
    d.doModuleReset n = ({ d with pins := { d.pins with slotId := n % 64 } } : Device).reboot 1 := if_neg hpowered

theorem exec_moduleReset_powered {s : State} (hpowered : s.dev.bring.stage ≠ 0) (n : Nat) : exec (.moduleReset n) s =
    .next ⟨({ s.dev with pins := { s.dev.pins with slotId := n % 64 } } : Device).reboot 1, s.pending⟩ := by
  rw [exec_moduleReset, Device.doModuleReset_powered hpowered]

theorem Device.doResetCtrl_module {d : Device} (hstage : 2 ≤ d.bring.stage) (hserves : d.recovering = false) :
    d.doResetCtrl 0 0x5A = d.reboot 2 := by
  simp [Device.doResetCtrl, hstage, hserves]

/-- Folds right after power-on hold no drive and no key. -/
theorem Device.reset_fold (f : Nat) : (Device.reset.fold f).drives = [] ∧ (Device.reset.fold f).key = .none := by
  have hfold : (List.replicate 8 Fold.reset).getD f .reset = .reset := by
    rw [List.getD_eq_getElem?_getD, List.getElem?_replicate]
    split <;> rfl
  change ((List.replicate 8 Fold.reset).getD f .reset).drives = [] ∧ ((List.replicate 8 Fold.reset).getD f .reset).key = .none
  rw [hfold]
  exact ⟨rfl, rfl⟩

/-- What outlasts a reset, and what starts afresh (R490; table Reset kinds). -/
theorem Device.reboot_parts (d : Device) (cause : Nat) :
    let e := d.reboot cause
    e.idrev = d.idrev ∧ e.serial = d.serial ∧ e.sec.fuses = d.sec.fuses ∧ e.sec.record = d.sec.record ∧ e.sec.nor = d.sec.nor ∧
      e.persist = d.persist ∧ e.bring.stage = 1 ∧ e.bring.cause = cause ∧ e.bring.resets = min (d.bring.resets + 1) (2 ^ 16 - 1) ∧
      e.flock.rank = d.pins.slotId % 64 ∧ e.flock.state = 0 ∧ e.sec.root = none ∧ e.sec.drbg = false ∧ e.rings = [] ∧
      ∀ f, (e.fold f).drives = [] ∧ (e.fold f).key = .none :=
  ⟨rfl, rfl, rfl, rfl, rfl, rfl, rfl, rfl, rfl, rfl, rfl, rfl, rfl, rfl, Device.reset_fold⟩

/-- Settles O55: each reset is a reboot with its cause, or starts the always-on island; then a reboot part by part. -/
theorem moduleResetsKeepTheFuses : Obligations.ModuleResetsKeepTheFuses := by
  unfold Obligations.ModuleResetsKeepTheFuses
  refine ⟨fun s => ⟨fun n hpowered => exec_moduleReset_powered hpowered n, fun hin hstage hserves => ?register,
    fun hpowered => ?watchdog, exec_powerOnReset s, exec_vauxLoss s⟩,
    fun s n hpowered => ⟨_, exec_moduleReset_powered hpowered n, rfl, ?parts⟩⟩
  case register => rw [exec_resetCtrlModule, Device.fromHost_inside hin, Device.doResetCtrl_module hstage hserves]
  case watchdog => rw [exec_watchdog, Device.doWatchdog, if_neg hpowered]
  case parts =>
    obtain ⟨hidrev, hserial, hfuses, hrecord, hnor, hpersist, hstage, hcause, hresets, hrank, hrest⟩ :=
      ({ s.dev with pins := { s.dev.pins with slotId := n % 64 } } : Device).reboot_parts 1
    exact ⟨hidrev, hserial, hfuses, hrecord, hnor, hpersist, hstage, hcause, hresets, hrank.trans (Nat.mod_mod ..), hrest⟩

end Sys2Proof.Machine
end

section
/-!
Messages on VC0 that are heard, and the upkeep of a flock by them (R318, R320, R326, R332, R351, R380, R390).
-/
namespace Sys2Proof.Machine

/-! ## Messages on VC0 (R318, R320, R323, R449) -/

section hears
variable {d e : Device} {v : Via} (h : d.hears v e)
include h

/-- A message that is heard takes effect on the device that its packet is in. -/
theorem Device.hear_hears (g : Device → Device) : d.hear v g = g e := by
  rcases h with ⟨rfl, rfl⟩ | ⟨k, ok, rfl, htakes, htag, rfl⟩
  · rfl
  · have hgood : ¬((d.link k).keyed = true ∧ (!ok) = true) := by
      rintro ⟨hkeyed, hbad⟩
      simp [htag hkeyed] at hbad
    simp only [Device.hear, htakes, Bool.not_true, Bool.false_eq_true, if_false, if_neg hgood]

/-- Credits owed aside, the device is as it was. -/
theorem Device.hears_eq : ∃ li, e = { d with links := li } := by
  rcases h with ⟨-, rfl⟩ | ⟨k, ok, -, -, -, rfl⟩
  · exact ⟨_, rfl⟩
  · exact ⟨_, rfl⟩

theorem Device.hears_flock : e.flock = d.flock := by
  obtain ⟨_, rfl⟩ := Device.hears_eq h
  rfl

theorem Device.hears_watch : e.watch = d.watch := by
  obtain ⟨_, rfl⟩ := Device.hears_eq h
  rfl

theorem Device.hears_full : e.full = d.full := by
  obtain ⟨_, rfl⟩ := Device.hears_eq h
  rfl

end hears

/-- A message of its own is heard as it is. -/
theorem Device.hears_own (d : Device) : d.hears .own d := .inl ⟨rfl, rfl⟩

/-! ## FLOCK_DISSOLVE and ROUTE_UPDATE (R326, R332, R351) -/

section bell
variable {d : Device} {rs : List Nat} (hbell : d.flock.isBell = true)
include hbell

/-- With a drive resident on a member, the flock is not dissolved. -/
theorem Device.doDissolve_busy (hformed : d.flock.state = 2)
    (hbusy : d.anyDrive = true ∨ ∃ r, r ∈ rs ∧ bit d.flock.members r = true) :
    d.doDissolve 0 rs = d.refuse 0 0x04 0x100004 false := by
  have hresident : d.anyDrive = true ∨ (d.flock.isBell = true ∧ (rs.any fun r => bit d.flock.members r) = true) :=
    hbusy.imp_right fun hmember => ⟨hbell, List.any_eq_true.mpr hmember⟩
  simp only [Device.doDissolve, if_pos hresident]
  exact if_neg (by simp [hbell, hformed])

/-- With none, the members are told and the flock ends. -/
theorem Device.doDissolve_idle (hformed : d.flock.state = 2) (hnone : d.anyDrive = false)
    (hfree : ∀ r, r ∈ rs → bit d.flock.members r = false) :
    d.doDissolve 0 rs = (d.tellMembers fun _ => some (.state 0 0)).leaveFlock := by
  have hvacant : ¬(d.anyDrive = true ∨ (d.flock.isBell = true ∧ (rs.any fun r => bit d.flock.members r) = true)) := by
    simpa [hnone, hbell] using hfree
  simp only [Device.doDissolve, if_neg hvacant, if_pos hbell]
  exact if_neg (by simp [hbell, hformed])

/-- Every routing table is computed again, the link that failed among the bad ones (R326). -/
theorem Device.doRouteUpdate_writes (hruns : d.flock.state = 2 ∨ d.flock.state = 3) (rank port : Nat) :
    d.doRouteUpdate rank port = ({ d with flock := { d.flock with
      badLinks := if d.flock.badLinks.contains (rank, port) then d.flock.badLinks else d.flock.badLinks ++ [(rank, port)] } } :
        Device).writeRoutes := by
  refine if_neg ?_
  rintro (hother | ⟨hunformed, hunlost⟩)
  · simp [hbell] at hother
  · exact hruns.elim hunformed hunlost

end bell

/-- A member whose bellwether has failed leaves the flock by itself (R351). -/
theorem Device.doDissolve_orphaned {d : Device} (horphaned : d.orphaned = true) (hnone : d.anyDrive = false) (rs : List Nat) :
    d.doDissolve 0 rs = d.leaveFlock := by
  have hparts := horphaned
  simp only [Device.orphaned, Bool.and_eq_true, decide_eq_true_eq, Bool.not_eq_true'] at hparts
  obtain ⟨⟨hlost, hnobell⟩, -⟩ := hparts
  simp [Device.doDissolve, horphaned, hlost, hnobell, hnone]

/-! ## RECOV_READMIT (R390) -/

/-- A rank that joins again: a member that has not failed, heard from now, its links good. -/
def Device.rejoined (d : Device) (rank folds : Nat) : Device :=
  { d with flock := { d.flock with
    members := d.flock.members ||| 2 ^ rank, failed := ndel d.flock.failed rank, silent := ndel d.flock.silent rank
    folds := sput d.flock.folds rank folds, heard := sput d.flock.heard rank d.watch.age
    badLinks := d.flock.badLinks.filter fun l => l.1 ≠ rank ∧ d.neighbour l.1 l.2 ≠ rank } }

section readmit
variable {d : Device} {rank : Nat} {m : MemberInfo} (hleads : d.leads = true) (hout : bit d.flock.members rank = false)
include hleads hout

theorem Device.doReadmit_refused
    (hbad : m.rank ≠ rank ∨ d.admissible m = false ∨ m.watchLocked = false ∨ m.keysOk = false) :
    d.doReadmit 0 rank m = d.event .flockRefused [rank] := by
  have hserves : ¬((0 : Nat) ≠ 0 ∨ (!d.leads) = true ∨ bit d.flock.members rank = true) := by simp [hleads, hout]
  rw [Device.doReadmit, if_neg hserves]
  exact if_pos (by simpa using hbad)

theorem Device.doReadmit_joins (hrank : m.rank = rank) (hadmit : d.admissible m = true) (hwatch : m.watchLocked = true)
    (hkeys : m.keysOk = true) :
    d.doReadmit 0 rank m =
      (((d.rejoined rank m.folds).ownRoutes.tell rank (.manage (.config d.flock.cfg d.recov.cfg))).writeRoutes.writeLeaves).tell
        rank (.manage (.state 2 0)) := by
  have hserves : ¬((0 : Nat) ≠ 0 ∨ (!d.leads) = true ∨ bit d.flock.members rank = true) := by simp [hleads, hout]
  rw [Device.doReadmit, if_neg hserves]
  exact if_neg (by simp [hrank, hadmit, hwatch, hkeys])

end readmit

/-! ## HEARTBEAT (R380) -/

/-- The bellwether notes when a member's heartbeat comes. -/
theorem Device.doHeartbeat_noted {d e : Device} {v : Via} {rank : Nat} (h : d.hears v e)
    (hruns : d.flock.state = 2 ∨ d.flock.state = 3) (hbell : d.flock.isBell = true) (hmember : bit d.flock.members rank = true) :
    d.doHeartbeat v rank =
      { e with flock := { e.flock with heard := sput e.flock.heard rank d.watch.age } } := by
  rw [← Device.hears_flock h] at hruns hbell hmember
  have hactive : ¬(e.flock.state ≠ 2 ∧ e.flock.state ≠ 3) := by omega
  have hother : ¬(v = .own ∧ rank = e.flock.rank ∧ (!e.flock.isBell) = true) := by simp [hbell]
  rw [Device.doHeartbeat, Device.hear_hears h, if_neg hactive, if_neg hother, if_pos ⟨hbell, hmember⟩, Device.hears_watch h]

/-- A member sends its own. -/
theorem Device.doHeartbeat_sent {d : Device} (hruns : d.flock.state = 2 ∨ d.flock.state = 3) (hmember : d.flock.isBell = false) :
    d.doHeartbeat .own d.flock.rank = d.tellBell .heartbeat := by
  have hactive : ¬(d.flock.state ≠ 2 ∧ d.flock.state ≠ 3) := by omega
  rw [Device.doHeartbeat, Device.hear_hears d.hears_own, if_neg hactive, if_pos ⟨rfl, rfl, by simp [hmember]⟩]

/-! ## FLOCK_MANAGEMENT (R330, R360, R381 to R385) -/

section manage
variable {d : Device} (hfull : d.full = true)
include hfull

/-- FLOCK_CFG and RECOV_CFG from the bellwether start the forming of a member (R332). -/
theorem Device.manage_config (hkept : d.orphaned = false) (hunformed : d.flock.state ≠ 2) (hunlost : d.flock.state ≠ 3)
    (cfg recov : Nat) : d.manage (.config cfg recov) =
      ({ d with flock := { d.flock with cfg := cfg, isBell := bits cfg 18 13 = d.flock.rank, state := 1 }
                recov := { d.recov with cfg := recov }, coll := .reset } : Device).checkAll := by
  simp [Device.manage, hfull, hkept, hunformed, hunlost]

theorem Device.manage_fosterState_own (ok : Bool) : d.manage (.fosterState d.flock.rank ok) =
    { d with recov := { d.recov with
      fosterOk := ok
      noCopy := if ok then ndel d.recov.noCopy d.flock.rank else nins d.recov.noCopy d.flock.rank } } := by
  simp [Device.manage, hfull]

theorem Device.manage_fosterState_other {w : Nat} (hother : w ≠ d.flock.rank) (ok : Bool) : d.manage (.fosterState w ok) =
    { d with recov := { d.recov with noCopy := if ok then ndel d.recov.noCopy w else nins d.recov.noCopy w } } := by
  simp [Device.manage, hfull, hother]

/-- The bellwether of a flock chooses fosters afresh as a member's fold count changes (R367). -/
theorem Device.manage_folds {r : Nat} (hbell : d.flock.isBell = true) (hruns : d.flock.state = 2 ∨ d.flock.state = 3)
    (hmember : bit d.flock.members r = true) (n : Nat) : d.manage (.folds r n) =
      ({ d with flock := { d.flock with folds := sput d.flock.folds r n } } : Device).writeLeaves := by
  have htakes : ¬((!d.flock.isBell) = true ∨ (d.flock.state ≠ 2 ∧ d.flock.state ≠ 3) ∨ (!bit d.flock.members r) = true) := by
    rcases hruns with hruns | hruns <;> simp [hbell, hruns, hmember]
  simp only [Device.manage, hfull, Bool.not_true, Bool.false_eq_true, if_false, Device.takeFolds, if_neg htakes]

theorem Device.manage_dissolved (hflock : d.flock.state ≠ 0) : d.manage (.state 0 0) = d.leaveFlock := by
  simp [Device.manage, hfull, Device.takeFlockState, hflock]

end manage

/-- Settles O39: the bellwether's upkeep command by command, then what each message changes. -/
theorem flockUpkeepAndManagement : Obligations.FlockUpkeepAndManagement := by
  unfold Obligations.FlockUpkeepAndManagement
  refine ⟨fun s rank port m => ⟨fun rs hopen hbell hformed hbusy => ?busy, fun rs hopen hbell hformed hnone hfree => ?dissolved,
      fun rs hopen horphaned hnone => ?orphaned, fun hbell hruns => ?rerouted, fun hopen hleads hout hbad => ?refused,
      fun hopen hleads hout hrank hadmit hwatch hkeys => ?readmitted, fun v e h hruns hbell hmember => ?noted,
      fun hruns hmember => ?sent⟩, fun s v e hfull h => ?messages⟩
  case busy => rw [exec_flockDissolve, Device.fromRegs_open hopen, Device.doDissolve_busy hbell hformed hbusy]
  case dissolved => rw [exec_flockDissolve, Device.fromRegs_open hopen, Device.doDissolve_idle hbell hformed hnone hfree]
  case orphaned => rw [exec_flockDissolve, Device.fromRegs_open hopen, Device.doDissolve_orphaned horphaned hnone]
  case rerouted => rw [exec_routeUpdate, Device.doRouteUpdate_writes hbell hruns]
  case refused => rw [exec_recovReadmit, Device.fromRegs_open hopen, Device.doReadmit_refused hleads hout hbad]
  case readmitted =>
    rw [exec_recovReadmit, Device.fromRegs_open hopen, Device.doReadmit_joins hleads hout hrank hadmit hwatch hkeys]
    rfl
  case noted => rw [exec_heartbeat, Device.doHeartbeat_noted h hruns hbell hmember]
  case sent => rw [exec_heartbeat, Device.doHeartbeat_sent hruns hmember]
  case messages =>
    have hfull' : e.full = true := (Device.hears_full h).trans hfull
    have hgives {m : FlockMsg} {t : Device} (hmanage : e.manage m = t) :
        exec (.flockManagement v m) s = .next ⟨t, s.pending⟩ := by
      rw [exec_flockManagement, Device.doManage, Device.hear_hears h, hmanage]
    have hplain {m : FlockMsg} {t : Device} (hmanage : e.manage m = if !e.full then e else t) :
        exec (.flockManagement v m) s = .next ⟨t, s.pending⟩ := by
      refine hgives (hmanage.trans (if_neg ?_))
      simp [hfull']
    exact ⟨fun cfg recov hkept hunformed hunlost => hgives (Device.manage_config hfull' hkept hunformed hunlost cfg recov),
      fun mask => hplain rfl, fun l => hplain rfl, fun r p a x => hplain rfl,
      fun r hbell => hgives (by simp [Device.manage, hfull', hbell]),
      fun w ok hother => hgives (Device.manage_fosterState_other hfull' hother ok),
      fun ok => hgives (Device.manage_fosterState_own hfull' ok),
      fun r n hbell hruns hmember => hgives (Device.manage_folds hfull' hbell hruns hmember n),
      fun r p g => hplain rfl, fun keyed => hplain rfl, fun g x => hplain rfl, fun b f w => hplain rfl,
      fun hflock => hgives (Device.manage_dissolved hfull' hflock), fun dest whose step pages => hplain rfl,
      fun layer lost k0 src => hplain rfl⟩

end Sys2Proof.Machine
end

section
/-!
The ward's copy on its foster, what a drive sends to its own foster, DONE and COMMIT (R318, R359 to R361, R370 to R374).
-/
namespace Sys2Proof.Machine

/-! ## FOSTER and FOSTER_END (R318, R370, R371) -/

/-- A packet of the ward's copy that waits for the COMMIT of the ward's last foster end; its credits are not returned. -/
def Device.keepWaiting (d : Device) (k : Nat) (p : Packet) : Device :=
  { d.holdCredits k p with recov := { d.recov with waitPages := d.recov.waitPages ++ [(k, p)] } }

section foster
variable {d e : Device} {k : Nat} {p : Packet} (htaken : d.takesIn k p e)
include htaken

theorem Device.takesIn_recov : e.recov = d.recov := by
  obtain ⟨_, _, _, _, rfl⟩ := htaken
  rfl

theorem Device.takesIn_endWaits : e.endWaits = d.endWaits := by
  simp only [Device.endWaits, Device.takesIn_recov htaken]

variable (hruns : d.flock.state = 2 ∨ d.flock.state = 3)
include hruns

theorem Device.fosterComes_taken (hnone : d.endWaits = false) (hidle : d.recov.waitPages = []) :
    d.fosterComes k p = e.takeFoster p := by
  have hactive : ¬(d.flock.state ≠ 2 ∧ d.flock.state ≠ 3) := by omega
  have hfree : ¬(e.endWaits = true ∨ e.recov.waitPages ≠ []) := by
    simp [Device.takesIn_endWaits htaken, Device.takesIn_recov htaken, hnone, hidle]
  rw [Device.fosterComes, if_neg hactive, Device.deliver_takesIn htaken, if_neg hfree]

theorem Device.fosterComes_waits (hwaits : d.endWaits = true ∨ d.recov.waitPages ≠ []) :
    d.fosterComes k p = e.keepWaiting k p := by
  have hactive : ¬(d.flock.state ≠ 2 ∧ d.flock.state ≠ 3) := by omega
  have hbehind : e.endWaits = true ∨ e.recov.waitPages ≠ [] := by
    rwa [Device.takesIn_endWaits htaken, Device.takesIn_recov htaken]
  rw [Device.fosterComes, if_neg hactive, Device.deliver_takesIn htaken, if_pos hbehind]
  rfl

end foster

/-- The foster end of the ward is held: its step, page count and record digests (R370, R371). -/
theorem Device.takeFoster_end {d : Device} {p : Packet} {w : Ward} (hnode : p.node = 2) (hward : d.recov.ward = some w)
    (hmine : d.flock.ward = some w.rank) (hsrc : p.src = w.rank) (hcopy : d.recov.noCopy.contains w.rank = false) :
    d.takeFoster p = ({ d with recov := { d.recov with ward := some { w with
      endStep := some (leNat (p.data.take 8), leNat ((p.data.drop 8).take 8),
        chunks 64 (p.data.length / 64) (p.data.drop 16)) } } } : Device).wardDone false (leNat (p.data.take 8)) := by
  have hheld : ¬(d.flock.ward ≠ some w.rank ∨ p.src ≠ w.rank ∨ d.recov.noCopy.contains w.rank = true) := by
    simp only [hmine, hsrc, hcopy, ne_eq, not_true_eq_false, Bool.false_eq_true, or_self, not_false_eq_true]
  simp only [Device.takeFoster, if_neg (not_not.mpr hnode), hward, if_neg hheld, List.drop_zero]

/-! ## FOSTER_SEND (R370, R373) -/

/-- Whether a page that was written goes to the foster now: written in a foster step, up to the closed one that is owed its
foster end. -/
def Device.goesNow (d : Device) (v : Drive) (e : Nat × Nat) : Bool :=
  d.fosterStep e.1 && (match d.endOwed v with | some k => decide (e.1 ≤ k) | none => true)

/-- The pages that a drive sends to its foster: those written, then, while the foster is being seeded, every other one. -/
def Device.pagesDue (d : Device) (n : Nat) (v : Drive) : List Nat :=
  let own := (v.written.filter (d.goesNow v)).map (·.2)
  own ++ match v.opened with
    | some r => if (d.endOwed v).isNone && d.recov.seeding && d.fosterStep r.number && d.mayClose 0 n then
        (List.range (v.xsize / 32768)).filter fun p => !d.recov.fosterSent.contains p && !own.contains p else []
    | none => []

/-- The device once they have left. -/
def Device.pagesSent (d : Device) (t n : Nat) (v : Drive) : Device :=
  ((d.pagesDue n v).foldl (fun d p => d.sendPage 0 t v p) d).onDrive 0 n
    fun w => { w with written := w.written.filter fun e => !d.goesNow v e }

/-- The foster end of step j sent: the step, how many pages it had, and the record digests. -/
def Device.sendEnd (d : Device) (t : Nat) (v : Drive) (j : Nat) : Device :=
  let x := d.sendData { d.packetTo t 3 9 with node := 2 } 0
    (leBytes 8 j ++ leBytes 8 d.recov.fosterSent.length ++ v.chain.flatMap (·.2)) id
  { x with recov := { x.recov with fosterEnded := some j, fosterSent := [] } }

section send
variable {d : Device} {t n : Nat} {v : Drive} (hfoster : d.flock.foster = some t) (hdrive : d.flockDrive = some (n, v))
  (hactive : d.active = true) (hformed : d.flock.state = 2) (hstop : v.stopped = none)
include hfoster hdrive hactive hformed hstop

theorem Device.doFosterSend_eq : d.doFosterSend 0 =
    if (d.pagesDue n v).any (fun p => d.poisonLocal 0 (v.xbase + p * 32768) 32768) then d.stopOpen 0 n 0x1E
    else match d.endOwed v with
      | some j => (d.pagesSent t n v).sendEnd t v j
      | none => d.pagesSent t n v := by
  have hsends : ¬((0 : Nat) ≠ 0 ∨ (!d.active) = true ∨ d.flock.state ≠ 2 ∨ v.stopped.isSome = true) := by
    simp [hactive, hformed, hstop]
  simp only [Device.doFosterSend, hfoster, hdrive, if_neg hsends]
  rfl

/-- A poisoned page stops the drive. -/
theorem Device.doFosterSend_poisoned
    (hpoison : ∃ p, p ∈ d.pagesDue n v ∧ d.poisonLocal 0 (v.xbase + p * 32768) 32768 = true) :
    d.doFosterSend 0 = d.stopOpen 0 n 0x1E := by
  rw [Device.doFosterSend_eq hfoster hdrive hactive hformed hstop, if_pos (List.any_eq_true.mpr hpoison)]

variable (hclean : ∀ p, p ∈ d.pagesDue n v → d.poisonLocal 0 (v.xbase + p * 32768) 32768 = false)
include hclean

theorem Device.doFosterSend_pages (hopen : d.endOwed v = none) : d.doFosterSend 0 = d.pagesSent t n v := by
  have hgood : ¬((d.pagesDue n v).any (fun p => d.poisonLocal 0 (v.xbase + p * 32768) 32768)) = true := by
    simpa using hclean
  rw [Device.doFosterSend_eq hfoster hdrive hactive hformed hstop, if_neg hgood, hopen]

/-- Behind the last page of a closed step goes its foster end. -/
theorem Device.doFosterSend_end {j : Nat} (howed : d.endOwed v = some j) :
    d.doFosterSend 0 = (d.pagesSent t n v).sendEnd t v j := by
  have hgood : ¬((d.pagesDue n v).any (fun p => d.poisonLocal 0 (v.xbase + p * 32768) 32768)) = true := by
    simpa using hclean
  rw [Device.doFosterSend_eq hfoster hdrive hactive hformed hstop, if_neg hgood, howed]

end send

/-! ## DONE (R359, R360) -/

/-- The bellwether with DONE of a step noted from a rank. -/
def Device.noteDone (d : Device) (rank step : Nat) (reading : Bool) : Device :=
  { d with recov := { d.recov with
    dones := (d.recov.dones.filter fun e => !(e.1 = rank && e.2.1 = step)) ++ [(rank, step, reading)] } }

/-- COMMIT goes out once every rank awaited has sent DONE of the step. -/
theorem Device.doDone_leading {d e : Device} {v : Via} (h : d.hears v e) {rank : Nat} (hleads : e.leads = true)
    (hmember : bit e.flock.members rank = true) (step : Nat) (reading : Bool) :
    d.doDone v rank step reading =
      if ∀ r, r ∈ e.awaitsDone step → ∃ x, x ∈ (e.noteDone rank step reading).recov.dones ∧ x.1 = r ∧ x.2.1 = step then
        (e.noteDone rank step reading).issueCommit step
      else e.noteDone rank step reading := by
  have hserves : ¬((!e.leads) = true ∨ (!bit e.flock.members rank) = true) := by simp [hleads, hmember]
  rw [Device.doDone, Device.hear_hears h, if_neg hserves]
  refine if_congr ?_ rfl rfl
  simp only [List.all_eq_true, List.any_eq_true, Bool.and_eq_true, decide_eq_true_eq]
  rfl

/-! ## COMMIT (R361, R371, R373, R374) -/

/-- COMMIT k noted with its marks; on an active member the commit register, for its fold too, becomes k. -/
def Device.noteCommit (d : Device) (k : Nat) (snap exp : Bool) : Device :=
  let noted := (d.recov.commits.filter fun (e : Nat × Bool × Bool) => e.1 ≠ k) ++ [(k, snap, exp)]
  if d.active then
    ({ d with recov := { d.recov with commits := noted, commit := k } } : Device).onFold 0 fun o => { o with commit := k }
  else { d with recov := { d.recov with commits := noted } }

theorem Device.noteCommit_fosterStep (d : Device) (k : Nat) (snap exp : Bool) (j : Nat) :
    (d.noteCommit k snap exp).fosterStep j = d.fosterStep j := by
  unfold Device.noteCommit
  split <;> rfl

/-- A foster step committed: k0 becomes it, the dirty bits clear, a foster that has sent its end is seeded, and the ward's copy
is committed. -/
def Device.commitFoster (d : Device) (k : Nat) : Device :=
  let seeded := d.recov.seeding = true ∧ d.recov.fosterEnded = some k
  ({ d with recov := { d.recov with
    k0 := k, dirty := [], seeding := d.recov.seeding && !decide seeded
    state := if seeded ∧ d.recov.state = 4 then 0 else d.recov.state } } : Device).commitWard k

/-- Whether the foster is seeded by it is as before COMMIT was noted. -/
theorem Device.commitFoster_noteCommit (d : Device) (k : Nat) (snap exp : Bool) :
    (d.noteCommit k snap exp).commitFoster k =
      let x := d.noteCommit k snap exp
      let seeded := d.recov.seeding = true ∧ d.recov.fosterEnded = some k
      ({ x with recov := { x.recov with
        k0 := k, dirty := [], seeding := d.recov.seeding && !decide seeded
        state := if seeded ∧ d.recov.state = 4 then 0 else d.recov.state } } : Device).commitWard k := by
  unfold Device.noteCommit
  split <;> rfl

section commit
variable {d e : Device} {v : Via} (h : d.hears v e) (hformed : e.flock.state = 2) {k : Nat} (snap exp : Bool)
include h hformed

theorem Device.doCommit_noted (hstep : e.fosterStep k = false) : d.doCommit v k snap exp = e.noteCommit k snap exp := by
  have hother : (!(e.noteCommit k snap exp).fosterStep k) = true := by simp [Device.noteCommit_fosterStep, hstep]
  rw [Device.doCommit, Device.hear_hears h, if_neg (not_not.mpr hformed)]
  exact if_pos hother

theorem Device.doCommit_foster (hstep : e.fosterStep k = true) :
    d.doCommit v k snap exp =
      let y := (e.noteCommit k snap exp).commitFoster k
      Device.takeWaitingPages y.recov.waitPages.length y := by
  have hfoster : ¬(!(e.noteCommit k snap exp).fosterStep k) = true := by simp [Device.noteCommit_fosterStep, hstep]
  rw [Device.doCommit, Device.hear_hears h, if_neg (not_not.mpr hformed)]
  refine (if_neg hfoster).trans ?_
  simp only [Device.commitFoster, Bool.decide_and, Bool.decide_eq_true, Bool.and_eq_true, decide_eq_true_eq]
  rfl

end commit

/-- Settles O40: the ward's packets, the drive's own pages, then DONE and COMMIT. -/
theorem fosterDoneAndCommit : Obligations.FosterDoneAndCommit := by
  unfold Obligations.FosterDoneAndCommit
  refine ⟨fun s k p => ⟨fun e htaken hruns hnode => ⟨fun hnone hidle => ?page, fun hwaits => ?pageWaits⟩,
      fun e w htaken hruns hnode hward hmine hsrc hcopy => ⟨fun hnone hidle => ?heldEnd, fun hheld => ?endWaits⟩,
      fun t n v hfoster hdrive hactive hformed hstop => ⟨fun hpoison => ?poisoned, fun hclean =>
        ⟨fun hopen => ?pages, fun j howed => ?pagesEnd⟩⟩⟩,
    fun s v d rank step reading h hleads hmember => ⟨fun hmissing => ?noted, fun hall => ?commits⟩,
    fun s v d k snap exp h hformed => ⟨fun hstep => ?plain, fun hstep => ?foster⟩⟩
  case page =>
    rw [exec_foster, Device.doFoster, if_neg hnode, Device.fosterComes_taken htaken hruns hnone hidle, Device.takeFoster,
      if_pos hnode]
  case pageWaits =>
    rw [exec_foster, Device.doFoster, if_neg hnode, Device.fosterComes_waits htaken hruns hwaits]
    rfl
  case heldEnd =>
    have hfree : s.dev.endWaits = false := by simp [Device.endWaits, hward, hnone]
    rw [← Device.takesIn_recov htaken] at hward hcopy
    rw [← Device.takesIn_flock htaken] at hmine
    rw [exec_fosterEnd, Device.doFosterEnd, if_pos hnode, Device.fosterComes_taken htaken hruns hfree hidle,
      Device.takeFoster_end hnode hward hmine hsrc hcopy]
  case endWaits =>
    have hwaits : s.dev.endWaits = true := by simp [Device.endWaits, hward, Option.isSome_iff_ne_none, hheld]
    rw [exec_fosterEnd, Device.doFosterEnd, if_pos hnode, Device.fosterComes_waits htaken hruns (.inl hwaits)]
    rfl
  case poisoned =>
    rw [exec_fosterSend, Device.doFosterSend_poisoned hfoster hdrive hactive hformed hstop hpoison]
  case pages =>
    rw [exec_fosterSend, Device.doFosterSend_pages hfoster hdrive hactive hformed hstop hclean hopen]
    rfl
  case pagesEnd =>
    rw [exec_fosterSend, Device.doFosterSend_end hfoster hdrive hactive hformed hstop hclean howed]
    rfl
  case noted =>
    rw [exec_done, Device.doDone_leading h hleads hmember]
    refine next_congr (if_neg fun hall => ?_)
    obtain ⟨r, hr, hnone⟩ := hmissing
    obtain ⟨x, hx, hmatch⟩ := hall r hr
    exact hnone x hx hmatch
  case commits =>
    rw [exec_done, Device.doDone_leading h hleads hmember]
    exact next_congr (if_pos hall)
  case plain =>
    rw [exec_commit, Device.doCommit_noted h hformed snap exp hstep]
    rfl
  case foster =>
    rw [exec_commit, Device.doCommit_foster h hformed snap exp hstep, Device.commitFoster_noteCommit]
    rfl

end Sys2Proof.Machine
end

section
/-!
Frames and link control slots: what is taken, replayed, acknowledged and reported (R315 to R319, R379).
-/
namespace Sys2Proof.Machine

/-! ## Frames (R315, R316) -/

/-- The device when a frame on port k has been decoded, with these symbol errors corrected. -/
def Device.decoded (d : Device) (k errs : Nat) : Device :=
  d.onLink k fun l => { l with heard := d.watch.age, fecCE := if 0 < errs then satAdd 32 l.fecCE 1 else l.fecCE }

/-- A frame in order taken on port k (R316). -/
def Device.takeFrame (d : Device) (k : Nat) : Device :=
  d.onLink k fun l => { l with expect := (l.expect + 1) % 1024, taken := l.taken + 1, asked := false }

section frame
variable {d : Device} {k : Nat} {f : Frame} (hup : (d.link k).up = true)
include hup

/-- More errors than the code corrects: the frame is lost, and asked for again. -/
theorem Device.doFrame_uncorrectable (herrs : 15 < f.errs) :
    d.doFrame k f = (d.onLink k fun l => { l with fecUE := satAdd 8 l.fecUE 1 }).askReplay k := by
  simp [Device.doFrame, hup, herrs]

variable (herrs : f.errs ≤ 15)
include herrs

theorem Device.doFrame_idle (hflit : f.kind ≠ 1) (hcontrol : f.kind ≠ 2) : d.doFrame k f = d.decoded k f.errs := by
  simp (disch := omega) [Device.doFrame, Device.decoded, hup, hflit, hcontrol, if_neg]

variable (hkind : f.kind = 1 ∨ f.kind = 2)
include hkind

theorem Device.doFrame_inOrder (hseq : f.seq = ((d.decoded k f.errs).link k).expect) :
    d.doFrame k f = ((d.decoded k f.errs).takeFrame k).ackDue k := by
  simp (disch := omega) only [Device.doFrame, hup, Bool.not_true, Bool.false_eq_true, if_false, if_neg]
  exact if_pos hseq

theorem Device.doFrame_outOfOrder (hseq : f.seq ≠ ((d.decoded k f.errs).link k).expect) :
    d.doFrame k f = if ((d.decoded k f.errs).link k).asked then d.decoded k f.errs else (d.decoded k f.errs).askReplay k := by
  simp (disch := omega) only [Device.doFrame, hup, Bool.not_true, Bool.false_eq_true, if_false, if_neg]
  exact if_neg hseq

end frame

/-! ## Replay (R316, R317) -/

/-- A replay sends the frames held from the seq asked for. -/
theorem Device.doReplay_held {d : Device} {k q : Nat} (hup : (d.link k).up = true)
    (hheld : ∃ x, x ∈ (d.link k).sent ∧ x.1 = q) :
    d.doReplay k q = (d.onLink k fun l => { l with
      lastReq := some q, reqRow := if l.lastReq = some q then l.reqRow + 1 else 1 }).emit
        (.again k ((d.link k).sent.dropWhile (·.1 ≠ q))) := by
  have hframes : (d.link k).fromSeq q ≠ [] := by
    obtain ⟨x, hx, rfl⟩ := hheld
    simpa [Link.fromSeq, List.dropWhile_eq_nil_iff] using ⟨_, hx⟩
  simp only [Device.doReplay, hup, Bool.not_true, Bool.false_eq_true, if_false, if_neg hframes]
  rfl

/-! ## Control slots (R316, R318, R319, R379) -/

section send
variable {d : Device} {k : Nat} (hup : (d.link k).up = true)
include hup

theorem Device.doCtlSend_full (hfull : 512 ≤ (d.link k).sent.length) : d.doCtlSend k = d.emit (.idle k) := by
  simp only [Device.doCtlSend, hup, Bool.not_true, Bool.false_eq_true, if_false]
  exact if_pos hfull

theorem Device.doCtlSend_room (hroom : (d.link k).sent.length < 512) :
    d.doCtlSend k = (d.onLink k fun l => { l with
      nextSeq := (l.nextSeq + 1) % 1024, sent := l.sent ++ [(l.nextSeq, .control (d.ctlSlot k))], taken := 0
      owed := (d.ctlSlot k).credits.foldl (fun o e => o.modify e.1 (· - e.2)) l.owed }).emit
        (.control k (d.ctlSlot k)) := by
  simp only [Device.doCtlSend, hup, Bool.not_true, Bool.false_eq_true, if_false]
  exact if_neg (Nat.not_le_of_lt hroom)

end send

theorem foldl_credit_watch (d : Device) (k : Nat) (cs : List (Nat × Nat)) :
    (cs.foldl (fun (d : Device) x => d.onLink k fun l => l.credit x.1 x.2) d).watch = d.watch := by
  induction cs generalizing d with
  | nil => rfl
  | cons c cs ih => exact ih _

/-- The device when a control slot has come in on port k: frames acknowledged, a replay sent, credits returned, the peer's flags
and watch kept. -/
def Device.tookSlot (d : Device) (k : Nat) (c : CtlSlot) : Device :=
  let a := match c.ack with | some q => d.onLink k (·.acked q) | none => d
  let b := match c.replay with | some q => a.doReplay k q | none => a
  ((((c.credits.take 8).foldl (fun (d : Device) x => d.onLink k fun l => l.credit x.1 x.2) b).onLink k fun l =>
    { l with peerFlags := CtlSlot.flags c, peerWatch := c.watch, heard := b.watch.age }).drainPort k).ackDue k

/-- A slot that fails its tag is discarded. -/
theorem Device.doCtlSlot_badTag {d : Device} {k : Nat} {c : CtlSlot} (hkeyed : (d.link k).keyed = true)
    (htag : c.tagOk = false) : d.doCtlSlot k c = d := by
  simp [Device.doCtlSlot, hkeyed, htag]

/-- A neighbour that first declares failure or zeroisation is reported (R379). -/
theorem Device.doCtlSlot_good {d : Device} {k : Nat} {c : CtlSlot} (hup : (d.link k).up = true)
    (htag : (d.link k).keyed = false ∨ c.tagOk = true) : d.doCtlSlot k c =
    if (c.failed = true ∨ c.zeroised = true) ∧ (d.link k).peerFlags &&& 0x14 = 0 then
      (d.tookSlot k c).tellBell (.failure (d.link k).peerRank .declared)
    else d.tookSlot k c := by
  have hserves : ¬((!(d.link k).up) = true ∨ ((d.link k).keyed = true ∧ (!c.tagOk) = true)) := by
    rcases htag with hclear | hgood <;> simp [*]
  rw [Device.doCtlSlot, if_neg hserves]
  simp only [Device.tookSlot, foldl_credit_watch] <;> rfl

/-- Settles O43: frames by their errors and order, replays, then control slots in and out. -/
theorem framesAndControlSlots : Obligations.FramesAndControlSlots := by
  unfold Obligations.FramesAndControlSlots
  refine ⟨fun s k f hup => ⟨fun herrs => ?lost, fun herrs => ⟨fun hflit hcontrol => ?idle, fun hkind =>
      ⟨fun hseq hfew => ?taken, fun hseq hdue => ?acknowledged, fun hseq => ?outOfOrder⟩⟩, fun q hheld => ?replay,
      fun hrow => ?retrain⟩,
    fun s k c hup => ⟨fun hkeyed htag => ?badTag, fun htag => ⟨fun hknown => ?slot, fun hfirst => ?declared⟩, fun hfull => ?full,
      fun hroom => ?send⟩⟩
  case lost => rw [exec_frameReceive, Device.doFrame_uncorrectable hup herrs]
  case idle => rw [exec_frameReceive, Device.doFrame_idle hup herrs hflit hcontrol]; rfl
  case taken =>
    rw [exec_frameReceive, Device.doFrame_inOrder hup herrs hkind hseq, Device.ackDue]
    exact next_congr (if_pos hfew)
  case acknowledged =>
    rw [exec_frameReceive, Device.doFrame_inOrder hup herrs hkind hseq, Device.ackDue]
    exact next_congr (if_neg (Nat.not_lt_of_le hdue))
  case outOfOrder => rw [exec_frameReceive, Device.doFrame_outOfOrder hup herrs hkind hseq]; rfl
  case replay => rw [exec_replayRequest, Device.doReplay_held hup hheld]
  case retrain => rw [exec_linkRetrain, Device.doRetrain, if_pos ⟨hup, hrow⟩]
  case badTag => rw [exec_linkControlSlot, Device.doCtlSlot_badTag hkeyed htag]
  case slot =>
    rw [exec_linkControlSlot, Device.doCtlSlot_good hup htag, if_neg hknown]
    rfl
  case declared =>
    rw [exec_linkControlSlot, Device.doCtlSlot_good hup htag, if_pos hfirst]
    rfl
  case full => rw [exec_linkControlSend, Device.doCtlSend_full hup hfull]
  case send => rw [exec_linkControlSend, Device.doCtlSend_room hup hroom]

end Sys2Proof.Machine
end

section
/-!
Links lost and trained, their keys agreed, and packets forwarded (R313, R317, R319, R322, R323, R325, R328, R449 to R451).
-/
namespace Sys2Proof.Machine

/-! ## Loss and training (R313, R317, R319, R325) -/

theorem Device.doSilent_due {d : Device} {k : Nat} (hup : (d.link k).up = true)
    (hdue : (d.link k).heard + 2000000 ≤ d.watch.age) :
    d.doSilent k = ((d.takeDown k false).event .linkSilent [k]).tellBell (.failure (d.link k).peerRank .silent) :=
  if_pos ⟨hup, hdue⟩

/-- LINK_CTRL written with enable and retrain set. -/
theorem Device.doLinkCtrl_retrains {k v : Nat} (hk : k < 6) (hretrain : bit v 0 = true) (henable : bit v 1 = true) (d : Device) :
    d.doLinkCtrl 0 k v = (d.onLink k fun l => { l with enable := true }).takeDown k true := by
  simp (disch := omega) [Device.doLinkCtrl, Device.writeLinkCtrl, hretrain, henable, if_neg]

/-- A port about to be trained: one that is up is taken down first. -/
def Device.retrained (d : Device) (k : Nat) : Device := if (d.link k).up then d.takeDown k true else d

/-- What follows the training of port k: bring-up's links are done once every wired port has trained or failed, and what waits
for the port goes. -/
def Device.endTraining (d : Device) (k : Nat) : Device :=
  (if (List.range 6).all fun i => !Config.wired i || decide ((d.link i).state ≠ 0 ∧ (d.link i).state ≠ 1)
    then { d with bring := { d.bring with links := true } } else d).drainPort k

/-- Port k with these lanes up and its peer known; what its replay buffer holds goes out again. -/
def Device.runOn (d : Device) (k : Nat) (t : Training) (lanes state : Nat) (report : Device → Device) : Device :=
  let e := (report (d.onLink k fun l => { l with
    state := state, lanes := lanes, heard := d.watch.age
    peerRank := t.peerRank % 64, peerPort := t.peerPort % 8 })).checkWiring k
  if (e.link k).sent = [] then e else e.emit (.again k (e.link k).sent)

section training
variable {d : Device} {k : Nat} {t : Training} (henable : (d.link k).enable = true) (hstate : (d.link k).state ≠ 4)
  (hstage : 3 ≤ d.bring.stage)
include henable hstate hstage

theorem Device.trains : ¬((!(d.link k).enable) = true ∨ (d.link k).state = 4 ∨ d.bring.stage < 3) := by
  simp [henable, hstate, hstage]

/-- All eight lanes are up. -/
theorem Device.doTraining_whole (hlanes : t.lanes % 256 = 0xFF) :
    d.doTraining k t = ((d.retrained k).runOn k t 0xFF 2 id).endTraining k := by
  rw [Device.doTraining, if_neg (Device.trains henable hstate hstage)]
  simp only [hlanes, if_true]
  rfl

/-- The lower group of four is up whole, and the upper is not. -/
theorem Device.doTraining_lower (hlow : t.lanes % 16 = 15) (hlanes : t.lanes % 256 ≠ 0xFF) :
    d.doTraining k t = ((d.retrained k).runOn k t 0x0F 3 (·.event .linkDegraded [k, 0x0F])).endTraining k := by
  have hgroup : t.lanes % 256 % 16 = 15 := by omega
  rw [Device.doTraining, if_neg (Device.trains henable hstate hstage)]
  simp only [hlanes, hgroup, if_true, if_false]
  rfl

/-- The upper group of four is up whole, and the lower is not. -/
theorem Device.doTraining_upper (hlow : t.lanes % 16 ≠ 15) (hhigh : t.lanes % 256 / 16 = 15) :
    d.doTraining k t = ((d.retrained k).runOn k t 0xF0 3 (·.event .linkDegraded [k, 0xF0])).endTraining k := by
  have hlanes : t.lanes % 256 ≠ 0xFF := by omega
  have hgroup : t.lanes % 256 % 16 ≠ 15 := by omega
  rw [Device.doTraining, if_neg (Device.trains henable hstate hstage)]
  simp only [hlanes, hgroup, hhigh, if_true, if_false]
  rfl

/-- Neither group is up whole: the port fails. -/
theorem Device.doTraining_fails (hlow : t.lanes % 16 ≠ 15) (hhigh : t.lanes % 256 / 16 ≠ 15) :
    d.doTraining k t = ((d.retrained k).failLink k).endTraining k := by
  have hlanes : t.lanes % 256 ≠ 0xFF := by omega
  have hgroup : t.lanes % 256 % 16 ≠ 15 := by omega
  rw [Device.doTraining, if_neg (Device.trains henable hstate hstage)]
  simp only [hlanes, hgroup, hhigh, if_true, if_false]
  rfl

end training

/-! ## Link keys (R449 to R451) -/

/-- A message of kind 11 to the peer of port k, whose rank is given. -/
def Device.sayTo (d : Device) (k peer : Nat) (m : Vc0) : Device := d.sendOn k { d.packetTo peer 0 11 with msg := some m }

/-- The epoch of the keys agreed next (R451). -/
def Device.nextEpoch (d : Device) (k : Nat) : Nat :=
  if d.flock.state = 2 ∨ d.flock.state = 3 then (d.link k).epoch + 1 else 1

/-- The device once its nonce and its signed key have gone to the peer of port k. -/
def Device.offered (d : Device) (k : Nat) : Device :=
  let peer := (d.link k).peerRank
  (((d.sayTo k peer (.nonce d.free)).sayTo k peer (.key (d.nextEpoch k) (d.free + 1))).draw).draw

theorem Device.offered_flock (d : Device) (k : Nat) : (d.offered k).flock = d.flock := by
  obtain ⟨_, _, hnonce⟩ := d.sendOn_same k { d.packetTo (d.link k).peerRank 0 11 with msg := some (.nonce d.free) }
  obtain ⟨_, _, hkey⟩ := (d.sayTo k (d.link k).peerRank (.nonce d.free)).sendOn_same k
    { (d.sayTo k (d.link k).peerRank (.nonce d.free)).packetTo (d.link k).peerRank 0 11 with
      msg := some (.key (d.nextEpoch k) (d.free + 1)) }
  simp only [Device.offered, Device.draw_flock]
  rw [Device.sayTo, hkey]
  simp only [Device.sayTo, hnonce]

/-- The device once an agreement has failed: the link without keys, and an event. -/
def Device.keyFailed (d : Device) (k : Nat) : Device :=
  ((d.offered k).onLink k fun l => { l with keyed := false }).event .linkKeyFail [k]

theorem Device.keyFailed_flock (d : Device) (k : Nat) : (d.keyFailed k).flock = d.flock := by
  rw [Device.keyFailed, Device.event_flock, Device.onLink_flock, Device.offered_flock]

section keys
variable {d : Device} {k : Nat} (hup : (d.link k).up = true) (hwired : (d.link k).miswired = false)
include hup hwired

/-- Keys agreed: the link is keyed with the epoch's, its packet counter from zero, and what waits for it goes. -/
theorem Device.doKeys_agreed : d.doKeys k true = ((d.offered k).onLink k fun l =>
    { l with keyed := true, epoch := d.nextEpoch k, ctr := 0 }).drainPort k := by
  simp only [Device.doKeys, hup, hwired, Bool.not_true, Bool.false_eq_true, or_self, if_false, if_true]
  simp only [Bool.or_eq_true, decide_eq_true_eq]
  rfl

/-- A failed agreement leaves the link without keys, and ends a formation (R449, R450). -/
theorem Device.doKeys_failed : d.doKeys k false =
    if (d.keyFailed k).flock.state = 1 ∧ (d.keyFailed k).flock.isBell = true then (d.keyFailed k).formFailed 5
    else d.keyFailed k := by
  simp only [Device.doKeys, hup, hwired, Bool.not_true, Bool.false_eq_true, or_self, if_false]
  simp only [Bool.or_eq_true, decide_eq_true_eq]
  rfl

end keys

/-! ## Transit (R322, R323, R328) -/

/-- Credits owed aside, every port and route is as it was. -/
theorem Device.portTo_owe (d : Device) (k : Nat) (p : Packet) (r : Nat) : (d.owe k p).portTo r = d.portTo r := by
  have hstate (j : Nat) : ((d.owe k p).link j).state = (d.link j).state := by
    rw [Device.owe, Device.link_onLink]
    split <;> simp_all
  simp only [Device.portTo, hstate]
  rfl

/-- A packet taken in on port k for another rank leaves on its egress in its dateline class. -/
def Device.passOn (d : Device) (k : Nat) (p q : Packet) : Device :=
  match d.portTo p.dst with
  | some e => (d.owe k p).sendOn e { q with cls := d.classOut (some k) p.cls e }
  | none => d.owe k p

section forward
variable {d : Device} {k : Nat} {p : Packet}
  (htakes : (d.link k).receives = true ∨ (p.vc = 0 ∧ (d.link k).takes = true)) (hother : p.dst ≠ d.flock.rank)
include htakes hother

/-- A packet for another rank goes on: with its mark, or marked where its tag fails, its ingress link then taken down. -/
theorem Device.doForward_passes : d.doForward k p =
    let fail := (d.link k).keyed && !bit p.status 7 && !p.tagOk
    let e := d.passOn k p { p with
      tagOk := p.tagOk && !bit p.status 7, status := if fail then p.status % 128 + 128 else p.status }
    if fail then e.tagFailed k else e := by
  have hserves : ¬((!if p.vc = 0 then (d.link k).takes else (d.link k).receives) = true ∨ p.dst = d.flock.rank) := by
    rcases htakes with hreceives | ⟨hvc, htakes⟩
    · have htakes : (d.link k).takes = true := (Bool.and_eq_true_iff.mp hreceives).1
      simp [hreceives, htakes, hother]
    · simp [hvc, htakes, hother]
  rw [Device.doForward, if_neg hserves]
  simp only [Device.passOn, Device.portTo_owe]
  cases d.portTo p.dst <;> rfl

theorem Device.doForward_marked (hmark : bit p.status 7 = true) :
    d.doForward k p = d.passOn k p { p with tagOk := false } := by
  rw [Device.doForward_passes htakes hother]
  simp [hmark]

theorem Device.doForward_good (hmark : bit p.status 7 = false) (hgood : p.tagOk = true ∨ (d.link k).keyed = false) :
    d.doForward k p = d.passOn k p p := by
  have hfail : ((d.link k).keyed && !bit p.status 7 && !p.tagOk) = false := by
    rcases hgood with htag | hclear <;> simp [*]
  rw [Device.doForward_passes htakes hother]
  simp only [hfail, Bool.false_eq_true, if_false]
  simp only [hmark, Bool.not_false, Bool.and_true]

theorem Device.doForward_badTag (hmark : bit p.status 7 = false) (hbad : p.tagOk = false) (hkeyed : (d.link k).keyed = true) :
    d.doForward k p = (d.passOn k p { p with status := p.status % 128 + 128 }).tagFailed k := by
  rw [Device.doForward_passes htakes hother]
  simp [hmark, hbad, hkeyed]

end forward

/-- Settles O45: a port lost and trained, its keys agreed or not, and a packet forwarded. -/
theorem linkTrainingKeysAndForwarding : Obligations.LinkTrainingKeysAndForwarding := by
  unfold Obligations.LinkTrainingKeysAndForwarding
  refine ⟨fun s k => ⟨fun hup hdue => ?silent, fun hdown hdue => ?failed, fun v hopen hk hretrain henable => ?retrain,
      fun t henable hstate hstage => ⟨fun hlanes => ?whole, fun hlow hlanes => ?lower, fun hlow hhigh => ?upper,
        fun hlow hhigh => ?none⟩⟩,
    fun s k p => ⟨fun hup hwired => ⟨?agreed, fun hunformed => ?keyFailed, fun hforming hbell => ?formationFailed⟩,
      fun htakes hother => ⟨fun hmark => ?marked, fun hmark hgood => ?good, fun hmark hbad hkeyed => ?badTag⟩⟩⟩
  case silent => rw [exec_linkSilent, Device.doSilent_due hup hdue]
  case failed => rw [exec_linkFailed, Device.doLinkFailed, if_pos ⟨hdown, hdue⟩]
  case retrain =>
    rw [exec_linkCtrlRetrain, Device.fromRegs_open hopen, Device.doLinkCtrl_retrains hk hretrain henable]
  case whole => rw [exec_linkTraining, Device.doTraining_whole henable hstate hstage hlanes]; rfl
  case lower => rw [exec_linkTraining, Device.doTraining_lower henable hstate hstage hlow hlanes]; rfl
  case upper => rw [exec_linkTraining, Device.doTraining_upper henable hstate hstage hlow hhigh]; rfl
  case none => rw [exec_linkTraining, Device.doTraining_fails henable hstate hstage hlow hhigh]; rfl
  case agreed => rw [exec_linkKeyAgreement, Device.doKeys_agreed hup hwired]; rfl
  case keyFailed =>
    rw [exec_linkKeyAgreement, Device.doKeys_failed hup hwired, Device.keyFailed_flock]
    exact next_congr (if_neg fun h => hunformed h.1)
  case formationFailed =>
    rw [exec_linkKeyAgreement, Device.doKeys_failed hup hwired, Device.keyFailed_flock]
    exact next_congr (if_pos ⟨hforming, hbell⟩)
  case marked => rw [exec_packetForward, Device.doForward_marked htakes hother hmark]; rfl
  case good => rw [exec_packetForward, Device.doForward_good htakes hother hmark hgood]; rfl
  case badTag => rw [exec_packetForward, Device.doForward_badTag htakes hother hmark hbad hkeyed]; rfl

end Sys2Proof.Machine
end

section
/-!
Tunnelled accesses to ranks that are absent, and reads that time out or whose completion comes late (R348, R349).
-/
namespace Sys2Proof.Machine

/-! ## Reads behind earlier ones of their rank (R348) -/

/-- A read behind another of its rank that is outstanding stays, whatever is known of it, and the reads that wait stay. -/
theorem answered_of_behind {pre post : List TunRead} {x : TunRead} (hpre : ∀ y ∈ pre, y.ready = none)
    (hpost : ∀ y ∈ post, y.ready = none) {held : List Nat} (hbehind : x.rank ∈ held ∨ ∃ y ∈ pre, y.rank = x.rank) :
    answered (pre ++ x :: post) held = ([], pre ++ x :: post) := by
  induction pre generalizing held with
  | nil =>
    have hheld : held.contains x.rank = true := by simpa using hbehind
    have hrest := answered_of_waiting hpost (x.rank :: held)
    cases hx : x.ready <;> simp only [List.nil_append, answered, hx, hheld, hrest]
  | cons y pre ih =>
    have hy : y.ready = none := hpre y (by simp)
    have hbehind' : x.rank ∈ y.rank :: held ∨ ∃ z ∈ pre, z.rank = x.rank := by
      simp only [List.mem_cons, exists_eq_or_imp] at hbehind ⊢
      tauto
    simp only [List.cons_append, answered, hy, ih (fun z hz => hpre z (by simp [hz])) hbehind']

/-- Where no read may be answered, nothing is. -/
theorem Device.answerReads_of_none {d : Device} (hnone : answered d.flock.tunnels [] = ([], d.flock.tunnels)) :
    d.answerReads = d := by
  simp only [Device.answerReads, hnone, List.foldl_nil]

/-! ## The answer to a read (R349) -/

/-- What is known of the read under a tag marks it and no other. -/
theorem map_ready_of_tag {pre post : List TunRead} {x : TunRead} {tag : Nat} (htag : x.tag = tag) (hready : x.ready = none)
    (hothers : ∀ y ∈ pre ++ post, y.tag ≠ tag) (bs : List Byte) :
    ((pre ++ x :: post).map fun (y : TunRead) => if y.tag = tag ∧ y.ready.isNone then { y with ready := some bs } else y) =
      pre ++ { x with ready := some bs } :: post := by
  have hstays {l : List TunRead} (hl : ∀ y ∈ l, y.tag ≠ tag) : (l.map fun (y : TunRead) =>
      if y.tag = tag ∧ y.ready.isNone then { y with ready := some bs } else y) = l :=
    (List.map_congr_left fun y hy => if_neg fun ⟨htag, _⟩ => hl y hy htag).trans (List.map_id l)
  rw [List.map_append, List.map_cons, hstays fun y hy => hothers y (List.mem_append_left _ hy),
    hstays fun y hy => hothers y (List.mem_append_right _ hy), if_pos ⟨htag, by simp [hready]⟩]

/-- Behind an earlier read of its rank, a read is only marked with its answer. -/
theorem Device.endRead_behind {d : Device} {tag : Nat} {pre post : List TunRead} {x : TunRead}
    (htunnels : d.flock.tunnels = pre ++ x :: post) (htag : x.tag = tag) (hwait : ∀ y ∈ d.flock.tunnels, y.ready = none)
    (hothers : ∀ y ∈ pre ++ post, y.tag ≠ tag) (hbehind : ∃ y ∈ pre, y.rank = x.rank) (bs : List Byte) :
    d.endRead tag bs = { d with flock := { d.flock with tunnels := pre ++ { x with ready := some bs } :: post } } := by
  rw [htunnels] at hwait
  have hmap := map_ready_of_tag htag (hwait x (by simp)) hothers bs
  have hanswered := answered_of_behind (pre := pre) (post := post) (x := { x with ready := some bs })
    (fun y hy => hwait y (by simp [hy])) (fun y hy => hwait y (by simp [hy])) (held := []) (.inr hbehind)
  rw [Device.endRead, htunnels, hmap]
  exact Device.answerReads_of_none hanswered

/-- A completion of no read outstanding is discarded. -/
theorem Device.endRead_late {d : Device} {tag : Nat} (hnone : ∀ x ∈ d.flock.tunnels, x.tag ≠ tag ∧ x.ready = none)
    (bs : List Byte) : d.endRead tag bs = d := by
  have hmap : (d.flock.tunnels.map fun (y : TunRead) =>
      if y.tag = tag ∧ y.ready.isNone then { y with ready := some bs } else y) = d.flock.tunnels :=
    (List.map_congr_left fun y hy => if_neg fun ⟨htag, _⟩ => (hnone y hy).1 htag).trans (List.map_id _)
  rw [Device.endRead, hmap]
  exact Device.answerReads_of_none (answered_of_waiting (fun y hy => (hnone y hy).2) [])

/-! ## Ranks that are absent (R349) -/

/-- Off the bellwether, and for a rank that is no member or has failed, nothing is carried. -/
theorem Device.absent_not_present {d : Device} {rank : Nat}
    (habsent : d.bellwether = false ∨ bit d.flock.members rank = false ∨ d.flock.failed.contains rank = true) :
    ¬(d.bellwether = true ∧ d.present rank = true) := by
  rintro ⟨hbell, hpresent⟩
  obtain ⟨hmember, hgood⟩ := Bool.and_eq_true_iff.mp hpresent
  rcases habsent with hnobell | hstranger | hfailed
  · exact Bool.false_ne_true (hnobell.symm.trans hbell)
  · exact Bool.false_ne_true (hstranger.symm.trans hmember)
  · rw [hfailed] at hgood
    exact Bool.false_ne_true hgood

section absent
variable {d : Device} {rank : Nat} (hin : d.outside 0 = false) (hother : rank ≠ d.flock.rank)
  (habsent : d.bellwether = false ∨ bit d.flock.members rank = false ∨ d.flock.failed.contains rank = true)
include hin hother habsent

/-- A read of an absent rank is noted with its answer, all ones. -/
theorem Device.doTunRead_absent (off width v : Nat) : d.doTunRead (.host rank off width v) =
    ((d.event .tunnelAbsent [rank]).noteRead rank off width (some (ones width))).answerReads := by
  simp only [Device.doTunRead, Device.fromHost_inside hin, if_neg hother, if_neg (Device.absent_not_present habsent)]

theorem Device.doTunWrite_absent (off width v : Nat) :
    d.doTunWrite (.host rank off width v) = d.event .tunnelAbsent [rank] := by
  simp only [Device.doTunWrite, Device.fromHost_inside hin, if_neg hother, if_neg (Device.absent_not_present habsent)]

variable (off width v : Nat)

/-- Before every other read of the rank it is answered at once. -/
theorem Device.doTunRead_absent_first (hfirst : ∀ y ∈ d.flock.tunnels, y.rank ≠ rank ∧ y.ready = none) :
    d.doTunRead (.host rank off width v) =
      ({ d.event .tunnelAbsent [rank] with flock := { d.flock with nextTag := (d.flock.nextTag + 1) % 2 ^ 17 } } : Device).emit
        (.reply (.host 0) (ones width)) := by
  have hanswered := answered_of_ready (pre := d.flock.tunnels) (post := [])
    (x := ⟨d.flock.nextTag, rank, off, width, d.watch.age, some (ones width)⟩) rfl hfirst (by simp) (held := []) (by simp)
  rw [List.append_nil] at hanswered
  rw [Device.doTunRead_absent hin hother habsent]
  simp only [Device.answerReads, Device.noteRead, Device.event_flock, Device.event_watch, hanswered, List.foldl_cons,
    List.foldl_nil]

/-- Behind another it waits for its turn. -/
theorem Device.doTunRead_absent_behind (hbehind : ∃ y ∈ d.flock.tunnels, y.rank = rank)
    (hwait : ∀ y ∈ d.flock.tunnels, y.ready = none) :
    d.doTunRead (.host rank off width v) =
      { d.event .tunnelAbsent [rank] with flock := { d.flock with
        nextTag := (d.flock.nextTag + 1) % 2 ^ 17
        tunnels := d.flock.tunnels ++
          [(⟨d.flock.nextTag, rank, off, width, d.watch.age, some (ones width)⟩ : TunRead)] } } := by
  have hanswered := answered_of_behind (post := [])
    (x := ⟨d.flock.nextTag, rank, off, width, d.watch.age, some (ones width)⟩) hwait (by simp) (held := []) (.inr hbehind)
  rw [Device.doTunRead_absent hin hother habsent]
  exact Device.answerReads_of_none hanswered

end absent

/-! ## Reads that time out (R349) -/

section timeout
variable {d : Device} {tag : Nat} {pre post : List TunRead} {x : TunRead}
  (htunnels : d.flock.tunnels = pre ++ x :: post) (htag : x.tag = tag) (hpre : ∀ y ∈ pre, y.tag ≠ tag)
include htunnels htag hpre

theorem Device.find_tunnel : d.flock.tunnels.find? (·.tag = tag) = some x := by
  have hearlier : pre.find? (·.tag = tag) = none := List.find?_eq_none.mpr fun y hy => by simpa using hpre y hy
  rw [htunnels, List.find?_append, hearlier, Option.none_or, List.find?_cons_of_pos (by simpa using htag)]

theorem Device.doTunTimeout_due (hready : x.ready = none) (hdue : x.since + 100000 ≤ d.watch.age) :
    d.doTunTimeout tag = (d.event .tunnelTimeout [x.rank]).endRead tag (ones x.width) := by
  simp only [Device.doTunTimeout, Device.find_tunnel htunnels htag hpre]
  exact if_pos ⟨by simp [hready], hdue⟩

theorem Device.doTunTimeout_early (hearly : d.watch.age < x.since + 100000) : d.doTunTimeout tag = d := by
  simp only [Device.doTunTimeout, Device.find_tunnel htunnels htag hpre]
  exact if_neg (by omega)

end timeout

/-- Settles O60: accesses to an absent rank, a read past its time and one before, then a completion that comes late. -/
theorem absentRanksAndLateReads : Obligations.AbsentRanksAndLateReads := by
  unfold Obligations.AbsentRanksAndLateReads
  intro s rank off width v d
  refine ⟨fun hin hother habsent hfirst => ⟨?read, ?write⟩, fun hin hother habsent hbehind hwait => ?behind,
    fun tag pre x post htunnels htag hwait hothers hbehind hdue => ?lateBehind,
    fun tag pre x post htunnels htag hready hpre hpost => ⟨fun hdue => ?late, fun hearly => ?early⟩,
    fun k p e htaken hbell hnone => ?discarded⟩
  case read =>
    rw [exec_tunnelRead, Device.doTunRead_absent_first hin hother habsent off width v hfirst]
    rfl
  case write => rw [exec_tunnelWrite, Device.doTunWrite_absent hin hother habsent]
  case behind =>
    rw [exec_tunnelRead, Device.doTunRead_absent_behind hin hother habsent off width v hbehind hwait]
    rfl
  case lateBehind =>
    have hready : x.ready = none := hwait x (by rw [htunnels]; simp)
    rw [exec_tunnelTimeout,
      Device.doTunTimeout_due htunnels htag (fun y hy => hothers y (List.mem_append_left _ hy)) hready hdue,
      Device.endRead_behind (d := d.event .tunnelTimeout [x.rank]) htunnels htag hwait hothers hbehind]
    rfl
  case late =>
    rw [exec_tunnelTimeout, Device.doTunTimeout_due htunnels htag (fun y hy => (hpre y hy).1) hready hdue,
      Device.endRead_first (d := d.event .tunnelTimeout [x.rank]) htunnels htag hready hpre hpost]
    rfl
  case early => rw [exec_tunnelTimeout, Device.doTunTimeout_early htunnels htag (fun y hy => (hpre y hy).1) hearly]
  case discarded =>
    have hnone' : ∀ x ∈ e.flock.tunnels, x.tag ≠ p.tally ∧ x.ready = none := by rwa [Device.takesIn_flock htaken]
    rw [exec_tunnelCompletion, Device.doTunDone_bellwether htaken hbell, Device.endRead_late hnone']

end Sys2Proof.Machine
end

section
/-!
DMA of a ring's descriptor: what it does once it is taken up, and what the reads of one from the host land (R374, R402, R412, R413,
R425, R426).
-/
namespace Sys2Proof.Machine

/-- A DMA that has moved all its bytes counts its tally, if it names one (R413). -/
def Device.countDma (d : Device) (f : Nat) (m : DmaD) : Device := if m.inc ≠ 0 then d.tallyAdd f m.tally m.inc else d

/-! ## The descriptor (R412, R426) -/

/-- The tally that a DMA waits for, if it waits, has reached its threshold. -/
theorem Device.dmaWait_over {d : Device} {f : Nat} {m : DmaD} (hdue : m.wt = true → d.tallyReached f m.wtally m.wthr = true) :
    ¬(m.wt = true ∧ (!d.tallyReached f m.wtally m.wthr) = true) := by
  rintro ⟨hwait, hshort⟩
  simp [hdue hwait] at hshort

section takesUp
variable {d : Device} {sq idx : Nat} {x : Desc} (htakes : d.takesUp sq idx 0x01 x) (errs : List (Nat × Ecc))
include htakes

/-- The first check that fails is what the DMA completes with; nothing else has changed. -/
theorem Device.doDma_refused (hbad : d.dmaStatus sq (d.dmaFor sq x.bytes) ≠ 0) :
    d.doDma sq idx errs = d.complete sq idx (d.dmaStatus sq (d.dmaFor sq x.bytes)) 0 := by
  rw [Device.doDma, Device.begin_takesUp htakes]
  exact if_pos hbad

variable {m : DmaD} (hdma : d.dmaFor sq x.bytes = m) (hgood : d.dmaStatus sq m = 0)
  (hover : ¬(m.wt = true ∧ (!d.tallyReached (d.ringFold sq) m.wtally m.wthr) = true))
include hdma hgood hover

/-- From the host: the descriptor stands started, its pages become dirty, and its reads are asked for. -/
theorem Device.doDma_fromHost (hfrom : m.toHost = false) : d.doDma sq idx errs =
    ((d.markStarted sq idx).noteDirty (d.ringFold sq) m.loc m.len).askDma (ownerFn (d.ring sq).owner) (.ring sq idx)
      m.host m.len := by
  rw [Device.doDma, Device.begin_takesUp htakes]
  simp only [hdma, hgood, if_neg hover, hfrom, ne_eq, not_true_eq_false, Bool.false_eq_true, if_false]

/-- To the host: a range that the read finds without poison is written there, counted and completed. -/
theorem Device.doDma_toHost (hto : m.toHost = true)
    (hclean : (d.transferRead (d.ringFold sq) m.loc m.len errs).poisonIn (d.ringFold sq) m.loc m.len = []) :
    d.doDma sq idx errs =
      let e := d.transferRead (d.ringFold sq) m.loc m.len errs
      ((e.hostWrite m.host (e.readLocal (d.ringFold sq) m.loc m.len)).countDma (d.ringFold sq) m).complete sq idx 0
        m.len := by
  rw [Device.doDma, Device.begin_takesUp htakes]
  simp only [hdma, hgood, if_neg hover, hto, Device.dmaOut, hclean, Device.countDma, ne_eq, not_true_eq_false, if_false,
    if_true, true_and]

end takesUp

/-! ## The reads of a DMA from the host (R413, R425) -/

/-- Bytes that land with more of the DMA to come: what is still to come of it is less by them. -/
theorem Device.dmaIn_more {d e : Device} {f : Nat} {m : DmaD} {q : HostReq} {bs : List Byte} {n : Nat}
    (hland : d.landPieces f bs (m.loc + q.off) (windowsOf (m.loc + q.off) bs.length) 0 = (e, n, true))
    (hmore : ¬(((d.hport.moves.find? (·.1 = q.job)).map (·.2)).getD (q.len, 0)).1 ≤ bs.length) :
    d.dmaIn f m q (.data bs) =
      let due := ((d.hport.moves.find? (·.1 = q.job)).map (·.2)).getD (q.len, 0)
      ({ e with hport := { e.hport with moves := e.hport.moves.map fun y =>
        if y.1 = q.job then (y.1, due.1 - bs.length, due.2 + bs.length) else y } }, none) := by
  simp only [Device.dmaIn, hland, if_neg hmore]

section returned
variable {d e : Device} {tag src : Nat} {q : HostReq} (hreturned : d.returned tag src q e)
include hreturned

theorem Device.returned_desc (sq idx : Nat) : e.desc sq idx = d.desc sq idx := by
  obtain ⟨-, rfl⟩ := hreturned
  rfl

theorem Device.returned_ringFold (sq : Nat) : e.ringFold sq = d.ringFold sq := by
  obtain ⟨-, rfl⟩ := hreturned
  rfl

theorem Device.returned_dmaFor (sq : Nat) (bs : List Byte) : e.dmaFor sq bs = d.dmaFor sq bs := by
  obtain ⟨-, rfl⟩ := hreturned
  rfl

variable {sq idx : Nat} {x : Desc} (hjob : q.job = .ring sq idx) (hdesc : d.desc sq idx = some x) {data : HostRead} {t : Device}
include hjob hdesc

/-- Its bytes with more of the DMA to come. -/
theorem Device.landRead_ring_more (hin : e.dmaIn (d.ringFold sq) (d.dmaFor sq x.bytes) q data = (t, none)) :
    e.landRead q data = t := by
  simp only [Device.landRead, hjob, Device.landDma, Device.returned_desc hreturned, hdesc, Device.returned_ringFold hreturned,
    Device.returned_dmaFor hreturned, hin]

/-- The rest of the DMA's bytes. -/
theorem Device.landRead_ring_last {detail : Nat}
    (hin : e.dmaIn (d.ringFold sq) (d.dmaFor sq x.bytes) q data = (t, some (0, detail))) :
    e.landRead q data = (t.countDma (d.ringFold sq) (d.dmaFor sq x.bytes)).complete sq idx 0 detail := by
  simp only [Device.landRead, hjob, Device.landDma, Device.returned_desc hreturned, hdesc, Device.returned_ringFold hreturned,
    Device.returned_dmaFor hreturned, hin, Device.countDma, true_and]

/-- A read with which the DMA fails: nothing is counted. -/
theorem Device.landRead_ring_fails {st detail : Nat} (hst : st ≠ 0)
    (hin : e.dmaIn (d.ringFold sq) (d.dmaFor sq x.bytes) q data = (t, some (st, detail))) :
    e.landRead q data = t.complete sq idx st detail := by
  simp only [Device.landRead, hjob, Device.landDma, Device.returned_desc hreturned, hdesc, Device.returned_ringFold hreturned,
    Device.returned_dmaFor hreturned, hin, hst, false_and, if_false]

end returned

/-- Settles O28: the descriptor to the host, from it and refused, then the reads that land and the reads that fail. -/
theorem dmaMovesTheRangeOrRefuses : Obligations.DmaMovesTheRangeOrRefuses := by
  unfold Obligations.DmaMovesTheRangeOrRefuses
  refine ⟨fun s sq idx x => ⟨fun es htakes hgood hdue => ⟨fun hfrom => ?fromHost, fun hto => ?toHost⟩,
      fun tag src q bs d e n hjob hreturned hdesc hlen hland => ?lands⟩,
    fun s sq idx x => ⟨fun es htakes hbad => ?refused, fun tag src q d hjob hreturned hdesc => ?fails⟩⟩
  case fromHost => rw [exec_dma, Device.doDma_fromHost htakes es rfl hgood (Device.dmaWait_over hdue) hfrom]
  case toHost =>
    intro e hclean
    rw [exec_dma, Device.doDma_toHost htakes es rfl hgood (Device.dmaWait_over hdue) hto hclean]
    rfl
  case lands =>
    have hfits : ∀ bs', HostRead.data bs = .data bs' → bs'.length = q.len := fun _ h => HostRead.data.inj h ▸ hlen
    rw [exec_hostReadCompletion, Device.doHostRead_returned hreturned hfits]
    extract_lets due
    by_cases hlast : due.1 ≤ bs.length
    · rw [Device.landRead_ring_last hreturned hjob hdesc (Device.dmaIn_last hland hlast), if_pos hlast]
      rfl
    · rw [Device.landRead_ring_more hreturned hjob hdesc (Device.dmaIn_more hland hlast), if_neg hlast]
  case refused => rw [exec_dma, Device.doDma_refused htakes es hbad]
  case fails =>
    have hgives {data : HostRead} {st : Nat} {t : Device} (hfails : ∀ bs, data ≠ .data bs) (hst : st ≠ 0)
        (hin : d.dmaIn (s.dev.ringFold sq) (s.dev.dmaFor sq x.bytes) q data = (t, some (st, 0))) :
        exec (.hostReadCompletion tag data) s = .next ⟨Device.serveReads 4096 (t.complete sq idx st 0), s.pending⟩ := by
      rw [exec_hostReadCompletion, Device.doHostRead_returned hreturned fun bs h => absurd h (hfails bs),
        Device.landRead_ring_fails hreturned hjob hdesc hst hin]
    exact ⟨hgives nofun (by decide) rfl, hgives nofun (by decide) rfl⟩

end Sys2Proof.Machine
end

section
/-!
A recovery from the failure that starts it to the flock formed again: failures, ABORT, the assignment, loads and readiness (R379 to
R393).
-/
namespace Sys2Proof.Machine

section hears
variable {d e : Device} {v : Via} (h : d.hears v e)
include h

theorem Device.hears_recov : e.recov = d.recov := by
  obtain ⟨_, rfl⟩ := Device.hears_eq h
  rfl

theorem Device.hears_bellRank : e.bellRank = d.bellRank := by
  simp only [Device.bellRank, Device.hears_flock h]

end hears

/-! ## Failures (R351, R379 to R381, R391) -/

/-- The bellwether of a formed flock classifies the report of a rank that has not failed yet. -/
theorem Device.failure_taken {d : Device} {rank : Nat} (hformed : d.flock.state = 2) (hbell : d.flock.isBell = true)
    (hnew : d.flock.failed.contains rank = false) :
    ¬((!d.flock.isBell) = true ∨ (d.flock.state ≠ 2 ∧ d.flock.state ≠ 3) ∨ d.flock.failed.contains rank = true) := by
  rw [hbell, hformed, hnew]
  decide

section failure
variable {d : Device} (hformed : d.flock.state = 2) (hleft : d.recov.state ≠ 5)
include hformed hleft

/-- In a formed flock a lost rank starts a recovery at the foster layer. -/
theorem Device.failure_rank (rank : Nat) : d.failure (some rank) false = (d.loseRank rank).beginRecovery rank 1 := by
  simp [Device.failure, Device.loseRank, hleft, hformed]

/-- A failure that loses no rank but asks for a deeper layer starts it there. -/
theorem Device.failure_deeper : d.failure none true = (d.beginRecovery 63 1).nextLayer := by
  simp [Device.failure, hleft, hformed]

variable (hbell : d.flock.isBell = true) {rank : Nat} (hnew : d.flock.failed.contains rank = false)
include hbell hnew

/-- The bellwether takes a rank for lost that is declared failed, itself excepted, or whose heartbeats have stopped. -/
theorem Device.takeFailure_lost {c : FailCause} (hcause : c = .declared ∧ rank ≠ d.bellRank ∨ c = .heartbeat) :
    d.takeFailure rank c = (d.loseRank rank).beginRecovery rank 1 := by
  have hserves := Device.failure_taken hformed hbell hnew
  rw [← Device.failure_rank hformed hleft]
  rcases hcause with ⟨rfl, hother⟩ | rfl
  · rw [Device.takeFailure, if_neg (fun h => hother h.1), if_neg hserves]
  · rw [Device.takeFailure, if_neg (by simp [hbell]), if_neg hserves]

theorem Device.takeFailure_loadFailed : d.takeFailure rank .loadFailed = (d.beginRecovery 63 1).nextLayer := by
  rw [← Device.failure_deeper hformed hleft, Device.takeFailure, if_neg (by simp [hbell]),
    if_neg (Device.failure_taken hformed hbell hnew)]

theorem Device.doMemberLost_silent (hmember : bit d.flock.members rank = true) (hother : rank ≠ d.flock.rank)
    (hsilent : d.beats rank = false) : d.doMemberLost rank = (d.loseRank rank).beginRecovery rank 1 := by
  rw [← Device.takeFailure_lost hformed hleft hbell hnew (.inr rfl)]
  simp [Device.doMemberLost, hbell, hmember, hother, hsilent]

end failure

/-- A member takes up the failure of its bellwether, whatever its cause. -/
theorem Device.takeFailure_bell {d : Device} (hmember : d.flock.isBell = false) (c : FailCause) :
    d.takeFailure d.bellRank c = d.loseBell := by
  simp [Device.takeFailure, hmember]

/-! ## ABORT (R381) -/

theorem Device.giveBack_recov (d : Device) (slot : Nat) : (d.giveBack slot).recov = d.recov := by
  unfold Device.giveBack
  split
  · next r _ =>
    exact foldl_keeps (fun e : Device => e.recov = d.recov)
      (fun (d : Device) (e : Nat × Nat × Nat) => d.onLink e.1 fun l => { l with owed := l.owed.modify e.2.1 (· + e.2.2) })
      (fun _ _ h => h) r.held d rfl
  · rfl

/-- Every credit of the device owed again: those withheld for the four slots of collectives, and those of the ward's waiting
pages. -/
def Device.oweAll (d : Device) : Device :=
  d.recov.waitPages.foldl (fun d w => d.owe w.1 w.2) ([0, 1, 2, 3].foldl (fun d i => d.giveBack i) d)

/-- A member recovering from k0 on, with nothing under way of the steps behind it. -/
def Device.backTo (d : Device) (k0 : Nat) : Device :=
  { d with
    flock := { d.flock with state := 3 }
    recov := { d.recov with
      state := 1, k0 := k0, commits := (d.recov.commits.filter fun (e : Nat × Bool × Bool) => e.1 ≤ k0), fosterSent := []
      fosterEnded := some k0, waitPages := []
      ward := d.recov.ward.map fun (w : Ward) => { w with pages := [], endStep := none }
      layer := if d.recov.layer = 0 then 1 else d.recov.layer }
    coll := { d.coll with queue := [], slots := [], lags := [], ended := [] }
    links := d.links.map fun (l : Link) => { l with waiting := l.waiting.filter fun (p : Packet) => p.vc ≠ 3 }
    watch := d.watch.release fun u => match u with | .laggard _ => true | _ => false }

/-- A member of a flock owes its credits, goes back to k0, and resets its drives. -/
theorem Device.doAbort_heard {d e : Device} {v : Via} (h : d.hears v e) (hruns : e.flock.state = 2 ∨ e.flock.state = 3)
    (k0 : Nat) : d.doAbort v k0 =
      ((e.oweAll.fold 0).drives.map (·.1)).foldl (fun d n => d.resetDrive 0 n k0) (e.oweAll.backTo k0) := by
  have hflock : ¬(e.flock.state ≠ 2 ∧ e.flock.state ≠ 3) := by omega
  have hpages : ([0, 1, 2, 3].foldl (fun d i => d.giveBack i) e).recov.waitPages = e.recov.waitPages :=
    congrArg _ (foldl_keeps (fun x : Device => x.recov = e.recov) _ (fun x i hx => (x.giveBack_recov i).trans hx) _ _ rfl)
  rw [Device.doAbort, Device.hear_hears h, if_neg hflock]
  simp only [hpages]
  rfl

/-! ## Assignment (R382, R389) -/

/-- The assignment of a rank that has not failed and hands nothing over moves no leaves; the loads start from the layer and the
k0 that are found. -/
theorem Device.doAssignment_keeps {d : Device} {lost : Nat} (hbell : d.flock.isBell = true) (hrecovers : d.flock.state = 3)
    (hfirst : d.recov.state = 1) (hlives : d.flock.failed.contains lost = false) (hstays : d.recov.handover ≠ some lost)
    (images : List (List Nat)) (exported : Nat) :
    d.doAssignment lost images exported =
      let x := d.deepen false images exported
      let e : Device := { x with recov := { x.recov with handover := none, state := 2, awaited := x.activeRanks } }
      let w := e.writeRoutes.writeLeaves
      let src := (d.fosterOf lost).getD 63
      (w.tellMembers fun _ => some (.load w.recov.layer lost w.recov.k0 src)).takeLoad w.recov.layer lost w.recov.k0 src := by
  have hassigns : ¬((!d.flock.isBell) = true ∨ d.flock.state ≠ 3 ∨ d.recov.state ≠ 1) := by simp [hbell, hrecovers, hfirst]
  rw [Device.doAssignment, if_neg hassigns]
  simp only [hlives, hstays, decide_false, Bool.false_and, Bool.false_eq_true, if_false, ne_eq, not_true_eq_false, false_and]

/-! ## Loads (R383, R384, R391) -/

section load
variable {d e : Device} {k : Nat} {p : Packet} (htaken : d.takesIn k p e)
include htaken

theorem Device.takesIn_pageAddr (base size : Nat) (leaves : List Nat) (page : Nat) :
    e.pageAddr base size leaves page = d.pageAddr base size leaves page := by
  obtain ⟨_, _, _, _, rfl⟩ := htaken
  rfl

variable (hrecovers : d.flock.state = 3) (hloads : d.recov.state = 2)
include hrecovers hloads

/-- A packet of a load that is taken in lands, unless it says poison. -/
theorem Device.doLoadPacket_taken : d.doLoadPacket k p =
    if bit p.status 0 then e.loadFails else e.landLoad (p.offset / 32768) (p.offset % 32768) p.data := by
  have hawaits : ¬(d.flock.state ≠ 3 ∨ d.recov.state ≠ 2) := by simp [hrecovers, hloads]
  rw [Device.doLoadPacket, if_neg hawaits, Device.deliver_takesIn htaken]

end load

/-- Part of an awaited page lands where the page is restored; with its last part the page is loaded. -/
theorem Device.landLoad_page {d : Device} {page base size : Nat} {leaves : List Nat} {x : Nat} (hpage : page ≠ headerPage)
    (hheader : d.recov.hdr = some (base, size, leaves)) (hawaited : d.recov.loading.contains page = true)
    (haddr : d.pageAddr base size leaves page = some x) (off : Nat) (data : List Byte) :
    d.landLoad page off data =
      let w := d.writeLocal 0 (x + off) data []
      if off + data.length < 32768 then w
      else ({ w with recov := { w.recov with loading := ndel w.recov.loading page } } : Device).sayLoaded := by
  simp only [Device.landLoad, if_neg hpage, hheader, hawaited, haddr, Bool.not_true, Bool.false_eq_true, if_false]

/-! ## RECOVERY_READY (R385) -/

/-- With no load awaited, the bellwether forms the flock again. -/
theorem Device.doRecovReady_loaded {d : Device} (hbell : d.flock.isBell = true) (hrecovers : d.flock.state = 3)
    (hloads : d.recov.state = 2) (hdone : d.recov.awaited = []) :
    d.doRecovReady =
      let e : Device := { d with
        flock := { d.flock with state := 2 }, recov := { d.recov with state := d.readyState, hdr := none, heads := [] } }
      (e.tellMembers fun _ => some (.state 2 0)).event .recoveryReady [d.recov.k0] := by
  have hready : ¬((!d.flock.isBell) = true ∨ d.flock.state ≠ 3 ∨ d.recov.state ≠ 2 ∨ d.recov.awaited ≠ []) := by
    simp [hbell, hrecovers, hloads, hdone]
  rw [Device.doRecovReady, if_neg hready]

/-- Settles O41: the failures that start a recovery, then a member's ABORT, the assignment, a load's packets and readiness. -/
theorem recoveryCompletes : Obligations.RecoveryCompletes := by
  unfold Obligations.RecoveryCompletes
  intro s d
  refine ⟨fun v e rank h hbell hformed hother hnew hleft => ?declared, fun v e rank h hbell hformed hnew hleft => ?loadFailed,
    fun v e c h hmember => ?bell, fun rank hbell hformed hnew hleft hmember hother hsilent => ?silent,
    fun v e k0 h hruns => ?abort, fun lost im k hbell hrecovers hfirst hlives hstays => ?assigned,
    fun k p e htaken hrecovers hloads => ⟨fun hpoison => ?poisoned,
      fun base size leaves x hclean => ?page⟩,
    fun hbell hrecovers hloads hdone => ?ready⟩
  case declared =>
    rw [← Device.hears_flock h] at hbell hformed hnew
    rw [← Device.hears_recov h] at hleft
    rw [← Device.hears_bellRank h] at hother
    rw [exec_deviceFailure, Device.doDeviceFailure, Device.hear_hears h,
      Device.takeFailure_lost hformed hleft hbell hnew (.inl ⟨rfl, hother⟩)]
  case loadFailed =>
    rw [← Device.hears_flock h] at hbell hformed hnew
    rw [← Device.hears_recov h] at hleft
    rw [exec_deviceFailure, Device.doDeviceFailure, Device.hear_hears h,
      Device.takeFailure_loadFailed hformed hleft hbell hnew]
  case bell =>
    rw [← Device.hears_flock h] at hmember
    rw [exec_deviceFailure, Device.doDeviceFailure, Device.hear_hears h, ← Device.hears_bellRank h,
      Device.takeFailure_bell hmember]
  case silent => rw [exec_memberLost, Device.doMemberLost_silent hformed hleft hbell hnew hmember hother hsilent]
  case abort =>
    rw [← Device.hears_flock h] at hruns
    rw [exec_abort, Device.doAbort_heard h hruns]
    rfl
  case assigned => rw [exec_recoveryAssignment, Device.doAssignment_keeps hbell hrecovers hfirst hlives hstays]
  case poisoned => rw [exec_recoveryLoadPacket, Device.doLoadPacket_taken htaken hrecovers hloads, if_pos hpoison]
  case page =>
    intro page off hpage hheader hawaited haddr w
    rw [← Device.takesIn_recov htaken] at hheader hawaited
    rw [← Device.takesIn_pageAddr htaken] at haddr
    rw [exec_recoveryLoadPacket, Device.doLoadPacket_taken htaken hrecovers hloads, if_neg (by simp [hclean]),
      Device.landLoad_page hpage hheader hawaited haddr]
  case ready => rw [exec_recoveryReady, Device.doRecovReady_loaded hbell hrecovers hloads hdone]

end Sys2Proof.Machine
end

section
/-!
What no step undoes, and queues: the device of a step's next state evolves from the device before (`Device.evolves`), and its
queue is the one before without its front.
-/
namespace Sys2Proof.Machine

/-- Settles O4: a step leaves a device that its device can become, of which each clause is a part. -/
theorem noStepUndoesIdentityOrFuses : Obligations.NoStepUndoesIdentityOrFuses := by
  unfold Obligations.NoStepUndoesIdentityOrFuses
  intro s t hstep
  obtain ⟨hidrev, hserial, ⟨hrevoked, hfloor, howner, hdecommissioned, hcote, htamper⟩, -⟩ := step_evolves hstep
  exact ⟨hidrev, hserial, hrevoked, hfloor, howner, hdecommissioned, fun h => (hcote h).1, fun h => (htamper h).1⟩

/-- A step answers a next state and uses up the command at the front of the queue, where one waits. -/
theorem step_uses_front (s : State) : ∃ t, step s = .next t ∧ t.pending = s.pending.tail := by
  obtain ⟨d, _ | ⟨c, rest⟩⟩ := s
  · exact ⟨_, step_nil d, rfl⟩
  · obtain ⟨e, hexec, -⟩ := exec_evolves c ⟨d, rest⟩
    exact ⟨_, (step_cons d c rest).trans hexec, rfl⟩

/-- A queue is carried out in order: ds holds the device after each of its commands (beyond them, any device x). -/
theorem queue_carried_out (cs : List Instr) (d : Device) : ∃ ds : List Device, ds.length = cs.length ∧
    ∀ (x : Device) (i : Nat), i < cs.length →
      step ⟨(d :: ds).getD i x, cs.drop i⟩ = .next ⟨ds.getD i x, cs.drop (i + 1)⟩ := by
  induction cs generalizing d with
  | nil => exact ⟨[], rfl, fun _ _ hi => absurd hi (Nat.not_lt_zero _)⟩
  | cons c rest ih =>
    obtain ⟨e, hexec, -⟩ := exec_evolves c ⟨d, rest⟩
    obtain ⟨ds, hlen, hsteps⟩ := ih e
    refine ⟨e :: ds, congrArg (· + 1) hlen, fun x i hi => ?_⟩
    cases i with
    | zero => exact (step_cons d c rest).trans hexec
    | succ i => exact hsteps x i (Nat.lt_of_succ_lt_succ hi)

/-- Settles O2: one step by the front of its queue, then a queue by induction on its commands. -/
theorem queuesAreCarriedOutInOrder : Obligations.QueuesAreCarriedOutInOrder := by
  unfold Obligations.QueuesAreCarriedOutInOrder
  refine ⟨step_uses_front, fun cs d => ?_⟩
  obtain ⟨ds, hlen, hsteps⟩ := queue_carried_out cs d
  exact ⟨ds, hlen, hsteps d⟩

end Sys2Proof.Machine
end

section
/-!
The crook's mailbox and boot: commands of the mailbox, the Crypto Officer's among them, and firmware images (R433 to R440, R460 to
R471). A command is first reduced to what it does where the mailbox takes it up; what is left is the model's own operation under
the conditions of the clause.
-/
namespace Sys2Proof.Machine

/-! ## The mailbox (R438, R471) -/

section command
variable {d : Device} {fn op : Nat} (hfn : fn < 9) (hidle : (d.fn fn).mbBusy = false ∨ (d.fn fn).mbReq = op)
include hfn hidle

/-- A mailbox that is idle, or busy with this very command, takes it up. -/
theorem Device.mailbox_idle : ¬(9 ≤ fn ∨ ((d.fn fn).mbBusy = true ∧ (d.fn fn).mbReq ≠ op)) := by
  rintro (hge | ⟨hbusy, hother⟩)
  · omega
  · rcases hidle with hfree | hsame
    · rw [hfree] at hbusy; cases hbusy
    · exact hother hsame

theorem Device.command_permitted (hpermits : d.permits fn op = true) (g : Device → Device) : d.command fn op g = g d := by
  rw [Device.command, if_neg (Device.mailbox_idle hfn hidle), hpermits]
  rfl

theorem Device.command_refused (hrefused : d.permits fn op = false) (g : Device → Device) :
    d.command fn op g = d.answerStatus fn 3 := by
  rw [Device.command, if_neg (Device.mailbox_idle hfn hidle), hrefused]
  rfl

end command

section officer
variable {d : Device} {fn op : Nat} (howner : d.sec.fuses.owner = true)
include howner

/-- A Crypto Officer command with a good signature is carried out, the nonce void (R471). -/
theorem Device.byOfficer_signed (hsigned : d.officer fn op = true) (g : Device → Device) :
    d.byOfficer fn op g = g { d with sec := { d.sec with nonce := none } } := by
  rw [Device.byOfficer, howner, hsigned]
  rfl

/-- Without one it voids the nonce all the same, and ends with status 2 (R471). -/
theorem Device.byOfficer_unsigned (hunsigned : d.officer fn op = false) (g : Device → Device) :
    d.byOfficer fn op g = ({ d with sec := { d.sec with nonce := none } } : Device).answerStatus fn 2 := by
  rw [Device.byOfficer, howner, hunsigned]
  rfl

end officer

/-! ## OWNER_ENROL (R467) -/

section enrol
variable {d : Device} {fn : Nat} (hfn : fn < 9) (hidle : (d.fn fn).mbBusy = false ∨ (d.fn fn).mbReq = 0x10)
include hfn hidle

theorem Device.doOwnerEnrol_enrols (hpermits : d.permits fn 0x10 = true) (hnone : d.sec.fuses.owner = false) :
    d.doOwnerEnrol fn = ({ d with sec := { d.sec with fuses := { d.sec.fuses with
      owner := true, ownerHash := sha512 (d.request fn 0 133) } } } : Device).answerStatus fn 0 := by
  rw [Device.doOwnerEnrol, Device.command_permitted hfn hidle hpermits, hnone]
  rfl

/-- With an owner enrolled the command ends with NOT_PERMITTED, whether or not the mailbox permits it. -/
theorem Device.doOwnerEnrol_again (howner : d.sec.fuses.owner = true) : d.doOwnerEnrol fn = d.answerStatus fn 3 := by
  cases hpermits : d.permits fn 0x10 with
  | false => exact Device.command_refused hfn hidle hpermits _
  | true =>
    rw [Device.doOwnerEnrol, Device.command_permitted hfn hidle hpermits, howner]
    rfl

end enrol

/-- Settles O52: the command by whether an owner is enrolled, then any step by the fuses that it keeps. -/
theorem ownerEnrolSucceedsOnce : Obligations.OwnerEnrolSucceedsOnce := by
  unfold Obligations.OwnerEnrolSucceedsOnce
  refine ⟨fun s fn hfn hidle => ⟨fun hpermits hnone => ?enrols, fun howner => ?again⟩, fun s t howner hstep => ?kept⟩
  case enrols => rw [exec_ownerEnrol, Device.doOwnerEnrol_enrols hfn hidle hpermits hnone]
  case again => rw [exec_ownerEnrol, Device.doOwnerEnrol_again hfn hidle howner]
  case kept =>
    obtain ⟨-, -, ⟨-, -, hkeeps, -⟩, -⟩ := step_evolves hstep
    exact hkeeps howner

/-! ## BOOT (R433 to R437, R464, R466) -/

/-- The boot ROM's measurement of itself (R439). -/
def Device.measuredRom (d : Device) : Device := d.extendBy 0 ((List.range 64).map Config.romDigest)

section boot
variable {d : Device} (hpowered : d.bring.stage ≠ 0) (hcold : d.sec.state = 0) (hnone : d.sec.image = none)
include hpowered hcold hnone

/-- A module without an image boots. -/
theorem Device.boot_due : ¬(d.bring.stage = 0 ∨ d.sec.state ≠ 0 ∨ d.sec.image.isSome = true) := by
  rw [hnone, hcold]
  simpa using hpowered

theorem Device.doBoot_decommissioned (hgone : d.sec.fuses.decommissioned = true) :
    d.doBoot = { d.measuredRom with sec := { d.measuredRom.sec with state := 4 } } := by
  rw [Device.doBoot, if_neg (Device.boot_due hpowered hcold hnone)]
  exact if_pos hgone

variable (hlives : d.sec.fuses.decommissioned = false)
include hlives

theorem Device.doBoot_tampered (htampered : d.tampered = true) : d.doBoot = d.measuredRom.toRecovery 9 := by
  rw [Device.doBoot, if_neg (Device.boot_due hpowered hcold hnone)]
  exact (if_neg (Bool.eq_false_iff.mp hlives)).trans (if_pos htampered)

/-- With TAMPER_N not asserted, what SPI NOR holds decides. -/
theorem Device.doBoot_safe (hsafe : d.tampered = false) : d.doBoot =
    match d.sec.nor with
    | none => d.measuredRom.toRecovery 1
    | some i =>
      match d.sec.imageReason i with
      | some r => d.measuredRom.toRecovery r
      | none => d.measuredRom.runImage i false := by
  rw [Device.doBoot, if_neg (Device.boot_due hpowered hcold hnone)]
  exact (if_neg (Bool.eq_false_iff.mp hlives)).trans (if_neg (Bool.eq_false_iff.mp hsafe))

end boot

/-! ## Firmware images over the mailbox (R436, R438, R464, R469) -/

/-- Settles O49: BOOT by what it finds first, then the images by their checks. -/
theorem bootAndMailboxImages : Obligations.BootAndMailboxImages := by
  unfold Obligations.BootAndMailboxImages
  refine ⟨?boot, ?image⟩
  case boot =>
    intro s hpowered hcold hnone d
    refine ⟨fun hgone => ?decommissioned, fun hlives htampered => ?tampered, fun hlives hsafe hnor => ?empty,
      fun i r hlives hsafe hnor hreason => ?fails, fun i hlives hsafe hnor hgood => ?runs⟩
    case decommissioned => rw [exec_boot, Device.doBoot_decommissioned hpowered hcold hnone hgone]; rfl
    case tampered => rw [exec_boot, Device.doBoot_tampered hpowered hcold hnone hlives htampered]; rfl
    case empty => rw [exec_boot, Device.doBoot_safe hpowered hcold hnone hlives hsafe, hnor]; rfl
    case fails => rw [exec_boot, Device.doBoot_safe hpowered hcold hnone hlives hsafe, hnor]; simp only [hreason]; rfl
    case runs => rw [exec_boot, Device.doBoot_safe hpowered hcold hnone hlives hsafe, hnor]; simp only [hgood]; rfl
  case image =>
    intro s fn i hfn idle d
    refine ⟨fun hidle hpermits hgood => ?update, fun r hidle hpermits hreason => ?updateFails,
      fun hidle hpermits hsafe hgood => ?load, fun hidle hpermits htampered => ?loadTampered,
      fun hidle hpermits hram hgood => ?write⟩
    case update =>
      rw [exec_fwUpdate, Device.doFwUpdate, Device.command_permitted hfn hidle hpermits]
      simp only [d, hgood]
    case updateFails =>
      rw [exec_fwUpdate, Device.doFwUpdate, Device.command_permitted hfn hidle hpermits]
      simp only [d, hreason]
    case load =>
      rw [exec_recoveryLoad, Device.doRecoveryLoad, Device.command_permitted hfn hidle hpermits, hsafe]
      simp only [d, hgood]
      rfl
    case loadTampered =>
      rw [exec_recoveryLoad, Device.doRecoveryLoad, Device.command_permitted hfn hidle hpermits, htampered]
      rfl
    case write =>
      rw [exec_recoveryWrite, Device.doRecoveryWrite, Device.command_permitted hfn hidle hpermits]
      simp only [d, hram, hgood]

/-! ## Mailbox and Crypto Officer commands (R439, R440, R460, R462, R466, R468, R471) -/

/-- Settles O51: the commands that are permitted and those that are not, then the Crypto Officer's by their signature. -/
theorem mailboxAndOfficerCommands : Obligations.MailboxAndOfficerCommands := by
  unfold Obligations.MailboxAndOfficerCommands
  refine ⟨?mailbox, ?officer⟩
  case mailbox =>
    intro s fn hfn idle d
    refine ⟨fun hidle hpermits => ?cert, fun hidle hpermits => ?attest, fun hidle hpermits => ?extend,
      fun hidle hpermits hdrbg => ?nonce, fun hidle hpermits => ?zeroise, fun hidle hrefused => ?certRefused,
      fun hidle hrefused => ?nonceRefused⟩
    case cert => rw [exec_getCert, Device.doGetCert, Device.command_permitted hfn hidle hpermits]
    case attest => rw [exec_attest, Device.doAttest, Device.command_permitted hfn hidle hpermits]
    case extend => rw [exec_extend, Device.doExtend, Device.command_permitted hfn hidle hpermits]
    case nonce => rw [exec_getNonce, Device.doGetNonce, Device.command_permitted hfn hidle hpermits, hdrbg]; rfl
    case zeroise => rw [exec_zeroise, Device.doZeroise, Device.command_permitted hfn hidle hpermits]
    case certRefused => rw [exec_getCert, Device.doGetCert, Device.command_refused hfn hidle hrefused]
    case nonceRefused => rw [exec_getNonce, Device.doGetNonce, Device.command_refused hfn hidle hrefused]
  case officer =>
    intro s fn hfn howner idle d
    refine ⟨fun hidle hpermits hearly hsigned hnot => ?approved, fun hidle hpermits hearly hunsigned => ?approvedUnsigned,
      fun hidle hpermits hsigned => ?decommission, fun hidle hpermits hunsigned => ?decommissionUnsigned⟩
    case approved =>
      rw [exec_setApproved, Device.doSetApproved, Device.command_permitted hfn hidle hpermits, hearly,
        Device.byOfficer_signed howner hsigned, hnot]
      rfl
    case approvedUnsigned =>
      rw [exec_setApproved, Device.doSetApproved, Device.command_permitted hfn hidle hpermits, hearly,
        Device.byOfficer_unsigned howner hunsigned]
      rfl
    case decommission =>
      rw [exec_decommission, Device.doDecommission, Device.command_permitted hfn hidle hpermits,
        Device.byOfficer_signed howner hsigned]
    case decommissionUnsigned =>
      rw [exec_decommission, Device.doDecommission, Device.command_permitted hfn hidle hpermits,
        Device.byOfficer_unsigned howner hunsigned]

end Sys2Proof.Machine
end

section
/-!
The crook beside its mailbox: SPDM, self-tests, the DRBG, tamper and the TAP (R441 to R445, R457 to R463, R518).
-/
namespace Sys2Proof.Machine

/-! ## SPDM (R441, R459) -/

section spdm
variable {d : Device} {need : Nat}

/-- A request is answered where SPDM is served and the connection has come far enough for it. -/
theorem Device.spdm_served (hserves : d.spdmServes = true) (hfar : need ≤ d.sec.spdmUp) (g : Device → Device) :
    d.spdm need g = g d := if_pos ⟨hserves, hfar⟩

/-- A request out of order is refused. -/
theorem Device.spdm_early (hearly : d.sec.spdmUp < need) (g : Device → Device) : d.spdm need g = d.emit (.nack .spdm) :=
  if_neg fun h => absurd h.2 (Nat.not_le.mpr hearly)

end spdm

/-- Whether the certificate of a FINISH makes a User session: the enrolled owner's key has signed it (table Roles). -/
def Device.userCert (d : Device) (cert : Option (List Byte × List Byte)) : Bool :=
  d.sec.fuses.owner && match cert with
    | some (c, sig) => Config.verify 10 d.sec.fuses.ownerHash c sig
    | none => false

/-- A User session that is ready may key the streams of any function. -/
theorem Device.ideKm_allowed {d : Device} {id fn : Nat} (hfn : fn < 9)
    (huser : (d.sec.sessions.any fun x => x.id = id && x.ready && x.user) = true) :
    ¬((!(d.sec.sessions.any fun x => x.id = id && x.ready && x.user)) = true ∨ 9 ≤ fn) := by
  rw [huser]
  simpa using hfn

section session
variable {d : Device} (hserves : d.spdmServes = true) (hup : 3 ≤ d.sec.spdmUp)
include hserves hup

section finish
variable {id : Nat} {x : Session} (hfound : d.sec.sessions.find? (fun x => x.id = id ∧ !x.ready) = some x)
include hfound

/-- The session is ready once its handshake is finished. -/
theorem Device.doFinish_readies (cert : Option (List Byte × List Byte)) :
    d.doFinish id cert true = ({ d with sec := { d.sec with
      sessions := (d.sec.sessions.filter fun x => x.id ≠ id) ++
        [(⟨id, true, d.userCert cert⟩ : Session)] } } : Device).sayFree 4 64 := by
  rw [Device.doFinish, Device.spdm_served hserves hup]
  simp only [hfound]
  rfl

/-- A wrong MAC ends the handshake, and with it the session. -/
theorem Device.doFinish_wrongMac (cert : Option (List Byte × List Byte)) :
    d.doFinish id cert false = ({ d with sec := { d.sec with
      sessions := d.sec.sessions.filter fun x => x.id ≠ id } } : Device).emit (.nack .spdm) := by
  rw [Device.doFinish, Device.spdm_served hserves hup]
  simp only [hfound]
  rfl

end finish

section user
variable {id fn : Nat} (hfn : fn < 9) (huser : (d.sec.sessions.any fun x => x.id = id && x.ready && x.user) = true)
include hfn huser

/-- In a ready User session the function's selective stream is keyed, and the members hear of PF0's. -/
theorem Device.doIdeKm_selective : d.doIdeKm id fn true =
    let e := d.onFn fn fun r => { r with ide := true }
    (if fn = 0 ∧ e.flock.isBell then e.tellMembers fun _ => some (.ide true) else e).sayFree 6 4 := by
  rw [Device.doIdeKm, Device.spdm_served hserves hup, if_neg (Device.ideKm_allowed hfn huser)]
  simp only [if_true, true_and]

/-- Or the link stream. -/
theorem Device.doIdeKm_link : d.doIdeKm id fn false =
    ({ d with sec := { d.sec with linkIde := true } } : Device).sayFree 6 4 := by
  rw [Device.doIdeKm, Device.spdm_served hserves hup, if_neg (Device.ideKm_allowed hfn huser)]
  simp only [Bool.false_eq_true, false_and, if_false]

end user

/-- In any other session it is refused. -/
theorem Device.doIdeKm_refused {id : Nat} (hother : (d.sec.sessions.any fun x => x.id = id && x.ready && x.user) = false)
    (fn : Nat) (selective : Bool) : d.doIdeKm id fn selective = d.emit (.nack .spdm) := by
  rw [Device.doIdeKm, Device.spdm_served hserves hup, if_pos (.inl (by rw [hother]; rfl))]

end session

/-- Settles O53: the requests that open the connection, then those that need it open, then sessions and IDE_KM. -/
theorem spdmRequestsComplete : Obligations.SpdmRequestsComplete := by
  unfold Obligations.SpdmRequestsComplete
  intro s hserves d
  refine ⟨?version, fun hup => ?capabilities, fun hearly => ?capabilitiesEarly, fun hup => ?algorithms, fun hup =>
    ⟨?digests, fun off len => ?certificate, fun nonce => ?challenge, fun i hi => ?measurement, ?measurements,
      fun q hdrbg => ?exchange, fun id x cert hfound => ⟨?ready, ?wrongMac⟩, fun id hany => ?endSession,
      fun id fn hfn huser => ⟨?selective, ?link⟩, fun id fn hother => ?ideRefused⟩⟩
  case version => rw [exec_getVersion, Device.doGetVersion, Device.spdm_served hserves (Nat.zero_le _)]
  case capabilities => rw [exec_getCapabilities, Device.doGetCapabilities, Device.spdm_served hserves hup]
  case capabilitiesEarly => rw [exec_getCapabilities, Device.doGetCapabilities, Device.spdm_early hearly]
  case algorithms => rw [exec_negotiateAlgorithms, Device.doNegotiate, Device.spdm_served hserves hup]
  case digests => rw [exec_getDigests, Device.doGetDigests, Device.spdm_served hserves hup]
  case certificate => rw [exec_getCertificate, Device.doGetCertificate, Device.spdm_served hserves hup]
  case challenge => rw [exec_challenge, Device.doChallenge, Device.spdm_served hserves hup]
  case measurement => rw [exec_getMeasurements, Device.doGetMeasurements, Device.spdm_served hserves hup, if_pos hi]
  case measurements => rw [exec_getMeasurements, Device.doGetMeasurements, Device.spdm_served hserves hup, if_neg (by decide)]
  case exchange => rw [exec_keyExchange, Device.doKeyExchange, Device.spdm_served hserves hup, hdrbg]; rfl
  case ready => rw [exec_finish, Device.doFinish_readies hserves hup hfound]; rfl
  case wrongMac => rw [exec_finish, Device.doFinish_wrongMac hserves hup hfound]
  case endSession => rw [exec_endSession, Device.doEndSession, Device.spdm_served hserves hup, if_pos hany]
  case selective => rw [exec_ideKm, Device.doIdeKm_selective hserves hup hfn huser]
  case link => rw [exec_ideKm, Device.doIdeKm_link hserves hup hfn huser]
  case ideRefused => rw [exec_ideKm, Device.doIdeKm_refused hserves hup hother]

/-! ## Self-tests and tamper (R443, R463) -/

theorem Device.doSelfTests_pass {d : Device} (hstage : 3 ≤ d.bring.stage) (hsram : d.bring.sram = true)
    (hcold : d.sec.state = 0) : d.doSelfTests none =
      { d with sec := { d.sec with state := 1, drbg := true, kek := true }, bring := { d.bring with kat := true } } := by
  have hdue : ¬(d.bring.stage < 3 ∨ (!d.bring.sram) = true ∨ d.sec.state ≠ 0) := by
    rw [hsram, hcold]
    simpa using hstage
  exact if_neg hdue


theorem Device.tampered_of_low {d : Device} {n : Nat} (hlow : d.sec.tamperLow = some n) :
    d.tampered = decide (200 ≤ n) := by rw [Device.tampered, hlow]

/-- The first time that TAMPER_N counts as asserted, the response comes. -/
theorem Device.doTamper_first {d : Device} (htampered : d.tampered = true) (hfirst : d.sec.tamperDone = false) :
    d.doTamper =
      let e := (d.event .tamper []).zeroPersistent
      { e with
        fns := e.fns.map fun (r : FnRegs) => { r with mbBusy := false }
        sec := { e.sec with
          tamperDone := true, fuses := { e.sec.fuses with tamperCount := min 32 (e.sec.fuses.tamperCount + 1) } } } := by
  rw [Device.doTamper, htampered, hfirst]
  rfl

/-- Before that nothing happens. -/
theorem Device.doTamper_early {d : Device} (hsafe : d.tampered = false) : d.doTamper = d := by
  rw [Device.doTamper, hsafe]
  rfl

/-! ## The TAP (R457, R458, R518) -/

/-- Outside die state an instruction does no more than to take the place of the one before. -/
theorem Device.setTap_outsideDie {d : Device} (htap : d.tap ≠ .die) (t : TapInstr) : d.setTap t = { d with tap := t } := by
  rw [Device.setTap, decide_eq_false htap]
  rfl

section tap
variable {d : Device} (hstage : 1 ≤ d.bring.stage)
include hstage

theorem Device.tapAct_powered (g : Device → Device) : d.tapAct g = g d := if_pos hstage

variable (htap : d.tap ≠ .die)
include htap

/-- Where R457 binds the TAP, an IEEE 1149.6 instruction acts as BYPASS. -/
theorem Device.laneTest_bound (hbound : d.tapBound = true) (t : TapInstr) : d.laneTest t = { d with tap := .bypass } := by
  rw [Device.laneTest, Device.tapAct_powered hstage, if_pos hbound, Device.setTap_outsideDie htap]

/-- Where it does not, the cells drive the J2 lanes, which are there from S2 on. -/
theorem Device.laneTest_free (hfree : d.tapBound = false) (hlanes : 2 ≤ d.bring.stage) (t : TapInstr) :
    d.laneTest t = ({ d with tap := t } : Device).emit (.cells d.cells) := by
  rw [Device.laneTest, Device.tapAct_powered hstage, if_neg (Bool.eq_false_iff.mp hfree), if_pos hlanes,
    Device.setTap_outsideDie htap]

end tap

/-- Settles O54: self-tests and reseeding by their result, tamper by its ticks, the TAP by what binds it. -/
theorem selfTestsTamperAndTap : Obligations.SelfTestsTamperAndTap := by
  unfold Obligations.SelfTestsTamperAndTap
  refine ⟨?tests, ?tamper, ?tap⟩
  case tests =>
    refine fun s => ⟨fun hstage hsram hcold => ?pass, fun t hfirst => ?fail, fun hkat hservice => ?reseed⟩
    case pass => rw [exec_selfTests, Device.doSelfTests_pass hstage hsram hcold]
    case fail => rw [exec_selfTests, Device.doSelfTests, if_neg hfirst]
    case reseed => rw [exec_drbgReseed, Device.doReseed, if_pos ⟨hkat, hservice⟩]
  case tamper =>
    refine fun s => ⟨fun hhigh => ?fall, rfl, fun n hlow hdue hfirst => ?response, fun n hlow hearly => ?early⟩
    case fall => rw [exec_tamperNFall, Device.doTamperFall, hhigh]; rfl
    case response =>
      rw [exec_tamperResponse, Device.doTamper_first ((Device.tampered_of_low hlow).trans (decide_eq_true hdue)) hfirst]
    case early =>
      rw [exec_tamperResponse,
        Device.doTamper_early ((Device.tampered_of_low hlow).trans (decide_eq_false (Nat.not_le.mpr hearly)))]
  case tap =>
    intro s hstage htap d tapAs
    refine ⟨?bypass, ?idcode, fun cells => ?sample, ?extest, fun hbound => ⟨?pulseBound, ?trainBound, ?dieBound⟩,
      fun hfree hlanes => ⟨?pulse, ?train, ?die⟩⟩
    case bypass => rw [exec_bypass, Device.doBypass, Device.tapAct_powered hstage, Device.setTap_outsideDie htap]
    case idcode => rw [exec_idcode, Device.doIdcode, Device.tapAct_powered hstage, Device.setTap_outsideDie htap]
    case sample => rw [exec_samplePreload, Device.doSample, Device.tapAct_powered hstage, Device.setTap_outsideDie htap]
    case extest => rw [exec_extest, Device.doExtest, Device.tapAct_powered hstage, Device.setTap_outsideDie htap]
    case pulseBound => rw [exec_extestPulse, Device.doPulse, Device.laneTest_bound hstage htap hbound]
    case trainBound => rw [exec_extestTrain, Device.doTrain, Device.laneTest_bound hstage htap hbound]
    case dieBound =>
      rw [exec_tapDieStateInstruction, Device.doDieState, Device.tapAct_powered hstage, if_pos hbound,
        Device.setTap_outsideDie htap]
    case pulse => rw [exec_extestPulse, Device.doPulse, Device.laneTest_free hstage htap hfree hlanes]
    case train => rw [exec_extestTrain, Device.doTrain, Device.laneTest_free hstage htap hfree hlanes]
    case die =>
      rw [exec_tapDieStateInstruction, Device.doDieState, Device.tapAct_powered hstage, if_neg (Bool.eq_false_iff.mp hfree)]

end Sys2Proof.Machine
end

section
/-!
Power, bring-up and the management buses (R472 to R484, R500, R515, R516).
-/
namespace Sys2Proof.Machine

/-! ## Core power (R472 to R478) -/

theorem Device.doPowerUp_rises {d : Device} (hstage : d.bring.stage = 1) (himage : d.sec.image.isSome = true)
    (hinput : d.pins.inputOk = true) (hon : d.power.operation = true) (htrip : d.pins.thermtrip = false) :
    d.doPowerUp = { d with
      pins := { d.pins with pwrEn := true }
      power := { d.power with converters := true, rails := true, vcoreA := 750, vcoreB := 750 } } :=
  if_pos ⟨hstage, .inl himage, hinput, hon, by rw [htrip]; rfl⟩

theorem Device.dropRails_up {d : Device} (hrails : d.power.rails = true) (cause : Nat) : d.dropRails cause = d.coreLost cause :=
  if_pos hrails

theorem Device.dropRails_down {d : Device} (hrails : d.power.rails = false) (cause : Nat) : d.dropRails cause = d :=
  if_neg (Bool.eq_false_iff.mp hrails)

/-- PG with REFCLK running starts S2: every heft at 425 MHz and its crossings aligned, the pens' fixed there. -/
theorem Device.doPg_locked {d : Device} (hstage : d.bring.stage = 1) (hrails : d.power.rails = true)
    (himage : d.sec.image.isSome = true) (hserves : d.recovering = false) (href : d.ref.state = 0) :
    d.doPg = ({ d with
      pins := { d.pins with pg := true }
      bring := { d.bring with stage := 2, portUp := d.pins.perst }
      watch := { Watch.reset with age := d.watch.age, core := d.watch.age }
      hefts := d.hefts.zipIdx.map fun (x : Heft × Nat) => { x.1 with
        step := 3, fixed := x.2 < 42, slewing := false, hotAt := none, coolAt := none, holdover := false
        aligned := (List.range 49).filter (crosses x.2) } } : Device).applyMaps.readRecord := by
  have hstarts : ¬(d.bring.stage ≠ 1 ∨ (!d.power.rails) = true ∨ (!(d.sec.image.isSome || d.recovering)) = true) := by
    rw [hstage, hrails, himage]
    simp
  have hlocked : ¬(d.ref.state = 1 ∨ d.ref.state = 3) := by omega
  rw [Device.doPg, if_neg hstarts]
  simp only [hlocked, decide_false, if_false]
  exact if_neg (Bool.eq_false_iff.mp hserves)

section vcore
variable {d : Device} {mv : Nat}

/-- Half A's set point rises at once. -/
theorem Device.doVcore_raises (hlo : 620 ≤ mv) (hhi : mv ≤ 820) (hrails : d.power.rails = true)
    (hup : d.power.vcoreA ≤ mv) : d.doVcore 0 mv = { d with power := { d.power with vcoreA := mv } } := by
  simp only [Device.doVcore, hrails, if_true, Bool.not_true, Bool.false_eq_true, false_or]
  exact if_neg (by omega)

/-- Half B's falls where its hefts are steady and need no more. -/
theorem Device.doVcore_lowers (hlo : 620 ≤ mv) (hhi : mv ≤ 820) (hrails : d.power.rails = true) (hneed : d.vcoreNeed 1 ≤ mv)
    (hsteady : ∀ h, 21 ≤ h → h < 42 → (d.heft h).slewing = false) :
    d.doVcore 1 mv = { d with power := { d.power with vcoreB := mv } } := by
  have hnone : (((List.range 21).map (· + 21)).any fun h => (d.heft h).slewing) = false := by
    rw [List.any_eq_false]
    intro h hh
    obtain ⟨i, hi, rfl⟩ := List.mem_map.mp hh
    have := List.mem_range.mp hi
    simp [hsteady (i + 21) (by omega) (by omega)]
  simp only [Device.doVcore, hrails, hnone, Nat.one_ne_zero, if_false, Bool.not_true, Bool.false_eq_true, false_or]
  exact if_neg (by omega)

/-- A fall waits for the half's hefts to stop slewing, and goes no lower than they need. -/
theorem Device.doVcore_stays (hdown : mv < d.power.vcoreA)
    (hneeds : (∃ h, h < 21 ∧ (d.heft h).slewing = true) ∨ mv < d.vcoreNeed 0) : d.doVcore 0 mv = d := by
  have hholds : (((List.range 21).any fun h => (d.heft h).slewing) = true) ∨ mv < d.vcoreNeed 0 :=
    hneeds.imp_left fun ⟨h, hh, hslews⟩ => List.any_eq_true.mpr ⟨h, List.mem_range.mpr hh, hslews⟩
  exact if_pos (.inr (.inr (.inr (.inr ⟨hdown, hholds⟩))))

end vcore

/-! ## Site and memory tests (R479 to R484) -/

/-- A change of the lowest untested site leaves the others untested. -/
theorem Device.untested_ne_nil {d e : Device} {n : Nat} {rest : List Nat} {g : Site → Site} (huntested : d.untested = n :: rest)
    (hrest : rest ≠ []) (hsites : e.sites = d.sites.modify n g) : e.untested ≠ [] := by
  obtain ⟨m, tl, rfl⟩ := List.exists_cons_of_ne_nil hrest
  have hnodup : d.untested.Nodup := List.nodup_range.filter _
  have hmem : m ∈ d.untested := by rw [huntested]; simp
  have hne : m ≠ n := by
    rintro rfl
    rw [huntested] at hnodup
    simp at hnodup
  obtain ⟨hrange, hstate⟩ := List.mem_filter.mp hmem
  have hsite : e.site m = d.site m := by
    rw [Device.site, hsites, getD_modify, if_neg (fun h => hne h.1)]
    rfl
  exact List.ne_nil_of_mem (List.mem_filter.mpr ⟨hrange, by rw [hsite]; exact hstate⟩)

section sram
variable {d : Device} {n : Nat} {rest : List Nat} (hstage : d.bring.stage = 2) (hcold : d.sec.state = 0)
  (huntested : d.untested = n :: rest)
include hstage hcold huntested

/-- The lowest untested site is tested in S2 while the crook has no fault. -/
theorem Device.sramTest_due : ¬((d.bring.stage ≠ 2 ∧ d.bring.stage ≠ 3) ∨ d.sec.state ≠ 0 ∨ d.untested.head? ≠ some n) := by
  rw [hstage, hcold, huntested]
  simp

variable (hrest : rest ≠ [])
include hrest

/-- A site that passes becomes a spare; S3 waits while others are untested and fewer than eight have passed. -/
theorem Device.doSramTest_passes (hfew : d.bring.passed.length < 7) : d.doSramTest n true =
    ({ d with bring := { d.bring with tested := d.bring.tested ++ [n], passed := d.bring.passed ++ [n] } } : Device).onSite n
      fun t => { t.cleared with state := 1 } := by
  have hmore : (({ d with bring := { d.bring with
      tested := d.bring.tested ++ [n], passed := d.bring.passed ++ [n] } } : Device).onSite n
        fun t => { t.cleared with state := 1 }).untested ≠ [] := Device.untested_ne_nil huntested hrest rfl
  rw [Device.doSramTest, if_neg (Device.sramTest_due hstage hcold huntested)]
  simp only [if_true, hmore, decide_false, Bool.false_eq_true, false_and, if_false, or_false]
  have hlength : (d.bring.passed ++ [n]).length = d.bring.passed.length + 1 := List.length_append
  exact if_neg fun h => absurd (hlength ▸ h.2) (by omega)

/-- A site that fails is recorded as retired. -/
theorem Device.doSramTest_fails (hfew : d.bring.passed.length < 8) : d.doSramTest n false =
    ({ ({ d with bring := { d.bring with tested := d.bring.tested ++ [n] } } : Device).onSite n fun t => { t with state := 2 } with
      persist := { d.persist with retired := nins d.persist.retired n } } : Device).event .penRetired [n, 63] := by
  have hmore : (({ ({ d with bring := { d.bring with tested := d.bring.tested ++ [n] } } : Device).onSite n
      fun t => { t with state := 2 } with
        persist := { d.persist with retired := nins d.persist.retired n } } : Device).event .penRetired [n, 63]).untested ≠ [] :=
    Device.untested_ne_nil huntested hrest rfl
  rw [Device.doSramTest, if_neg (Device.sramTest_due hstage hcold huntested)]
  simp only [Bool.false_eq_true, if_false]
  simp only [hmore, decide_false, Bool.false_eq_true, false_and, if_false, or_false]
  exact if_neg fun h => Nat.not_le.mpr hfew h.2

end sram

section training
variable {d : Device} (hstage : d.bring.stage = 3) (htrains : d.mem.state = 1) (hfaultless : d.sec.state ≠ 2)
include hstage htrains hfaultless

theorem Device.memTraining_due : ¬(d.bring.stage ≠ 3 ∨ d.mem.state ≠ 1 ∨ d.sec.state = 2) := by simp [hstage, htrains, hfaultless]

/-- Memory trains at the fast rate where no channel fails and the slow one is not asked for. -/
theorem Device.doMemTraining_fast (hfree : d.mem.forceLow = false) (slow : Option Nat) : d.doMemTraining none slow =
    { d with mem := { d.mem with state := 2, low := false }, bring := { d.bring with memory := true } } := by
  rw [Device.doMemTraining, if_neg (Device.memTraining_due hstage htrains hfaultless), hfree]
  rfl

/-- At the slow rate where one does. -/
theorem Device.doMemTraining_slow (c : Nat) : d.doMemTraining (some c) none =
    { d with mem := { d.mem with state := 2, low := true }, bring := { d.bring with memory := true } } := by
  rw [Device.doMemTraining, if_neg (Device.memTraining_due hstage htrains hfaultless)]
  simp only [Option.isSome_some, Bool.or_true, if_true]

/-- A channel that fails at both rates ends bring-up. -/
theorem Device.doMemTraining_fails (c : Nat) {c' : Nat} (hc' : c' < 32) : d.doMemTraining (some c) (some c') =
    { d with mem := { d.mem with state := 3, low := true, badCh := c' }, bring := { d.bring with fail := 1 } } := by
  rw [Device.doMemTraining, if_neg (Device.memTraining_due hstage htrains hfaultless)]
  simp only [Option.isSome_some, Bool.or_true, if_true, Nat.mod_eq_of_lt hc']

end training

/-- Settles O56: core power by its causes, VCORE and PERST_N, then the tests of sites and memory. -/
theorem corePowerAndBringUp : Obligations.CorePowerAndBringUp := by
  unfold Obligations.CorePowerAndBringUp
  refine ⟨?power, ?bringUp⟩
  case power =>
    intro s d
    refine ⟨fun hstage himage hinput hon htrip => ?up, fun hstage hrails himage hserves href => ?pg, fun hrails => ?down,
      fun mv hmv hrails => ?below, fun mv hmv hrails => ?above, fun mv hlo hhi => ?back, fun mv hlo hhi hrails hup => ?raises,
      fun mv hlo hhi hrails hdown hneed hsteady => ?lowers, fun mv h hdown hh hslews => ?slews, fun mv hdown hneed => ?needs,
      fun hstage => ?perst⟩
    case up => rw [exec_powerUp, Device.doPowerUp_rises hstage himage hinput hon htrip]
    case pg => rw [exec_pgAsserted, Device.doPg_locked hstage hrails himage hserves href]
    case down => rw [exec_powerDown]; exact next_congr (Device.dropRails_up (by exact hrails) 4)
    case below =>
      rw [exec_inputVoltageFault, Device.doInputFault, if_pos hmv]
      exact next_congr (Device.dropRails_up (by exact hrails) 4)
    case above =>
      rw [exec_inputVoltageFault, Device.doInputFault, if_neg (by omega), if_pos hmv]
      exact next_congr (Device.dropRails_down (by exact hrails) 4)
    case back =>
      rw [exec_inputVoltageFault, Device.doInputFault, if_neg (by omega), if_neg (by omega), if_pos ⟨hlo, hhi⟩]
    case raises => rw [exec_vcoreChange, Device.doVcore_raises hlo hhi hrails hup]
    case lowers => rw [exec_vcoreChange, Device.doVcore_lowers hlo hhi hrails hneed hsteady]
    case slews => rw [exec_vcoreChange, Device.doVcore_stays hdown (.inl ⟨h, hh, hslews⟩)]
    case needs => rw [exec_vcoreChange, Device.doVcore_stays hdown (.inr hneed)]
    case perst => rw [exec_perstNRise, Device.doPerst]; exact next_congr (if_pos hstage)
  case bringUp =>
    intro s
    refine ⟨fun n rest hstage hcold huntested hrest hfew _ => ?passes, fun n rest hstage hcold huntested hrest hfew _ => ?fails,
      fun slow hstage htrains hfaultless hfree => ?fast, fun c hstage htrains hfaultless => ?slow,
      fun c c' hc' hstage htrains hfaultless => ?ends⟩
    case passes => rw [exec_siteSramTest, Device.doSramTest_passes hstage hcold huntested hrest hfew]
    case fails => rw [exec_siteSramTest, Device.doSramTest_fails hstage hcold huntested hrest hfew]
    case fast => rw [exec_memoryTraining, Device.doMemTraining_fast hstage htrains hfaultless hfree]
    case slow => rw [exec_memoryTraining, Device.doMemTraining_slow hstage htrains hfaultless]
    case ends => rw [exec_memoryTraining, Device.doMemTraining_fails hstage htrains hfaultless c hc']

/-! ## PMBus and SMBus (R473, R500, R515, R516) -/

theorem Device.smbus_powered {d : Device} (hpowered : d.bring.stage ≠ 0) (v : Nat) :
    d.smbus v = d.emit (.reply .smbus (leBytes 4 v)) := if_neg hpowered

/-- OPERATION on has its effect while PWR_EN is high alone. -/
theorem Device.doOperation_on (d : Device) : d.doOperation (some 0x80) =
    if d.pins.pwrEn then { d with power := { d.power with operation := true } } else d := rfl

/-- Of the bits that stand, a write of one alone names that one. -/
theorem filter_bit_two_pow {a b : Nat} (hb : b < 5) (hstands : bit a b = true) :
    ((List.range 5).filter fun i => bit (2 ^ b) i && bit a i) = [b] := by
  have hone (i : Nat) : (bit (2 ^ b) i && bit a i) = decide (i = b) := by
    by_cases hi : i = b
    · rw [hi, hstands, bit, Nat.testBit_two_pow_self]
      simp
    · rw [bit, Nat.testBit_two_pow_of_ne (Ne.symm hi), decide_eq_false hi, Bool.false_and]
  have hlist : ∀ b < 5, ((List.range 5).filter fun i => decide (i = b)) = [b] := by decide
  rw [List.filter_congr fun i _ => hone i, hlist b hb]

/-- Settles O58: PMBus command by command, then SMBus. -/
theorem managementBusesComplete : Obligations.ManagementBusesComplete := by
  unfold Obligations.ManagementBusesComplete
  refine ⟨?pmbus, ?smbus⟩
  case pmbus =>
    intro s v d words
    refine ⟨rfl, fun hpwr => ?on, fun hpwr => ?onLow, fun hrails => ?off, fun hon hoff => ?other, rfl, rfl, rfl, rfl, rfl,
      rfl, rfl⟩
    case on => rw [exec_operation, Device.doOperation_on, if_pos hpwr]
    case onLow => rw [exec_operation, Device.doOperation_on, if_neg (Bool.eq_false_iff.mp hpwr)]
    case off => rw [exec_operation]; exact next_congr (Device.dropRails_down (by exact hrails) 4)
    case other => rw [exec_operation, Device.doOperation]; exact next_congr ((if_neg hon).trans (if_neg hoff))
  case smbus =>
    intro s hpowered d words
    refine ⟨?idrev, ?sec, ?stage, ?therm, ?pwr, ?cause, ?alert, fun b hb hstands => ?clear, fun hnone => ?noAlert,
      fun halert => ⟨Config.unnamed d.free % 2, Nat.mod_lt _ (by decide), ?response⟩⟩
    case idrev => rw [exec_smbusIdrev, Device.smbus_powered hpowered]
    case sec => rw [exec_smbusSecStatus, Device.smbus_powered hpowered]
    case stage => rw [exec_smbusStage, Device.smbus_powered hpowered]
    case therm => rw [exec_smbusThermStatus, Device.smbus_powered hpowered]
    case pwr => rw [exec_smbusPwrStatus, Device.smbus_powered hpowered]
    case cause => rw [exec_smbusResetCause, Device.smbus_powered hpowered]
    case alert => rw [exec_smbAlertRead, Device.smbus_powered hpowered]
    case clear => rw [exec_smbAlertClear, Device.doAlertClear, if_neg hpowered, filter_bit_two_pow hb hstands]; rfl
    case noAlert => rw [exec_alertResponseAddress, Device.doAra, if_pos (.inr hnone)]
    case response =>
      rw [exec_alertResponseAddress, Device.doAra, if_neg (fun h => h.elim hpowered halert)]

end Sys2Proof.Machine
end

section
/-!
Apertures and the record of what is refused (R525, R533, R534).
-/
namespace Sys2Proof.Machine

/-! ## The record (R525) -/

/-- What a refusal leaves in the registers of its function. -/
theorem Device.fn_refuse_self {d : Device} {fn : Nat} (hfn : fn < d.fns.length) (status off : Nat) (ap : Bool) :
    (d.refuse fn status off ap).fn fn = { d.fn fn with
      valid := true, status := status, count := min ((d.fn fn).count + 1) (2 ^ 16 - 1), kind := ap, offset := off % 2 ^ 25 } :=
  (d.fn_onFn fn fn _).trans (if_pos ⟨rfl, hfn⟩)

/-! ## The aperture (R533, R534) -/

section aperture
variable {d : Device} {fn y : Nat}

/-- An access that does not begin on a word is misaligned, wherever it lies. -/
theorem Device.apStatus_misaligned (hy : y % 8 ≠ 0) (width : Nat) : d.apStatus fn y width = 0x0C := if_pos (.inl hy)

/-- One of whole words outside the fold is not the function's. -/
theorem Device.apStatus_outside {width : Nat} (hy : y % 8 = 0) (hwidth : width % 8 = 0) (hsome : width ≠ 0)
    (howns : d.owns (apFold fn) (d.apAddr fn y) width = false) : d.apStatus fn y width = 0x0B := by
  have haligned : ¬(y % 8 ≠ 0 ∨ width % 8 ≠ 0 ∨ width = 0) := by omega
  rw [Device.apStatus, if_neg haligned]
  exact if_pos (.inr (.inr (by rw [howns]; rfl)))

section faults
variable {width status : Nat} (hstatus : d.apStatus fn y width = status) (hfaults : status ≠ 0)
include hstatus hfaults

theorem Device.apRead_faults (es : List (Nat × Ecc)) : d.apRead fn y width es = (d.apFault fn status y, zeros width) := by
  subst hstatus
  exact if_pos hfaults

theorem Device.apWrite_faults (value : Nat) : d.apWrite fn y width value = d.apFault fn status y := by
  subst hstatus
  exact if_pos hfaults

end faults

section allowed
variable {width : Nat} (hallowed : d.apStatus fn y width = 0)
include hallowed

theorem Device.apRead_clean {es : List (Nat × Ecc)}
    (hclean : (d.transferRead (apFold fn) (d.apAddr fn y) width es).poisonIn (apFold fn) (d.apAddr fn y) width = []) :
    d.apRead fn y width es =
      let e := d.transferRead (apFold fn) (d.apAddr fn y) width es
      (e, e.readLocal (apFold fn) (d.apAddr fn y) width) := by
  rw [Device.apRead, if_neg (not_not_intro hallowed)]
  exact if_pos hclean

theorem Device.apWrite_stores (hfirst : d.clearingAt (apFold fn) (d.apAddr fn y) = false)
    (hlast : d.clearingAt (apFold fn) (d.apAddr fn y + width - 1) = false) (value : Nat) : d.apWrite fn y width value =
      (d.writeLocal (apFold fn) (d.apAddr fn y) (leBytes width value) []).noteDirty (apFold fn) (d.apAddr fn y) width := by
  rw [Device.apWrite, if_neg (not_not_intro hallowed), hfirst, hlast]
  rfl

end allowed

end aperture

section opened
variable {s : State} {fn : Nat} (hinside : s.dev.outside fn = false) (hopen : s.dev.apOpen fn = true)
include hinside hopen

/-- An aperture read through a function whose aperture answers. -/
theorem exec_apertureRead_open (off width : Nat) (es : List (Nat × Ecc)) : exec (.apertureRead fn off width es) s =
    .next ⟨(s.dev.apRead fn (off % 2 ^ 20) width es).1.emit
      (.reply (.host fn) (s.dev.apRead fn (off % 2 ^ 20) width es).2), s.pending⟩ := by
  rw [exec_apertureRead, Device.fromHost_inside hinside, Device.doApRead, hopen]
  rfl

theorem exec_apertureWrite_open (off width value : Nat) : exec (.apertureWrite fn off width value) s =
    .next ⟨s.dev.apWrite fn (off % 2 ^ 20) width value, s.pending⟩ := by
  rw [exec_apertureWrite, Device.fromHost_inside hinside, Device.doApWrite, if_pos hopen]

end opened

/-- Settles O35: the record of a refusal, then the accesses that are allowed and those that fault. -/
theorem aperturesAndRefusals : Obligations.AperturesAndRefusals := by
  unfold Obligations.AperturesAndRefusals
  refine ⟨fun d fn status off ap hfn => ⟨Device.fn_refuse_self hfn status off ap,
    fun g hg => d.fn_refuse fn g status off ap hg, rfl⟩, ?aperture⟩
  intro s fn off width value es hinside hopen y x f
  refine ⟨fun hallowed => ?read, fun hallowed hfirst hlast => ?write, fun hy => ⟨?readMisaligned, ?writeMisaligned⟩,
    fun hy hwidth hsome _ _ howns => ?writeOutside⟩
  case read =>
    intro d hclean
    rw [exec_apertureRead_open hinside hopen, Device.apRead_clean hallowed hclean]
  case write => rw [exec_apertureWrite_open hinside hopen, Device.apWrite_stores hallowed hfirst hlast]
  case readMisaligned =>
    rw [exec_apertureRead_open hinside hopen, Device.apRead_faults (Device.apStatus_misaligned hy width) (by decide)]
    rfl
  case writeMisaligned =>
    rw [exec_apertureWrite_open hinside hopen, Device.apWrite_faults (Device.apStatus_misaligned hy width) (by decide)]
    rfl
  case writeOutside =>
    rw [exec_apertureWrite_open hinside hopen,
      Device.apWrite_faults (Device.apStatus_outside hy hwidth hsome howns) (by decide)]
    rfl

end Sys2Proof.Machine
end

section
/-!
What the operations on all folds change, and the fold count (R20, R21, R367, R406, R529).
-/
namespace Sys2Proof.Machine

/-! ## A fold over a list that reaches what one element does -/

/-- What one element of a list does, and no other undoes, holds at the end, where each keeps what the element needs. -/
theorem foldl_reaches {α β : Type} {P Q : β → Prop} {g : β → α → β} {l : List α} {a : α} (ha : a ∈ l)
    (hdoes : ∀ b, Q b → P (g b a)) (hkeepsP : ∀ b c, P b → P (g b c)) (hkeepsQ : ∀ b c, Q b → Q (g b c)) {b : β} (hb : Q b) :
    P (l.foldl g b) := by
  obtain ⟨pre, post, rfl⟩ := List.append_of_mem ha
  rw [List.foldl_append, List.foldl_cons]
  exact foldl_keeps P g hkeepsP post _ (hdoes _ (foldl_keeps Q g hkeepsQ pre b hb))

/-! ## What the operations change -/

theorem Device.supply_eq (d : Device) : ∃ po, d.supply = { d with power := po } := by
  unfold Device.supply
  split <;> exact ⟨_, rfl⟩

/-- A clear that begins changes its site, hefts and set points alone (R157, R263, R476). -/
theorem Device.startClear_eq (d : Device) (n : Nat) : ∃ he po, d.startClear n =
    { d.onSite n fun t => { t with clearing := true } with hefts := he, power := po } := by
  obtain ⟨po, h⟩ := ((d.onSite n fun t => { t with clearing := true }).onHeft n
    fun h => { h with clear := true }.follow).supply_eq
  exact ⟨_, po, h⟩

theorem Device.startClears_eq (d : Device) (ns : List Nat) : ∃ si he po, ns.foldl (fun d n => d.startClear n) d =
    { d with sites := si, hefts := he, power := po } := by
  refine foldl_keeps (fun e : Device => ∃ si he po, e = { d with sites := si, hefts := he, power := po }) _ ?_ _ _
    ⟨_, _, _, rfl⟩
  rintro e n ⟨si, he, po, rfl⟩
  obtain ⟨he', po', h⟩ := Device.startClear_eq { d with sites := si, hefts := he, power := po } n
  exact ⟨_, he', po', h⟩

/-- An abandoned drain changes the cote, its lists and the events alone (R376). -/
theorem Device.loseDrain_eq (d : Device) (f : Nat) : ∃ co re ev, d.loseDrain f =
    { d with cote := co, recov := re, events := ev } := by
  unfold Device.loseDrain
  split <;> exact ⟨_, _, _, rfl⟩

theorem Device.loseDrains_eq (d : Device) (fs : List Nat) : ∃ co re ev, fs.foldl (fun d f => d.loseDrain f) d =
    { d with cote := co, recov := re, events := ev } := by
  refine foldl_keeps (fun e : Device => ∃ co re ev, e = { d with cote := co, recov := re, events := ev }) _ ?_ _ _
    ⟨_, _, _, rfl⟩
  rintro e f ⟨co, re, ev, rfl⟩
  obtain ⟨co', re', ev', h⟩ := Device.loseDrain_eq { d with cote := co, recov := re, events := ev } f
  exact ⟨co', re', ev', h⟩

theorem Device.stopFetch_same (d : Device) (n : Nat) : d.sameButRings (d.stopFetch n) := by
  unfold Device.stopFetch
  split
  · exact ⟨_, _, _, _, _, _, rfl⟩
  · exact d.sameButRings_refl

/-- Rings that are closed change no more than completions do. -/
theorem Device.closeRings_same (d : Device) (mine : Nat → Bool) (status : Nat) : d.sameButRings (d.closeRings mine status) := by
  unfold Device.closeRings
  refine foldl_keeps (fun e : Device => d.sameButRings e) _ (fun e r h => ?_) _ _
    (foldl_keeps (fun e : Device => d.sameButRings e) _ (fun e x h => ?_) _ _ d.sameButRings_refl)
  · exact Device.sameButRings_trans (Device.sameButRings_trans h (e.stopFetch_same _)) ⟨_, _, _, _, _, _, rfl⟩
  · exact Device.sameButRings_trans h (e.complete_same ..)

theorem Device.mapPens_eq (d : Device) (ms : List Nat) (folds : Nat) : ∃ si br, d.mapPens ms folds =
    { d with sites := si, bring := br } := by
  unfold Device.mapPens
  extract_lets n d1 br d2
  have h2 : ∃ si br, d2 = { d with sites := si, bring := br } := by
    obtain ⟨si, h1⟩ : ∃ si, d1 = { d with sites := si } := d.onSites_eq ..
    clear_value d1
    subst h1
    exact ⟨_, _, rfl⟩
  refine foldl_keeps (fun e : Device => ∃ si br, e = { d with sites := si, bring := br }) _ ?_ _ _ h2
  rintro e x ⟨si, br, rfl⟩
  exact ⟨_, br, rfl⟩

theorem Device.saveRecord_eq (d : Device) : ∃ se, d.saveRecord = { d with sec := se } := by
  unfold Device.saveRecord
  split
  · exact ⟨_, rfl⟩
  · extract_lets keep
    clear_value keep
    cases keep <;> exact ⟨_, rfl⟩

/-! ## Sites that are cleared (R21) -/

/-- A change of any site that keeps a fact about sites keeps it of site m. -/
theorem Device.site_onSite_keeps {P : Site → Prop} {d : Device} {m : Nat} (n : Nat) {g : Site → Site} (hg : ∀ t, P t → P (g t))
    (h : P (d.site m)) : P ((d.onSite n g).site m) := by
  rw [Device.site_onSite]
  split
  · next hm => exact hg _ (hm.1 ▸ h)
  · exact h

theorem Device.site_onSites_keeps {P : Site → Prop} {d : Device} {m : Nat} (ns : List Nat) {g : Site → Site}
    (hg : ∀ t, P t → P (g t)) (h : P (d.site m)) : P ((d.onSites ns g).site m) :=
  foldl_keeps (fun e : Device => P (e.site m)) _ (fun _ n h => Device.site_onSite_keeps n hg h) _ _ h

theorem Device.site_startClear (d : Device) (n m : Nat) :
    (d.startClear n).site m = (d.onSite n fun t => { t with clearing := true }).site m := by
  obtain ⟨he, po, h⟩ := d.startClear_eq n
  rw [h]
  rfl

theorem Device.sites_length_startClear (d : Device) (n : Nat) : (d.startClear n).sites.length = d.sites.length := by
  obtain ⟨he, po, h⟩ := d.startClear_eq n
  rw [h]
  exact List.length_modify ..

/-- A site with every tally at 0 whose paddock is being cleared. -/
def Site.clears (t : Site) : Prop := t.tally = [] ∧ t.clearing = true

/-- Every site wiped has no tally but at 0. -/
theorem Device.tally_wiped {d : Device} (hsites : d.sites.length = 42) {m : Nat} (hm : m < 42) :
    ((d.onSites (List.range 42) (·.wipe)).site m).tally = [] :=
  foldl_reaches (P := fun e : Device => (e.site m).tally = []) (Q := fun e : Device => e.sites.length = 42)
    (List.mem_range.mpr hm) (fun e he => by rw [Device.site_onSite, if_pos ⟨rfl, by omega⟩]; rfl)
    (fun e n h => Device.site_onSite_keeps (P := fun t => t.tally = []) n (fun _ _ => rfl) h)
    (fun e n h => (List.length_modify ..).trans h) hsites

theorem Device.sites_length_onSites (d : Device) (ns : List Nat) (g : Site → Site) :
    (d.onSites ns g).sites.length = d.sites.length :=
  foldl_keeps (fun e : Device => e.sites.length = d.sites.length) _ (fun _ _ h => (List.length_modify ..).trans h) _ _ rfl

/-- Then every paddock begins to clear. -/
theorem Device.clears_startClears {d : Device} (hsites : d.sites.length = 42) {m : Nat} (hm : m < 42)
    (htally : (d.site m).tally = []) : (((List.range 42).foldl (fun d n => d.startClear n) d).site m).clears := by
  refine foldl_reaches (P := fun e : Device => (e.site m).clears)
    (Q := fun e : Device => e.sites.length = 42 ∧ (e.site m).tally = []) (List.mem_range.mpr hm) (fun e he => ?does)
    (fun e n h => ?keeps) (fun e n h => ⟨?length, ?tally⟩) ⟨hsites, htally⟩
  case does =>
    rw [Device.site_startClear, Device.site_onSite, if_pos ⟨rfl, by omega⟩]
    exact ⟨he.2, rfl⟩
  case keeps =>
    rw [Device.site_startClear]
    exact Device.site_onSite_keeps n (fun t ht => ⟨ht.1, rfl⟩) h
  case length => exact (e.sites_length_startClear n).trans h.1
  case tally =>
    rw [Device.site_startClear]
    exact Device.site_onSite_keeps (P := fun t => t.tally = []) n (fun t ht => ht) h.2

/-- The mapping of the pens leaves tallies and clears as they are. -/
theorem Device.clears_mapPens {d : Device} {m : Nat} (h : (d.site m).clears) (ms : List Nat) (folds : Nat) :
    ((d.mapPens ms folds).site m).clears := by
  unfold Device.mapPens
  extract_lets n d1 br d2
  have h1 : (d1.site m).clears := Device.site_onSites_keeps (P := Site.clears) _ (fun _ ht => ht) h
  clear_value d1
  have h2 : (d2.site m).clears := h1
  refine foldl_keeps (fun e : Device => (e.site m).clears) _ (fun e x he => ?_) _ _ h2
  refine Device.site_onSite_keeps (P := Site.clears) x.1 (fun t ht => ?_) he
  split
  · exact ht
  · exact ht

/-! ## FOLDCFG.count (R20, R21, R367, R529) -/

/-- A count other than 1, 2, 4 or 8 is refused before any other test. -/
theorem Device.countStatus_bad (d : Device) {f : Nat} (hbad : f ∉ [1, 2, 4, 8]) : d.countStatus f = 0x0A :=
  if_pos (by simpa using hbad)

/-- A resident drive forbids a change. -/
theorem Device.countStatus_busy {d : Device} {f : Nat} (hlegal : f ∈ [1, 2, 4, 8]) (hdrive : d.anyDrive = true) :
    d.countStatus f = 0x03 := by
  have hcontains : ([1, 2, 4, 8].contains f) = true := List.contains_iff_mem.mpr hlegal
  rw [Device.countStatus, hcontains]
  exact (if_neg (by decide)).trans (if_pos (.inl hdrive))

theorem exec_foldcfgCount_open {s : State} (hopen : s.dev.shut 0 = false) (value : Nat) :
    exec (.foldcfgCount 0 value) s = .next ⟨s.dev.writeCount 0 (value % 16), s.pending⟩ := by
  rw [exec_foldcfgCount, Device.fromRegs_open hopen]
  rfl

theorem Device.writeCount_refused {d : Device} {f status : Nat} (hstatus : d.countStatus f = status) (hrefuses : status ≠ 0)
    (fn : Nat) : d.writeCount fn f = d.refuse fn status 0x30000 false := by
  subst hstatus
  exact if_pos hrefuses

theorem Device.writeCount_accepted {d : Device} {f : Nat} (haccepted : d.countStatus f = 0) (fn : Nat) :
    d.writeCount fn f = (d.changeCount f).tellFolds f :=
  if_neg (not_not_intro haccepted)

/-- e is d but for a fold count of f, with the folds' records as they were, every tally at 0 and every paddock being cleared. -/
structure Device.Wiped (d e : Device) (f : Nat) : Prop where
  folds : e.folds = d.folds
  foldCount : e.foldCount = f
  gtally : e.gtally = []
  site (m : Nat) : m < 42 → (e.site m).clears

/-- The folds of a device whose fold count is f now, their clears under way and their keys gone. -/
def clearingFolds (folds : List Fold) (f : Nat) : List Fold :=
  folds.zipIdx.map fun (x : Fold × Nat) => { Fold.reset with state := if x.2 < f then 1 else 0, epoch := x.1.epoch + 1 }

theorem getD_clearingFolds {folds : List Fold} {g : Nat} (hg : g < folds.length) (f : Nat) :
    (clearingFolds folds f).getD g .reset =
      { Fold.reset with state := if g < f then 1 else 0, epoch := (folds.getD g .reset).epoch + 1 } := by
  simp [clearingFolds, List.getD_eq_getElem?_getD, hg]

/-- A change of the fold count wipes the device, sets the folds, and records and measures them. -/
theorem Device.changeCount_eq {d : Device} (hsites : d.sites.length = 42) (f : Nat) : ∃ e : Device, d.Wiped e f ∧
    d.changeCount f = ({ e with folds := clearingFolds e.folds f } : Device).saveRecord.measureFolds := by
  unfold Device.changeCount
  extract_lets d1 ms d2 d3 d4 d5 d6
  refine ⟨d6, ?_, rfl⟩
  have h1 : d1.folds = d.folds ∧ d1.sites = d.sites := by
    obtain ⟨_, _, _, _, _, _, h⟩ := d.closeRings_same (· < 8) 0x0C
    simp only [d1, h, and_self]
  have h2 : d2.folds = d1.folds ∧ d2.sites = d1.sites := by
    obtain ⟨_, _, _, h⟩ := d1.loseDrains_eq (List.range 8)
    simp only [d2, h, and_self]
  have hlength : d2.sites.length = 42 := by rw [h2.2, h1.2, hsites]
  have h3 : d3.folds = d2.folds ∧ d3.sites.length = 42 := by
    obtain ⟨_, h⟩ := d2.onSites_eq (List.range 42) (·.wipe)
    exact ⟨by simp only [d3, h], (d2.sites_length_onSites ..).trans hlength⟩
  have h4 : d4.folds = d3.folds := by
    obtain ⟨_, _, _, h⟩ := d3.startClears_eq (List.range 42)
    simp only [d4, h]
  have hclears (m : Nat) (hm : m < 42) : (d4.site m).clears :=
    Device.clears_startClears h3.2 hm (Device.tally_wiped hlength hm)
  have hfolds4 : d4.folds = d.folds := by rw [h4, h3.1, h2.1, h1.1]
  clear_value d4
  have hfolds : d5.folds = d.folds := hfolds4
  have hclears5 (m : Nat) (hm : m < 42) : (d5.site m).clears := hclears m hm
  obtain ⟨si, br, h6⟩ : ∃ si br, d6 = { d5 with sites := si, bring := br } := d5.mapPens_eq ms f
  exact ⟨by rw [h6, ← hfolds], by rw [h6], by rw [h6], fun m hm => Device.clears_mapPens (hclears5 m hm) ms f⟩

/-- Settles O32: the write by the first test that it fails, then what an accepted count leaves. -/
theorem foldCountWritesAndClears : Obligations.FoldCountWritesAndClears := by
  unfold Obligations.FoldCountWritesAndClears
  refine ⟨fun s value hopen => ⟨fun haccepted => ?accepted, fun hbad => ?bad, fun hlegal hdrive => ?busy⟩,
    fun d f _ hsites hfolds => ?cleared⟩
  case accepted => rw [exec_foldcfgCount_open hopen, Device.writeCount_accepted haccepted]
  case bad => rw [exec_foldcfgCount_open hopen, Device.writeCount_refused (s.dev.countStatus_bad hbad) (by decide)]
  case busy =>
    rw [exec_foldcfgCount_open hopen, Device.writeCount_refused (Device.countStatus_busy hlegal hdrive) (by decide)]
  case cleared =>
    intro e
    obtain ⟨w, ⟨hkept, hcount, htallies, hclears⟩, hchange⟩ := Device.changeCount_eq hsites f
    obtain ⟨se, hsave⟩ := Device.saveRecord_eq { w with folds := clearingFolds w.folds f }
    have he : ∃ se, e = { w with folds := clearingFolds d.folds f, sec := se } := by
      rw [show e = _ from hchange, hsave, hkept]
      exact ⟨_, rfl⟩
    obtain ⟨se, he⟩ := he
    rw [he]
    refine ⟨hcount, htallies, fun n hn => hclears n hn, fun g hg => ?_⟩
    have hfold : ({ w with folds := clearingFolds d.folds f, sec := se } : Device).fold g = _ :=
      getD_clearingFolds (hfolds.symm ▸ hg) f
    rw [hfold]
    exact ⟨rfl, rfl, rfl, rfl⟩

end Sys2Proof.Machine
end

section
/-!
Zeroisation, resets of functions and of the host port, and the entry into full service (R406, R428, R461, R462, R465, R483, R492,
R528).
-/
namespace Sys2Proof.Machine

/-! ## Zeroisation (R428, R461, R462, R465) -/

/-- No key, root, record or session is left, and no stream or link has its keys. -/
structure Device.Keyless (d : Device) : Prop where
  drbg : d.sec.drbg = false
  kek : d.sec.kek = false
  root : d.sec.root = none
  record : d.sec.record = none
  sessions : d.sec.sessions = []
  approved : d.sec.approved = false
  folds : ∀ o ∈ d.folds, o.key = .none
  links : ∀ l ∈ d.links, l.keyed = false
  fns : ∀ r ∈ d.fns, r.ide = false

section keyless
variable {d : Device} (h : d.Keyless)
include h

/-- A device that agrees on where keys are, with no key in a fold's record. -/
theorem Device.Keyless.of_parts {e : Device} (hsec : e.sec = d.sec) (hfolds : ∀ o ∈ e.folds, o.key = .none)
    (hlinks : e.links = d.links) (hfns : e.fns = d.fns) : e.Keyless := by
  obtain ⟨hdrbg, hkek, hroot, hrecord, hsessions, happroved, -, hkeyed, hide⟩ := h
  rw [← hsec] at hdrbg hkek hroot hrecord hsessions happroved
  rw [← hlinks] at hkeyed
  rw [← hfns] at hide
  exact ⟨hdrbg, hkek, hroot, hrecord, hsessions, happroved, hfolds, hkeyed, hide⟩

/-- Without a root or a stored record there is nothing to store (R454). -/
theorem Device.Keyless.saveRecord : d.saveRecord = d := by
  have hkeep : (if d.sec.readable then d.sec.record.map (·.root) else d.sec.root) = none := by
    rw [h.root, h.record]
    exact ite_self _
  unfold Device.saveRecord
  split
  · rfl
  · simp only [hkeep]

theorem Device.Keyless.measureFolds : d.measureFolds.Keyless :=
  ⟨h.drbg, h.kek, h.root, h.record, h.sessions, h.approved, h.folds, h.links, h.fns⟩

end keyless

theorem forall_mem_modify {α : Type} {P : α → Prop} {l : List α} (hl : ∀ x ∈ l, P x) (n : Nat) {g : α → α} (hg : ∀ x, P (g x)) :
    ∀ x ∈ l.modify n g, P x := by
  intro x hx
  obtain ⟨i, hi⟩ := List.mem_iff_getElem?.mp hx
  rw [List.getElem?_modify] at hi
  obtain ⟨y, hy, rfl⟩ := Option.map_eq_some_iff.mp hi
  split
  · exact hg y
  · exact hl y (List.mem_of_getElem? hy)

/-- The pens of a fold wiped and their paddocks set to clear: sites, hefts and set points alone. -/
theorem Device.wipeSites_eq (d : Device) (ns : List Nat) : ∃ si he po,
    ns.foldl (fun d n => (d.onSite n (·.wipe)).startClear n) d = { d with sites := si, hefts := he, power := po } := by
  refine foldl_keeps (fun e : Device => ∃ si he po, e = { d with sites := si, hefts := he, power := po }) _ ?_ _ _
    ⟨_, _, _, rfl⟩
  rintro e n ⟨si, he, po, rfl⟩
  obtain ⟨he', po', h⟩ :=
    Device.startClear_eq (({ d with sites := si, hefts := he, power := po } : Device).onSite n (·.wipe)) n
  exact ⟨_, he', po', h⟩

/-- A fold handed over has no key, and no other gets one. -/
theorem Device.Keyless.handFold {d : Device} (h : d.Keyless) (f : Nat) : (d.handFold f).Keyless := by
  unfold Device.handFold
  extract_lets ss d1 g d2 d3 d4
  obtain ⟨si, he, po, h1⟩ : ∃ si he po, d1 = { d with sites := si, hefts := he, power := po } := d.wipeSites_eq ss
  clear_value d1
  subst h1
  obtain ⟨co, re, ev, h3⟩ : ∃ co re ev, d3 = { d2 with cote := co, recov := re, events := ev } := d2.loseDrain_eq f
  clear_value d3
  subst h3
  have h4 : d4.Keyless := h.of_parts rfl (forall_mem_modify h.folds f fun _ => rfl) rfl rfl
  rw [h4.saveRecord]
  exact h4.measureFolds

theorem Device.Keyless.rebuild {d : Device} (h : d.Keyless) : d.rebuild.Keyless := by
  unfold Device.rebuild
  split
  · exact foldl_keeps Device.Keyless _ (fun _ f h => h.handFold f) _ _ h
  · exact h

/-- e without its keys and secrets, and without the collectives, loads and requests under way: what a zeroisation destroys
(R428, R461). -/
def Device.unkeyed (e : Device) : Device :=
  { e with
    links := e.links.map fun (l : Link) => { l with keyed := false }
    fns := e.fns.map fun (r : FnRegs) => { r with ide := false }
    folds := e.folds.map fun (o : Fold) => { o with key := .none }
    flock := { e.flock with bellIde := false }
    coll := { e.coll with queue := [], slots := [], lags := [] }
    recov := { e.recov with loading := [], hdr := none, hdrPart := [], waitPages := [] }
    shears := .reset
    sec := { e.sec with drbg := false, kek := false, root := none, sessions := [], nonce := none } }

theorem Device.destroy_eq (d : Device) : ∃ e si he po, d.destroy =
    { (e : Device).unkeyed.haltTrace with sites := si, hefts := he, power := po } := by
  unfold Device.destroy
  extract_lets d1 d2 fl d3 d4 fl' co re se d5
  clear_value d4
  obtain ⟨si, he, po, h⟩ := d4.unkeyed.haltTrace.startClears_eq (List.range 42)
  exact ⟨d4, si, he, po, h⟩

/-- Persistent zeroisation destroys every key (R461, R462). -/
theorem Device.keyless_destroy_persistent (d : Device) : d.destroy.persistent.Keyless := by
  obtain ⟨e, si, he, po, h⟩ := d.destroy_eq
  rw [h]
  exact ⟨rfl, rfl, rfl, rfl, rfl, rfl, List.forall_mem_map.mpr fun _ _ => rfl, List.forall_mem_map.mpr fun _ _ => rfl,
    List.forall_mem_map.mpr fun _ _ => rfl⟩

theorem Device.keyless_zeroPersistent (d : Device) : d.zeroPersistent.Keyless := d.keyless_destroy_persistent.rebuild

theorem Device.fuses_of_core {d e : Device} (h : e.core = d.core) : e.sec.fuses = d.sec.fuses := congrArg (·.2.2.1) h

theorem Device.persistent_fuses (d : Device) : d.persistent.sec.fuses =
    { d.sec.fuses with coteGen := min 32 (d.sec.fuses.coteGen + 1) } := rfl

/-- Of the fuses it burns one of the cote generation, while one is left (R462, R465). -/
theorem Device.zeroPersistent_fuses (d : Device) : d.zeroPersistent.sec.fuses =
    { d.sec.fuses with coteGen := min 32 (d.sec.fuses.coteGen + 1) } := by
  rw [Device.zeroPersistent, Device.fuses_of_core (Device.rebuild_core _), Device.persistent_fuses,
    Device.fuses_of_core d.destroy_core]

theorem exec_secCtrlZeroise_code (s : State) :
    exec (.secCtrlZeroise 0 0xA5) s = .next ⟨s.dev.zeroPersistent, s.pending⟩ := by
  rw [exec_secCtrlZeroise, Device.doSecCtrl, if_pos ⟨rfl, rfl⟩]

/-- Settles O37: the keys by what destruction leaves and the folds rebuilt keep, the fuses by the core. -/
theorem zeroisationDestroysTheKeys : Obligations.ZeroisationDestroysTheKeys := by
  unfold Obligations.ZeroisationDestroysTheKeys
  intro s
  obtain ⟨hdrbg, hkek, hroot, hrecord, hsessions, happroved, hfolds, hlinks, hfns⟩ := s.dev.keyless_zeroPersistent
  refine ⟨_, exec_secCtrlZeroise_code s, rfl, ?_⟩
  dsimp only
  exact ⟨hdrbg, hkek, hroot, hrecord, hsessions, happroved, s.dev.zeroPersistent_fuses, hfolds, hlinks, hfns⟩

/-! ## Resets and the entry into full service (R406, R483, R492, R528) -/

theorem Device.doFlr_pf (d : Device) : d.doFlr 0 = d.resetPf := if_pos rfl

theorem Device.doFlr_vf {d : Device} {f : Nat} (hf : f < d.foldCount) (hfull : d.full = true) :
    d.doFlr (f + 1) = d.resetVf f := by
  rw [Device.doFlr, if_neg (Nat.succ_ne_zero f), if_pos ⟨hf, hfull⟩]
  rfl

/-- Settles O36: zeroisation by the value written, the resets by the function, the entry by its conditions. -/
theorem resetsAndFullServiceComplete : Obligations.ResetsAndFullServiceComplete := by
  unfold Obligations.ResetsAndFullServiceComplete
  intro s
  refine ⟨exec_secCtrlZeroise_code s, fun v hv => ?other, ?pf, fun f hf hfull => ?vf, fun d hd => ?port, fun hmay => ?enter⟩
  case other => rw [exec_secCtrlZeroise, Device.doSecCtrl, if_neg fun h => hv h.2]
  case pf => rw [exec_functionLevelReset, Device.doFlr_pf]; rfl
  case vf => rw [exec_functionLevelReset, Device.doFlr_vf hf hfull]; rfl
  case port =>
    rw [exec_hostPortReset]
    simp only [Device.doPortReset, ← hd]
  case enter => rw [exec_enterFullService, Device.doEnterS4, hmay]; rfl

end Sys2Proof.Machine
end
